-- ==== Sys2Proof/Word.lean ====
section
/-! DEFINITION. The plain types the whole model is written over: bytes, words and finite maps. -/

namespace Sys2Proof

/-- One byte of device memory, scratch, a mailbox or a window. -/
abbrev Byte := BitVec 8

/-- A 32-bit element value or register. -/
abbrev W32 := BitVec 32

/-- A 64-bit register. -/
abbrev W64 := BitVec 64

/-- A finite map from numbers to values: pairs whose keys rise. -/
abbrev KMap (α : Type) := List (Nat × α)

/-- A core, numbered device-wide under R3. -/
abbrev CoreId := Fin 128

/-- A cluster, numbered device-wide under R4. -/
abbrev ClusterId := Fin 16

/-- A Filet port: X+, X-, Y+, Y-, Z+, Z- (R290). -/
abbrev PortId := Fin 6

/-- A PCI function: 0 the physical function, 1 + p virtual function p (R362). -/
abbrev FnId := Fin 17

/-- A submission queue (R346). -/
abbrev QueueId := Fin 1024

/-- A context (R385). -/
abbrev CtxId := Fin 256

/-- A partition (R381). -/
abbrev PartId := Fin 16

end Sys2Proof
end

