-- ==== Sys2Proof/Machine/Maps.lean ====
section
/-! DEFINITION. Finite maps with rising keys, bit fields and little-endian bytes: the helpers every operation uses. -/

namespace Sys2Proof

/-- The value listed at key `k`. -/
def kfind {α : Type} : KMap α → Nat → Option α
  | [], _ => none
  | (k', v) :: m, k => if k = k' then some v else kfind m k

/-- The map with `v` at key `k`, keys still rising. -/
def kput {α : Type} : KMap α → Nat → α → KMap α
  | [], k, v => [(k, v)]
  | (k', v') :: m, k, v =>
    if k < k' then (k, v) :: (k', v') :: m
    else if k = k' then (k, v) :: m
    else (k', v') :: kput m k v

/-- The map without key `k`. -/
def kdel {α : Type} : KMap α → Nat → KMap α
  | [], _ => []
  | (k', v') :: m, k => if k = k' then m else (k', v') :: kdel m k

/-- The value at `k`, or `d` where nothing is listed. -/
def kget {α : Type} (d : α) (m : KMap α) (k : Nat) : α := (kfind m k).getD d

/-- Write `v` at `k` in the canonical form in which no entry equals the default `d`. -/
def kset {α : Type} [DecidableEq α] (d : α) (m : KMap α) (k : Nat) (v : α) : KMap α :=
  if v = d then kdel m k else kput m k v

/-- Change the value at `k`. -/
def kmod {α : Type} (d : α) (m : KMap α) (k : Nat) (f : α → α) : KMap α :=
  kput m k (f (kget d m k))

/-- Keys rise strictly. -/
def ksorted {α : Type} : KMap α → Bool
  | [] => true
  | [_] => true
  | (k, _) :: (k', v) :: m => decide (k < k') && ksorted ((k', v) :: m)

/-- The canonical form of a map with default `d`: keys rise and no entry equals `d`. -/
def kwf {α : Type} [DecidableEq α] (d : α) (m : KMap α) : Bool :=
  ksorted m && m.all (fun e => decide (e.2 ≠ d))

/-- The bits `[hi:lo]` of a number (R8). -/
def bitsOf (w hi lo : Nat) : Nat := (w >>> lo) % 2 ^ (hi + 1 - lo)

/-- One bit of a number. -/
def bitAt (w i : Nat) : Bool := w.testBit i

/-- A Bool as a number. -/
def b2n (b : Bool) : Nat := if b then 1 else 0

/-- Two byte ranges meet. -/
def meet (a b : Nat × Nat) : Bool := a.1 < b.2 && b.1 < a.2

/-- Two's-complement reading of the low `n` bits of `w`. -/
def signed (n w : Nat) : Int :=
  let v := w % 2 ^ n
  if v < 2 ^ (n - 1) then (v : Int) else (v : Int) - (2 ^ n : Nat)

/-- The low `n` bits of an integer. -/
def unsign (n : Nat) (i : Int) : Nat := (i % (2 ^ n : Nat)).toNat

/-- A little-endian number from bytes (R8). -/
def leNat : List Byte → Nat
  | [] => 0
  | b :: bs => b.toNat + 256 * leNat bs

/-- The `n` little-endian bytes of a number (R8). -/
def leBytes : Nat → Nat → List Byte
  | 0, _ => []
  | n + 1, w => BitVec.ofNat 8 w :: leBytes n (w / 256)

/-- `n` bytes of a byte map from `a` on. -/
def readBytes (m : KMap Byte) (a n : Nat) : List Byte :=
  (List.range n).map (fun i => kget 0 m (a + i))

/-- A byte map with the bytes `bs` from `a` on; a zero byte is not listed. -/
def writeBytes (m : KMap Byte) (a : Nat) : List Byte → KMap Byte
  | [] => m
  | b :: bs => writeBytes (kset 0 m a b) (a + 1) bs

/-- A little-endian field of a byte list. -/
def fieldAt (bs : List Byte) (off n : Nat) : Nat := leNat ((bs.drop off).take n)

/-- A byte list with a field replaced. -/
def setField (bs : List Byte) (off : Nat) (v : List Byte) : List Byte :=
  bs.take off ++ v ++ bs.drop (off + v.length)

/-- The value of `f` at the first index below `n` where it answers. -/
def firstSome {α : Type} (n : Nat) (f : Nat → Option α) : Option α :=
  (List.range n).findSome? f

/-- The least number below `n` that satisfies `p`. -/
def leastBelow (n : Nat) (p : Nat → Bool) : Option Nat := (List.range n).find? p

/-- The entry with the least key, the first of equals. -/
def leastOf {α : Type} (key : α → Nat) (l : List α) : Option α :=
  l.foldl (fun b a => match b with | some x => if key a < key x then some a else some x | none => some a) none

/-- Ceiling division. -/
def cdiv (a b : Nat) : Nat := (a + b - 1) / b

/-- The number of set bits below `n`. -/
def popCount (n w : Nat) : Nat := ((List.range n).filter (fun i => w.testBit i)).length

/-- The set bits below `n`, rising. -/
def bitList (n w : Nat) : List Nat := (List.range n).filter (fun i => w.testBit i)

/-- The number whose set bits are those of the list. -/
def bitMask (l : List Nat) : Nat := l.foldl (fun a i => a ||| 2 ^ i) 0

/-- A counter of `n` bits that wraps. -/
def wrapAdd (n c d : Nat) : Nat := (c + d) % 2 ^ n

/-- A counter that sticks at the largest value of `n` bits. -/
def satAdd (n c d : Nat) : Nat := min (c + d) (2 ^ n - 1)

/-- The element of a list at an index, or a default. -/
def nthD {α : Type} (d : α) (l : List α) (i : Nat) : α := l.getD i d

end Sys2Proof
end

