-- ==== Sys2Proof/Machine/TPool.lean ====
section
/-! DEFINITION. State types of the pool: exchange messages (R161 to R163), Bobbin (R112 to R130), exchange units (R156 to R172),
tables and shard maps (R73 to R91, R149 to R154). -/

namespace Sys2Proof.Machine

open Sys2Proof

/-- A lookup entry of a LOOKUP_REQ (R162). -/
structure LookupEntry where
  table : Nat
  row : Nat
  gen : Nat
deriving DecidableEq, Repr

/-- A reply entry of a LOOKUP_REPLY (R163): header fields and the row slot as stored. -/
structure ReplyEntry where
  holder : Nat := 0
  forwarded : Bool := false
  tier : Nat := 0
  slot16 : Nat := 0
  estatus : Nat
  slot : List Byte := []
  /-- Poison that travels with the slot (R469). -/
  poison : Bool := false
  ties : Bool := false
  /-- The codewords read did not carry the metadata of a row slot of this tier (R464). -/
  badMeta : Bool := false
deriving DecidableEq, Repr

/-- The header of an exchange message (R161). -/
structure MsgHdr where
  prefetch : Bool := false
  redirected : Bool := false
  forward : Bool := false
  srcPart : Nat
  srcCluster : Nat
  tagSlot : Nat := 0
  tagSeq : Nat := 0
  seg : Nat := 0
  epoch : Nat := 0
deriving DecidableEq, Repr

/-- A codeword's data as a message carries it: 64 bytes and its metadata. -/
structure WireWord where
  data : List Byte
  poison : Bool := false
  ties : Bool := false
  kind : Nat := 0
  pos : Nat := 0
  frag : Nat := 0
deriving DecidableEq, Repr

/-- A valid Bobbin tag (R115); the slot's bytes and the mark of R126 stand beside it. -/
structure BobTag where
  isLocal : Bool
  pref : Bool
  tier : Nat
  units : Nat
  first : Nat
  freq : Nat
  age : Nat
  row : Nat
  table : Nat
  epoch : Nat
  /-- The slot's bytes as stored in its data units (R114). -/
  slot : List Byte
  /-- A hot-row notice has been sent (R126). -/
  noticed : Bool
  ties : Bool
deriving DecidableEq, Repr

/-- What waits on an open miss (R119): a core's ring entry, an owner-side reply entry or a prefetch. -/
structure MissWaiter where
  /-- 0 a ring entry, 1 an owner-side reply entry, 2 a prefetch. -/
  kind : Nat
  core : Nat := 0
  gid : Nat := 0
  entry : Nat := 0
deriving DecidableEq, Repr

/-- An open miss-table entry (R119). -/
structure Miss where
  table : Nat
  row : Nat
  epoch : Nat
  prefetch : Bool
  /-- The miss stands in the miss table, so that later ones join it; else it is an independent read (R119). -/
  merge : Bool := true
  waiters : List MissWaiter
deriving DecidableEq, Repr

/-- One Bobbin slice (R112 to R145). -/
structure Slice where
  /-- Valid tags keyed set * 16 + way. -/
  tags : KMap BobTag := []
  epoch : Nat := 0
  applying : Bool := false
  misses : List Miss := []
  lookups : Nat := 0
  prefMax : Nat := 0x20
  agePeriod : Nat := 4
  prefEvictMax : Nat := 1
  prefRemote : Bool := true
  prefEn : Bool := true
  enable : Bool := true
  /-- Counters of R144 by register offset. -/
  counters : KMap Nat := []
deriving DecidableEq, Repr

/-- A lookup held in an exchange batch, with the ring entry it serves (R156). -/
structure XchgEntry where
  table : Nat
  row : Nat
  gen : Nat
  core : Nat
  gid : Nat
  entry : Nat
  cmd : Nat
  hops : Nat := 0
  /-- Prefetch entries name no ring entry. -/
  prefetch : Bool := false
  answered : Bool := false
deriving DecidableEq, Repr

/-- A batch and its key (R156). -/
structure Batch where
  owner : Nat
  part : Nat
  epoch : Nat
  prefetch : Bool
  redirected : Bool
  entries : List XchgEntry
  opened : Nat
  /-- BATCH_MAX, BATCH_AGE in 20 ns and REPLY_TIMEOUT in µs when the batch was opened (R183). -/
  cap : Nat := 64
  age : Nat := 20
  timeout : Nat := 50
  /-- It is sent again after it was discarded on its way, so that it takes no open-batch slot (R307). -/
  resent : Bool := false
deriving DecidableEq, Repr

/-- A lookup that is to go out again and for which no open batch could be made (R157, R166). -/
structure Reissue where
  owner : Nat
  part : Nat
  epoch : Nat
  redirected : Bool
  entry : XchgEntry
deriving DecidableEq, Repr

/-- An outstanding slot (R159): what was sent and when. Kind 0 lookups, 1 READ_REQ, 2 WRITE, 3 ARRIVE, 4 DELTA. -/
structure OutSlot where
  kind : Nat
  batch : Batch
  sent : Nat
  /-- For other kinds: address, length, command and core. -/
  addr : Nat := 0
  len : Nat := 0
  cmd : Nat := 0
  core : Nat := 0
  /-- The translation that the transfer goes through: function context, context, virtual address (R451). -/
  via : Option (Bool × Nat × Nat) := none
deriving DecidableEq, Repr

/-- A redirect hint (R166). -/
structure Hint where
  table : Nat
  row : Nat
  epoch : Nat
  holder : Nat
deriving DecidableEq, Repr

/-- One entry of a batch being served, with its answer once complete (R164). -/
structure ServeEntry where
  table : Nat
  row : Nat
  gen : Nat
  reply : Option ReplyEntry := none
deriving DecidableEq, Repr

/-- A lookup batch that this part serves or holds as owner (R164). -/
structure Serving where
  /-- Number of the batch within its unit. -/
  sid : Nat
  hdr : MsgHdr
  entries : List ServeEntry
  arrived : Nat
  /-- Held for a later epoch. -/
  held : Bool
  /-- Entries already sent in reply segments. -/
  sent : Nat := 0
deriving DecidableEq, Repr

/-- One exchange unit (R156 to R185). -/
structure Exchange where
  openB : List Batch := []
  closed : List Batch := []
  round : List Batch := []
  slots : KMap OutSlot := []
  tagSeq : KMap Nat := []
  hints : List Hint := []
  serving : List Serving := []
  nextSid : Nat := 0
  /-- Owner-cache lines, keyed set, most recently used first: table and k (R152). -/
  ownerCache : KMap (List (Nat × Nat)) := []
  replyTimeout : Nat := 0x32
  batchMax : Nat := 0x40
  batchAge : Nat := 0x14
  /-- Token buckets in bytes, keyed account * 4 + class: account 0-15 a partition, 16 pool service (R172). -/
  tokens : KMap Int := []
  /-- What each bucket has gained below a whole byte, in shares of a byte (R172). -/
  frac : KMap Nat := []
  /-- Bucket that the latest use of each outstanding slot drew on: a late reply is charged to it (R172; log entry 45). -/
  acct : KMap Nat := []
  again : List Reissue := []
  counters : KMap Nat := []
deriving DecidableEq, Repr

/-- A cluster's DRAM scheduler (R147, R170 to R172): token buckets in bytes, keyed as an exchange unit's with class 0 READ and 1 WRITE,
and their gains below a whole byte. -/
structure DramSched where
  tokens : KMap Int := []
  frac : KMap Nat := []
deriving DecidableEq, Repr

/-- A table (R73, R84 to R91). -/
structure Table where
  /-- 0 ABSENT, 1 LOADING, 2 SERVING, 3 DELETING (R84, R90). -/
  state : Nat := 0
  desc : List Byte := []
  /-- Capacity in bytes, units held, slot bytes in use and rows (R86 to R90, R591). -/
  capacity : Nat := 0
  units : List Nat := []
  /-- Next free byte of the reserved capacity, counted through the units in rising order. -/
  slotNext : Nat := 0
  /-- Freed slots: address, size and tier of the codewords they lie in (R461). -/
  freeSlots : List (Nat × Nat × Nat) := []
  /-- Freed row maps of migrated buckets (R209). -/
  freeMaps : List Nat := []
  /-- By tier: the next byte of the codeword now being filled with small slots. -/
  openCw : KMap Nat := []
  rows : Nat := 0
  used : Nat := 0
  /-- Local shard map by bucket: the 128-bit entries of R150 that differ from the initial owner, and the initial owner list. -/
  shard : KMap Nat := []
  /-- TABLE_DELETE waits: function and slot (R84). -/
  delete : Option (Nat × Nat) := none
  /-- A fence has completed since the last step that names a DELETING table ended (R84). -/
  fenced : Bool := false
deriving DecidableEq, Repr

/-- A TABLE_LOAD under way (R87): its operation and its request. -/
structure Load where
  fn : Nat
  opId : Nat
  req : List Byte
deriving DecidableEq, Repr

/-- A redirect-directory entry (R154). -/
structure DirEntry where
  cutover : Nat
  holder : Nat
  forward : Bool
  table : Nat
  row : Nat
deriving DecidableEq, Repr

/-- A directory entry as R154 lays it out. -/
def DirEntry.bits (d : DirEntry) : Nat :=
  d.cutover % 2 ^ 40 * 2 ^ 88 + d.holder % 1024 * 2 ^ 78 + d.forward.toNat * 2 ^ 77 + 2 ^ 76 + d.table % 65536 * 2 ^ 40 + d.row % 2 ^ 40

/-- The entry that 128 bits of the directory hold, or none where VALID is 0 (R154). -/
def DirEntry.ofBits (v : Nat) : Option DirEntry :=
  if !v.testBit 76 then none
  else some { cutover := v / 2 ^ 88 % 2 ^ 40, holder := v / 2 ^ 78 % 1024, forward := v.testBit 77, table := v / 2 ^ 40 % 65536, row := v % 2 ^ 40 }

/-- A step the prefetcher works on (R134). -/
structure PrefStep where
  cmd : Nat
  hint : Nat
  pos : Nat
  /-- Indices issued per cluster. -/
  issued : KMap Nat
deriving DecidableEq, Repr

/-- A procession buffer on the cluster ring (R175). -/
structure RingFlow where
  src : Nat
  dst : Nat
  off : Nat
  tally : Nat
  data : List Byte
  cmd : Nat
  /-- Flags of its 64-byte words: bit 0 poison, bit 1 TIES_AWAY. -/
  flags : List Nat
deriving DecidableEq, Repr

end Sys2Proof.Machine
end

