-- ==== Sys2Proof/Machine/TEpoch.lean ====
section
/-! DEFINITION. State types of updates, epochs, migration and re-tiering (R186 to R217). -/

namespace Sys2Proof.Machine

open Sys2Proof

/-- An update entry (R197), as a sender holds it and as an owner stages it. -/
structure UpdEntry where
  table : Nat
  row : Nat
  rule : Nat
  vfmt : Nat
  srcPart : Nat
  srcSeq : Nat
  gen : Nat
  param0 : Nat
  param1 : Nat
  /-- FP32 or BF16 patterns. -/
  vals : List Nat
deriving DecidableEq, Repr

/-- A sender's entry until it is answered (R198, R592): the exchange unit and partition that carry it. -/
structure SentEntry where
  entry : UpdEntry
  epoch : Nat
  owner : Nat
  cmd : Nat
  unit : Nat
  part : Nat
  redirects : Nat := 0
  /-- Since when it waits to be resent after STAGE_FULL (R198). -/
  fullAt : Option Nat := none
  /-- Slot and use count of the message that carries it; none while it is unsent. -/
  tag : Option Nat := none
deriving DecidableEq, Repr

/-- A shard change (R213): kind 1 begin, 2 cut-over, 3 cancel; `row` where a single row migrates (log entry 11). -/
structure ShardChange where
  table : Nat
  bucket : Nat
  owner : Nat
  next : Nat
  kind : Nat
  row : Option Nat := none
deriving DecidableEq, Repr

/-- Entries staged for one epoch at an owner (R196, R199). -/
structure Staging where
  epoch : Nat
  entries : List UpdEntry := []
  /-- Ranges of staged sequence values: source part, first, last. -/
  seen : List (Nat × Nat × Nat) := []
deriving DecidableEq, Repr

/-- A snapshot-directory entry (R204). -/
structure Snap where
  sepoch : Nat
  tier : Nat
  zero : Bool
  slot : Nat
  table : Nat
  row : Nat
deriving DecidableEq, Repr

/-- A held row (R211). -/
structure HeldRow where
  table : Nat
  row : Nat
  slot : Nat
  tier : Nat
  snap : Bool
  active : Bool
  /-- Its copy has arrived, so that SLOT names a slot. -/
  filled : Bool
  /-- The fence that cut the row over to another holder (R558); 0 while this part holds it. -/
  gone : Nat := 0
deriving DecidableEq, Repr

/-- A held-row entry as R211 lays it out. -/
def HeldRow.bits (h : HeldRow) : Nat :=
  h.table % 65536 * 2 ^ 112 + h.row % 2 ^ 40 * 2 ^ 72 + h.slot % 2 ^ 38 * 2 ^ 34 + h.tier % 4 * 2 ^ 32 + 2 ^ 31 + h.snap.toNat * 2 ^ 30 +
    h.active.toNat * 2 ^ 29

/-- A migration at A (R209). State 0 IDLE, 1 ANNOUNCED, 2 COPYING, 3 READY, 4 CUT, 5 DONE. -/
structure Migration where
  table : Nat
  isRow : Bool
  bucket : Nat
  row : Nat
  target : Nat
  state : Nat
  cut : Nat := 0
  /-- The local index from which copies are still to be sent; the end marker has been sent. -/
  next : Nat := 0
  ended : Bool := false
  /-- Rows sent and not acknowledged, each with the number of its message; 2^40 stands for the end marker. -/
  out : List (Nat × Nat) := []
  /-- Rows whose copies the target has. -/
  copied : Nat := 0
  /-- The bucket's row map, kept after the cut-over until it is freed. -/
  rowMap : Nat := 0
  /-- A moved row's present holder, from which it is copied (R558), and the FORWARD bit that the request asks for. -/
  via : Option Nat := none
  forward : Bool := false
  /-- The local epoch from which the holder is asked for the row, whether it has been asked, and the row that it gave, with its epoch. -/
  askFrom : Nat := 0
  asked : Bool := false
  got : Option (Nat × ReplyEntry) := none
deriving DecidableEq, Repr

/-- A copy at the target T (R209, R210). -/
structure CopyIn where
  table : Nat
  isRow : Bool
  bucket : Nat
  row : Nat
  source : Nat
  /-- Device offset of the reserved row map. -/
  rowMap : Nat := 0
  /-- Rows received; all of them once the end marker has arrived. -/
  rows : List Nat := []
  complete : Bool := false
  /-- Rows whose copy failed its check and was requested again (R464). -/
  asked : List Nat := []
  /-- Deltas logged by epoch. -/
  log : List (Nat × UpdEntry) := []
deriving DecidableEq, Repr

/-- A logged delta that T has not acknowledged, with the DELTA that waits for it (R209). -/
structure LogOut where
  num : Nat
  epoch : Nat
  target : Nat
  table : Nat
  isRow : Bool
  bucket : Nat
  row : Nat
  entry : UpdEntry
  wait : Option MsgHdr
deriving DecidableEq, Repr

/-- A DELTA passed on to T, whose answer goes to its sender (R212). -/
structure DeltaFwd where
  num : Nat
  target : Nat
  hdr : MsgHdr
  entries : List UpdEntry
deriving DecidableEq, Repr

/-- The entries of a DELTA that this part stages once the parts that it has passed the others on to have answered (R198, R212). -/
structure DeltaHold where
  hdr : MsgHdr
  entries : List UpdEntry
deriving DecidableEq, Repr

/-- A re-tiering pass (R215, R216). Block state 0 IDLE, 1 PREPARING, 2 PREPARED, 3 SWITCHED. Its state, block, `shadowAt` and
`switchEpoch` are what the journal record holds. -/
structure RetierPass where
  /-- PASS_ID is the OP_ID of its request. -/
  passId : Nat
  fn : Nat
  table : Nat
  first : Nat
  last : Nat
  map : Nat
  state : Nat := 0
  bucket : Nat
  block : Nat := 0
  retiered : Nat := 0
  /-- Rows of the block whose tier changes: local index and target tier. -/
  targets : List (Nat × Nat) := []
  /-- The shadow map: local index, new slot, new tier. -/
  shadow : List (Nat × Nat × Nat) := []
  /-- Device offset of the 1 MiB that the shadow map takes. -/
  shadowAt : Option Nat := none
  switchEpoch : Nat := 0
deriving DecidableEq, Repr

/-- A bucket's skew counters (R207). -/
structure SkewCount where
  lookups : Nat := 0
  deltas : Nat := 0
deriving DecidableEq, Repr

/-- A watch slot (R207). -/
structure Watch where
  table : Nat
  counts : KMap SkewCount := []
  cleared : Nat := 0
deriving DecidableEq, Repr

/-- A hot-row entry (R207). -/
structure HotRow where
  table : Nat
  row : Nat
  notices : Nat
  clusters : Nat
deriving DecidableEq, Repr

/-- Counts a member reports with FENCE_APPLIED so that EPOCH_FENCE can answer (R192, R218). -/
structure FenceStats where
  rows : Nat := 0
  collisions : Nat := 0
  capDrops : Nat := 0
  snapOver : Nat := 0
  lost : Nat := 0
deriving DecidableEq, Repr

/-- The leader's fence in progress (R187, R188, R192). -/
structure Fence where
  epoch : Nat
  /-- 1 closing, 2 applying. -/
  phase : Nat
  closed : List Nat := []
  applied : List Nat := []
  /-- Shard changes reported, by member. -/
  changes : KMap (List ShardChange) := []
  departed : Nat := 0
  phaseStart : Nat
  /-- EPOCH_FENCE requests that wait: function, OP_ID and since when. -/
  ops : List (Nat × Nat × Nat) := []
  stats : FenceStats := {}
deriving DecidableEq, Repr

/-- Everything about epochs at one part. -/
structure Epochs where
  epoch : Nat := 0
  /-- 0 open, 1 closing, 2 closed, 3 applying (R189, R218). -/
  phase : Nat := 0
  closeAt : Nat := 0
  /-- The part whose fence messages this member answers. -/
  fenceSrc : Nat := 0
  leader : Nat := 0xFFFF
  graceUs : Nat := 2000
  stageRows : Nat := 20
  stageMib : Nat := 1024
  limitMs : Nat := 100
  /-- STAGE_ROWS and STAGE_MIB from the next fence on (R219). -/
  nextRows : Nat := 20
  nextMib : Nat := 1024
  srcSeq : Nat := 0
  sent : List SentEntry := []
  deferred : Nat := 0
  staging : List Staging := []
  snaps : KMap (List Snap) := []
  overflow : List Snap := []
  /-- Rows changed without keeping the superseded slot: table, row, fence epoch (R206). -/
  lostSnaps : List (Nat × Nat × Nat) := []
  held : List HeldRow := []
  migrations : List Migration := []
  copies : List CopyIn := []
  /-- Buckets this part handed over, and their new owner (R212). -/
  moved : List (Nat × Nat × Nat) := []
  /-- Logged deltas and passed-on DELTAs outstanding, and the number of the next (R209, R212). -/
  logs : List LogOut := []
  fwds : List DeltaFwd := []
  holds : List DeltaHold := []
  nextNum : Nat := 0
  /-- Changes to be reported until a fence applies them, and those of the fence being applied (R213). -/
  changes : List ShardChange := []
  applying : List ShardChange := []
  /-- The changes that the FENCE_CLOSED of the fence at hand carried, and those of the fence applied last (R189, R213). -/
  closedWith : List ShardChange := []
  lastWith : List ShardChange := []
  passes : List RetierPass := []
  watches : KMap Watch := []
  hot : List HotRow := []
  fence : Option Fence := none
  /-- Counts of the fence being applied, and of the last one applied. -/
  counts : FenceStats := {}
  last : FenceStats := {}
  /-- LOST_DELTAS not yet reported (R191). -/
  lost : Nat := 0
deriving DecidableEq, Repr

end Sys2Proof.Machine
end

