-- ==== Sys2Proof/Machine/TFabric.lean ====
section
/-! DEFINITION. State types of the Filet fabric: messages (R161, R310), packets (R296), flits (R294), ports (R292 to R306) and
membership (R291, R303, R309). Log entry 11: a message is a structured value, since the spec gives several bodies no bytes. -/

namespace Sys2Proof.Machine

open Sys2Proof

/-- A status code of a class of R14: no part ever reports another. -/
def listedStatus (st : Nat) : Bool := st = 0 || (0x100 ≤ st && st < 0x800)

/-- The messages of R161, R197, R198, R209 and R310. DESIGN CHOICE: READ_REPLY, WRITE_ACK and ARRIVE_ACK carry the status of a refusal, and
ARRIVE the participant id, which R161's bodies have no field for (log entry 11). -/
inductive Msg where
  | lookupReq (h : MsgHdr) (es : List LookupEntry)
  | lookupReply (h : MsgHdr) (es : List ReplyEntry)
  | readReq (h : MsgHdr) (addr len : Nat)
  | readReply (h : MsgHdr) (status : Nat) (ws : List WireWord)
  | write (h : MsgHdr) (addr : Nat) (ws : List WireWord)
  | writeAck (h : MsgHdr) (status : Nat)
  | arrive (h : MsgHdr) (addr pid : Nat)
  | arriveAck (h : MsgHdr) (status : Nat)
  | delta (h : MsgHdr) (es : List UpdEntry)
  | deltaAck (h : MsgHdr) (astatus holder : Nat)
  | migrateCopy (h : MsgHdr) (table bucket : Nat) (isRow : Bool) (row : Nat) (reply : ReplyEntry) (final : Bool)
  | migrateLog (h : MsgHdr) (table bucket : Nat) (isRow : Bool) (row : Nat) (entry : UpdEntry)
  | migrateAck (h : MsgHdr) (table bucket : Nat) (isRow : Bool) (row : Nat) (isLog : Bool) (again : Bool := false)
  | fenceClose (epoch src : Nat)
  | fenceClosed (epoch src : Nat) (changes : List ShardChange)
  | fenceApply (epoch src : Nat) (changes : List ShardChange)
  | fenceApplied (epoch src : Nat) (stats : FenceStats)
  | joinReq (poolId dx dy dz rings part : Nat)
  | joinGrant (epoch : Nat) (members : Nat)
  | joinDeny (part check : Nat)
  | memberUp (part : Nat)
  | memberDown (part : Nat)
  | linkDown (part port cause lastSeq : Nat)
  | linkUp (part port cause lastSeq : Nat)
  /-- UNCERTAIN and the first 32 bytes of the discarded packet. -/
  | dropped (uncertain : Bool) (head : List Byte)
  /-- A message of a reserved type (R161). -/
  | reserved (h : MsgHdr) (kind : Nat)
deriving DecidableEq, Repr

/-- A message that waits in an exchange unit for pool-service tokens (R172): its destination and itself. -/
structure Outgoing where
  dest : Nat
  msg : Msg
deriving DecidableEq, Repr

/-- A packet: the route header of R296 and its message. -/
structure Packet where
  dest : Nat
  src : Nat
  length : Nat
  cls : Nat
  vcDl : Bool := false
  dirX : Bool := false
  dirY : Bool := false
  dirZ : Bool := false
  partition : Nat := 0
  hops : Nat := 0
  reversed : Bool := false
  msg : Msg
deriving DecidableEq, Repr

/-- A flit (R294): its header fields, the packet whose first flit it is, and, of a received one, the wire bytes that arrived wrong (R293). -/
structure Flit where
  seq : Nat
  ack : Nat
  nak : Bool := false
  type : Nat
  vc : Nat := 0
  units : Nat := 0
  stomp : Bool := false
  creditVc : Nat := 0
  credits : Nat := 0
  errs : List (Fin 448) := []
  packet : Option Packet := none
deriving DecidableEq, Repr

/-- A packet arriving on a virtual channel (R295, R300): units received so far. -/
structure RxPacket where
  packet : Packet
  units : Nat
  /-- Forwarded already by cut-through: the output port, and the packet as it goes on. -/
  out : Option (Nat × Packet) := none
  /-- Discarded while its tail is still arriving: its units are freed as they come. -/
  drop : Bool := false
deriving DecidableEq, Repr

/-- A packet at an output port: the units that have come in so far, and those sent (R300). -/
structure TxPacket where
  packet : Packet
  avail : Nat
  sent : Nat := 0
deriving DecidableEq, Repr

/-- A flit in a retry buffer: its packet, and whether it is the packet's last flit (R295, R305). -/
structure TxFlit where
  flit : Flit
  packet : Packet
  final : Bool
deriving DecidableEq, Repr

/-- A packet in flight on a fenced link: the sequence number of its last flit, if that was sent (R305). -/
structure LeftPacket where
  packet : Packet
  last : Option Nat
deriving DecidableEq, Repr

/-- An identity block (R292). -/
structure IdBlock where
  poolId : Nat
  part : Nat
  port : Nat
  dx : Nat
  dy : Nat
  dz : Nat
  rings : Nat
deriving DecidableEq, Repr

/-- A firmware image in a flash slot (R550, R551): its header, manifest and state. -/
structure Image where
  /-- 0 EMPTY, 1 VALID, 2 INVALID (R563). -/
  state : Nat := 0
  version : Nat := 0
  svn : Nat := 0
  capLevel : Nat := 0
  resultClass : Nat := 0
  digest : Nat := 0
  /-- Entries: kind, PEER, lowest and highest tested version. -/
  manifest : List (Nat × Bool × Nat × Nat) := []
deriving DecidableEq, Repr

/-- One port (R292, R315). -/
structure Port where
  /-- STATE of R315. -/
  state : Nat := 0
  cause : Nat := 0
  full : Bool := false
  /-- The neighbour's FAB image, as learned in training (R552). -/
  peerFab : Image := {}
  fences : Nat := 0
  trainAt : Nat := 0
  drainAt : Nat := 0
  fencedAt : Nat := 0
  /-- Transmit side: SEQ of the last data flit sent and of the last one acknowledged, the retry buffer, packets that wait, the packet begun
  on each VC, credits per VC (R295, R300). -/
  txLast : Nat := 0
  txAcked : Nat := 0
  retry : List TxFlit := []
  queue : List TxPacket := []
  cur : KMap TxPacket := []
  credits : KMap Nat := []
  /-- The VC served last among 6 and 7, and among the other six (R300). -/
  lastCtrl : Nat := 0
  lastVc : Nat := 0
  /-- No further packet goes to this port: the other end has announced a planned fence (R305, R306). -/
  closing : Bool := false
  /-- Flits sent, newest first (observation; R294). -/
  sent : List Flit := []
  /-- The identity block sent in this training (R292). -/
  idSent : Option IdBlock := none
  /-- Receive side: SEQ of the last flit accepted, the ACK sent last, a NAK to be sent, discards of the expected flit in a row. -/
  rxSeq : Nat := 0
  ackTold : Nat := 0
  nakDue : Bool := false
  discards : Nat := 0
  /-- Corrected symbols in the second that began at `ceStart`, and the full seconds in a row before it with more than CE_LIMIT (R304). -/
  ceStart : Nat := 0
  ceCount : Nat := 0
  ceOver : Nat := 0
  /-- Times of the flits discarded in the last millisecond, newest first (R304). -/
  discardAt : List Nat := []
  /-- Packets per virtual channel, oldest first. -/
  rx : KMap (List RxPacket) := []
  /-- Units of receive buffer freed and not yet returned, per VC. -/
  freed : KMap Nat := []
  /-- Packets that this port has begun to send and abandoned with STOMP, newest first (observation; R305). -/
  stomped : List Packet := []
  /-- Packets whose STOMP flit still waits for room in the retry buffer (R295, R305). -/
  stompDue : List Packet := []
  counters : KMap Nat := []
  /-- PORT_FENCEs and PORT_UNFENCEs that wait: function and OP_ID (R306, R312). -/
  fenceOps : List (Nat × Nat) := []
  upOps : List (Nat × Nat) := []
  /-- Packets that were in flight when the link was fenced, and the last SEQ then acknowledged; LINK_DOWN for them is still to come
  (R305). -/
  left : List LeftPacket := []
  leftBase : Nat := 0
  awaitDown : Bool := false
deriving DecidableEq, Repr

/-- A control request that is resent until answered (R307). -/
structure CtrlReq where
  dest : Nat
  msg : Msg
  last : Nat
deriving DecidableEq, Repr

/-- An ACL_SET that waits for the accesses which passed the check under the old entry and are not yet performed: the headers of their
messages (R303). -/
structure AclDrain where
  fn : Nat
  slot : Nat
  first : Nat
  last : Nat
  start : Nat
  waits : List MsgHdr
deriving DecidableEq, Repr

/-- Pool shape, membership and access lists (R291, R303, R309). -/
structure Pool where
  configured : Bool := false
  dx : Nat := 1
  dy : Nat := 1
  dz : Nat := 1
  rings : Nat := 0
  partId : Nat := 0
  poolId : Nat := 0
  /-- Membership map of 1,024 bits. -/
  members : Nat := 1
  joined : Bool := false
  /-- POOL_JOIN in progress: function, OP_ID, leader, time of the last JOIN_REQ. -/
  join : Option (Nat × Nat) := none
  joinLeader : Nat := 0
  joinAt : Nat := 0
  /-- At the leader: ids that left, each with the epoch whose fence clears it (R309); parts that leave after the fence (R311). -/
  leftIds : List (Nat × Nat) := []
  leaveAsked : List Nat := []
  /-- At the leader: the grants it has given, by id: the epoch and the membership map (R549). -/
  grants : KMap (Nat × Nat) := []
  /-- Fenced links known: part, port (R305). -/
  fenced : List (Nat × Nat) := []
  /-- Access entries and bitmaps by region (R303). -/
  acl : KMap Nat := []
  aclMap : KMap Nat := []
  aclDrains : List AclDrain := []
  ctrl : List CtrlReq := []
  /-- CE_LIMIT: corrected symbols per second above which a port fences; 0 fences none (R304). The spec names no command that sets it. -/
  ceLimit : Nat := 0
  /-- Messages delivered to this part and not yet handled, oldest first. -/
  inbox : List Packet := []
  /-- Packets this part has injected, newest first (observation; log entry 11). -/
  tx : List Packet := []
deriving DecidableEq, Repr

end Sys2Proof.Machine
end

