-- ==== Sys2Proof/Machine/TMem.lean ====
section
/-! DEFINITION. State types: device memory and its codeword metadata (R461), the host side (R433 to R438, R533, R534),
translation (R432 to R458) and the error records of the RAS block (R459 to R495). -/

namespace Sys2Proof.Machine

open Sys2Proof

/-- The 24 metadata bits of a codeword (R461). -/
structure CwMeta where
  poison : Bool := false
  ties : Bool := false
  kind : Nat := 0
  pos : Nat := 0
  tier : Nat := 0
  frag : Nat := 0
deriving DecidableEq, Repr

/-- Device memory: bytes in canonical form over zero, metadata per 64-byte codeword, and symbol errors present in the
array (R460): how many symbols of a codeword are wrong. -/
structure DevMem where
  bytes : List Host.Cell := []
  info : KMap CwMeta := []
  symErr : KMap Nat := []
deriving DecidableEq, Repr

/-- What a detected arithmetic fault records (R248, R256, R470): which check, and where. -/
structure MxFault where
  lockstep : Bool
  column : Nat
  slot : Nat
  group : Nat
deriving DecidableEq, Repr

/-- An error on a path that the residue check covers (R245 to R247): it changes the A21 value of cell (row, column) at the end of a
promotion group of a slot, or the significand product of a float step, by `delta`. -/
structure SumError where
  slot : Nat
  group : Nat
  row : Nat
  column : Nat
  delta : Int
deriving DecidableEq, Repr

/-- An error on a path that the residue check does not cover (R247): bits of one slot value change. -/
structure ValueError where
  slot : Nat
  row : Nat
  column : Nat
  mask : Nat
deriving DecidableEq, Repr

/-- Wrong symbols in a word of on-die memory that an engine reads (R459, R467): a word of its context's scratch window, a word of the
cluster's Bobbin slice, or a word that the engine itself keeps: an accumulator slot, its queue or a table. -/
inductive SramPlace where
  | scratch (word : Nat)
  | bobbin
  | engine
deriving DecidableEq, Repr

/-- The place and the count of wrong symbols; three are uncorrectable. -/
structure SramErr where
  place : SramPlace
  errs : Fin 4
deriving DecidableEq, Repr

/-- A millisecond's energies as the controller has them for its three shares, in µJ (R514): the cores' active energy, the static energy
of each half and the uncore energy of each cluster. -/
structure EnergyShares where
  active : Nat
  halves : List Nat
  uncore : List Nat
deriving DecidableEq, Repr

/-- One translation the host's page tables give through ATS (R437): requester, page, size, host address, permissions. -/
structure HostPage where
  /-- Function of the requester (0 to 16). -/
  fn : Nat
  /-- PASID of the request; none for a function context. -/
  pasid : Option Nat
  va : Nat
  size : Nat
  hpa : Nat
  read : Bool
  write : Bool
deriving DecidableEq, Repr

/-- The translation that ATS gives for an address of a page of the host's: 1 GiB where the page covers the aligned 1 GiB around it, else
2 MiB; none where it covers no aligned 2 MiB (R437, R440). -/
def HostPage.cut (h : HostPage) (va : Nat) : Option HostPage :=
  let piece := fun (size : Nat) =>
    let a := va / size * size
    if h.va ≤ a && a + size ≤ h.va + h.size then some { h with va := a, size := size, hpa := h.hpa + (a - h.va) } else none
  (piece (2 ^ 30)).or (piece (2 ^ 21))

/-- One MSI-X message sent (R533, R534). -/
structure MsixMsg where
  fn : Nat
  vector : Nat
  addr : Nat
  data : Nat
deriving DecidableEq, Repr

/-- The host as the part meets it. Log entry 9. -/
structure HostSide where
  /-- Host memory bytes the part has written. -/
  mem : KMap Byte := []
  /-- Host memory lines that read with CXL data poison (R594), as HOST_LINK_UP and PRI_RESPONSE say. -/
  poison : KMap Bool := []
  pages : List HostPage := []
  /-- Interrupt messages sent, newest first. -/
  msix : List MsixMsg := []
  /-- Page requests sent through PRI, newest first: context, page (R443). -/
  pri : List (Nat × Nat) := []
  /-- Results of register reads returned, newest first. -/
  reads : List Nat := []
  /-- Lines returned by CXL.mem reads, newest first: bytes and poison (R530). -/
  lines : List (List Byte × Bool) := []
  /-- Host addresses of CXL.mem accesses answered as unsupported, newest first (R529). -/
  unsupported : List Nat := []
  /-- ATS Invalidate Completions sent (R451). -/
  atsDone : Nat := 0
deriving DecidableEq, Repr

/-- A cached leaf (R440): its translation context, page, size, entry and the host translation derived from it. -/
structure TlbEntry where
  isFn : Bool
  ctx : Nat
  va : Nat
  size : Nat
  entry : Nat
  host : Option HostPage
  /-- Level of the leaf (R436): what a fault record gives where the leaf denies an access (R445). -/
  level : Nat
deriving DecidableEq, Repr

/-- An access joined to an outstanding fault (R444). -/
structure FaultAccess where
  core : Nat
  /-- UNITS bit 4 to 7 of R445, as 0 to 3. -/
  unit : Nat
  cmd : Nat
  /-- Which of the core's units it is (log entry 34). -/
  lane : Nat
deriving DecidableEq, Repr

/-- An outstanding fault (R444). -/
structure XFault where
  id : Nat
  ctx : Nat
  va : Nat
  page : Nat
  size : Nat
  cause : Nat
  level : Nat
  rd : Bool
  wr : Bool
  pri : Bool
  host : Bool
  merged : Bool
  units : Nat
  cores : Nat
  queue : Nat
  seq : Nat
  time : Nat
  written : Bool
  accesses : List FaultAccess
deriving DecidableEq, Repr

/-- A fault record waiting in the batch (R445, R447), bytes 0 to 59 with PHASE clear. -/
structure FaultRec where
  kind : Nat
  /-- Partitions whose virtual functions also take a FATAL or NOTICE record. -/
  parts : List Nat
  faultId : Nat
  bytes : List Byte
deriving DecidableEq, Repr

/-- A function's fault ring (R447, R454). -/
structure FaultRing where
  log2 : Nat := 0
  addr : Nat := 0
  written : Nat := 0
  head : Nat := 0
deriving DecidableEq, Repr

/-- A page migration in progress (R449). -/
structure PageMove where
  fn : Nat
  opId : Nat
  ctx : Nat
  dir : Nat
  faultId : Nat
  va : Nat
  page : Nat
  size : Nat
  offset : Nat
  /-- Offset of the leaf's entry. -/
  entryAt : Nat
  /-- The leaf has been written and its old translation drains since this time. -/
  drain : Option Nat := none
deriving DecidableEq, Repr

/-- A translation drain of a mailbox request in progress (R451, R452, R454): its slot, the range it covers, its start and the
contexts torn down so far. -/
structure XDrain where
  fn : Nat
  slot : Nat
  isFn : Bool
  ctx : Nat
  first : Nat
  last : Nat
  start : Nat
  torn : Nat := 0
deriving DecidableEq, Repr

/-- The translation unit. -/
structure Xlt where
  /-- Device page-table roots of contexts (R432). -/
  ctxRoot : KMap Nat := []
  ctxPasid : KMap Nat := []
  fnRoot : KMap Nat := []
  /-- Core caches, most recently used first (R440). -/
  coreTlb : KMap (List TlbEntry) := []
  /-- Cluster caches keyed cluster * 128 + set. -/
  clusterTlb : KMap (List TlbEntry) := []
  /-- Device translation cache by set. -/
  devTlb : KMap (List TlbEntry) := []
  faults : List XFault := []
  nextFault : Nat := 1
  batch : List FaultRec := []
  batchStart : Nat := 0
  rings : KMap FaultRing := []
  dropped : Nat := 0
  /-- Page request groups outstanding: context, page (R443). -/
  priGroups : List (Nat × Nat) := []
  /-- Pages whose page request has failed, so that the next denial opens the fault (R443). -/
  priFailed : List (Nat × Nat) := []
  moves : List PageMove := []
  /-- Counters of R458 by register offset. -/
  counters : KMap Nat := []
  drains : List XDrain := []
deriving DecidableEq, Repr

/-- An event on its way to a CPER record (R485, R486). -/
structure RasEvent where
  event : Nat
  severity : Nat := 3
  status : Nat := 0
  cls : Nat := 0
  unit : Nat := 0
  core : Nat := 0xFF
  cluster : Nat := 0xFF
  port : Nat := 0xFF
  partition : Nat := 0xFF
  ctx : Nat := 0xFFFF
  addr : Nat := 0
  blockId : Nat := 0
  expected : Nat := 0
  observed : Nat := 0
  queue : Nat := 0xFFFF
  seq : Nat := 0
  seed : Nat := 0
  detail : List Byte := []
  time : Nat := 0
deriving DecidableEq, Repr

/-- Suppression state per event and unit (R487): time of the last record, occurrences since, and entries they discarded (R486). -/
structure RasSupp where
  last : Nat
  count : Nat := 0
  entries : Nat := 0
deriving DecidableEq, Repr

/-- A capture slot (R471): the failing core, the descriptor, the data read and the command's mode; log entry 30. -/
structure Capture where
  core : Nat
  desc : List Byte
  cmd : Nat
  ties : Bool
  /-- The scratch of the core as the descriptor reads it. -/
  scratch : KMap Byte
  shadow : Bool
deriving DecidableEq, Repr

/-- A classification in progress (R472). -/
structure Classify where
  core : Nat
  capture : Option Nat
  neighbour : Option Nat
  /-- A neighbour has reported a mismatch itself. -/
  second : Bool
  start : Nat
  queue : Nat
  seq : Nat
  lockstep : Bool
  /-- The capture is complete, so that the repeat may begin. -/
  copied : Bool := false
deriving DecidableEq, Repr

/-- A Vigil test in progress (R477 to R479). -/
structure VigilTest where
  coreA : Nat
  coreB : Nat
  /-- A third core: brought in for one phase, or tested with the pair. -/
  third : Option Nat := none
  /-- All three cores repeat the whole test (R478). -/
  three : Bool := false
  phase : Nat := 1
  seed : Nat
  start : Nat
  /-- The core that repeats the phase against the third. -/
  retry : Option Nat := none
deriving DecidableEq, Repr

/-- The RAS state of one core (R473, R474, R490). -/
structure CoreRas where
  /-- STATE of R474: 0 in service, 1 quarantined, 2 Vigil, 3 overdue, 4 fenced. -/
  state : Nat := 0
  lastClass : Nat := 0
  /-- Reference times of TRANSIENT classifications (R473). -/
  transients : List Nat := []
  /-- End of the last test, if any (R480). -/
  lastTest : Option Nat := none
  isDue : Bool := false
  dueSince : Nat := 0
  samples : Nat := 0
  skipped : Nat := 0
  /-- MATRIX descriptors begun while overdue, modulo 64 (R482). -/
  matrixCount : Nat := 0
  /-- CORE_FENCEs with MODE 1 that wait for the step boundary (R490). -/
  fenceWait : List (Nat × Nat) := []
  /-- The decision to fence has been taken at this time, with the requests to answer (R475). -/
  fenceStart : Option Nat := none
  fenceOps : List (Nat × Nat) := []
  fenceClass : Nat := 0
  /-- CORE_UNFENCE that waits for the core's test. -/
  unfence : Option (Nat × Nat) := none
  /-- UNIT of the core's latest mismatch, and whether it was a lockstep mismatch (R470, R486). -/
  faultUnit : Nat := 3
  faultLock : Bool := false
  /-- Three TRANSIENT classifications within 24 h, and no test passed since (R473). -/
  suspect : Bool := false
  /-- It was OVERDUE when Vigil took it: PACE_QUIET does not hold its test back (R480, R481). -/
  overdue : Bool := false
deriving DecidableEq, Repr

/-- A SELVAGE_SEAL in progress (R490): its request, context, next block, end, block size and id of the first block. -/
structure SealOp where
  fn : Nat
  opId : Nat
  ctx : Nat
  first : Nat
  next : Nat
  last : Nat
  size : Nat
  blockId : Nat
  /-- The block at hand has been written and is to be acknowledged by another part. -/
  sent : Bool := false
deriving DecidableEq, Repr

/-- The RAS block and its firmware (R459 to R495). The on-device CPER log lies in device memory (R545). -/
structure Ras where
  /-- Events whose records firmware has not yet written (R487), oldest first. -/
  events : List RasEvent := []
  /-- The next CPER sequence (R485). -/
  nextSeq : Nat := 1
  ringLog2 : Nat := 0
  ringAddr : Nat := 0
  /-- Records copied to the ring, the next log record to copy, and the consumed count (R488). -/
  copied : Nat := 0
  nextCopy : Nat := 1
  head : Nat := 0
  supp : KMap RasSupp := []
  captures : KMap Capture := []
  classify : List Classify := []
  /-- Cores held for a test that wait for a partner. -/
  waiting : List Nat := []
  tests : List VigilTest := []
  vigilEnable : Bool := true
  maxHeld : Nat := 2
  periodH : Nat := 24
  deferralS : Nat := 1800
  paceQuietMs : Nat := 100
  /-- The entry to full service, from which first due times count (R544). -/
  vigilBase : Nat := 0
  /-- Windows by partition: HELD and expiry (R480). -/
  windows : KMap (Nat × Nat) := []
  /-- Counters of R495 by register offset. -/
  counters : KMap Nat := []
  /-- Times of corrections in the last hour by 1 GiB region (R468). -/
  storm : KMap (List Nat) := []
  /-- Shadow samples outstanding: core, capture slot, shadow core (R482). -/
  shadows : List (Nat × Nat × Nat) := []
  seals : List SealOp := []
  debugLock : Bool := false
deriving DecidableEq, Repr

end Sys2Proof.Machine
end

