-- ==== Sys2Proof/Syntax.lean ====
section
/-! DEFINITION. The commands the block takes: one constructor per row of spec/opcode_table.json, with the operands its rule gives it.
Log entries 5 and 12. -/

namespace Sys2Proof

open Sys2Proof.Machine

/-- The commands of the ZX5 block, in the order of the opcode table. -/
inductive Instr where
  /-- POWER_ON (R542). 54 V rises through 36 V: the hot-swap controller releases, the rails, the power controller and the reference counter start, and the boot stages run through reduced service. -/
  | powerOn
  /-- CLUSTER_PAIR_CALIBRATED (R544). Calibration of clusters k and k + 8 ends after 150 ms; a failing point degrades the cluster under R546, and the next pair is taken. -/
  | clusterPairCalibrated (best : Fin 5) (best8 : Fin 5)
  /-- FULL_SERVICE_ENTRY (R544). Once every cluster and channel group is calibrated, the part enters full service at point 0 and starts retraining ports at full rate one at a time. -/
  | fullServiceEntry (slow : BitVec 16) (peers : BitVec 6)
  /-- FULL_RESET (R547). PERST# or PART_RESET KIND 1 clears everything except the capture area, the power controller and the reference counter, and boots from the committed slots. -/
  | fullReset
  /-- PERST_ASSERT (R584). PERST# asserted during power-up holds the part at the 10 ms row of R542; asserted later, it is a full reset. -/
  | perstAssert
  /-- SELF_RESET (R536). Link down, Hot Reset, link disable, physical-function FLR or CXL Reset: the part stops intake, drains or kills host-facing work, tears those contexts down and resets the host interface. -/
  | selfReset (cause : Fin 5)
  /-- SELF_RESET_DRAIN_LIMIT (R536). At 1 ms after the trigger, every step of a host-facing context that is still running ends with HOST_LINK_LOST. -/
  | selfResetDrainLimit
  /-- FLR_VF (R539). An FLR of virtual function p tears down the host-facing contexts of partition p and resets that function's mailboxes, rings and MSI-X table. -/
  | flrVf (p : PartId)
  /-- CP_WATCHDOG (R547). After 10 ms without a heartbeat, the CP watchdog starts a CP restart. -/
  | cpWatchdog
  /-- CP_RESTART (R548). The CP reloads its image from its SRAM copy while hardware keeps running, then answers the pending requests and records CP_RESTART. -/
  | cpRestart
  /-- CAP_READ (R562). Returns up to 28 capability values starting at KEY_FIRST, with their PRESENT bits. -/
  | capRead (f : FnId) (slot : Fin 28)
  /-- PART_IDENTITY (R563). Returns the serial, product, stepping, fuse flags, image versions and identity key digest. -/
  | partIdentity (f : FnId) (slot : Fin 28)
  /-- PART_QUERY (R563). Returns service state, calibration counts, owned buckets, held rows and the recalibrating group. -/
  | partQuery (f : FnId) (slot : Fin 28)
  /-- PART_RESET (R563). Performs a CP restart for KIND 0 or a full reset for KIND 1. -/
  | partReset (f : FnId) (slot : Fin 28)
  /-- PARTITION_SET (R383). Sets a target partition table; cores with pending moves receive no further dispatch, and the request completes asynchronously once every move is done. -/
  | partitionSet (f : FnId) (slot : Fin 28)
  /-- PARTITION_QUERY (R402). Returns a partition's current and target masks and its counts. -/
  | partitionQuery (f : FnId) (slot : Fin 28)
  /-- CONTEXT_CREATE (R385). Creates a context with fixed class, window, slice, page-table root and save area, resident or swapped. -/
  | contextCreate (f : FnId) (slot : Fin 28)
  /-- CONTEXT_DESTROY (R401). Tears down a context and responds when it reaches ABSENT. -/
  | contextDestroy (f : FnId) (slot : Fin 28)
  /-- CONTEXT_QUERY (R402). Returns a context's state, last placement, blocked-since time and charge. -/
  | contextQuery (f : FnId) (slot : Fin 28)
  /-- CONTEXT_SUSPEND (R397). Stops a running JOB's sequencers, saves its state by rank and frees its cores. -/
  | contextSuspend (f : FnId) (slot : Fin 28)
  /-- CONTEXT_RESUME (R398). Restores a suspended JOB on as many cores, each rank receiving its saved state. -/
  | contextResume (f : FnId) (slot : Fin 28) (bad : Bool)
  /-- CONTEXT_SET (R402). Changes a context's SLICE from its next turn. -/
  | contextSet (f : FnId) (slot : Fin 28)
  /-- QUEUE_CREATE (R377). Binds a new submission queue with its rings, default timeout and vector to a context. -/
  | queueCreate (f : FnId) (slot : Fin 28)
  /-- QUEUE_DESTROY (R359). Destroys a queue, abandoning commands not begun when ABANDON is set. -/
  | queueDestroy (f : FnId) (slot : Fin 28)
  /-- QUEUE_QUERY (R377). Returns a queue's state and its accepted, done, written and held counts. -/
  | queueQuery (f : FnId) (slot : Fin 28)
  /-- QUEUE_REMAP (R358). Names a new completion ring for a BLOCKED queue and writes the held records there. -/
  | queueRemap (f : FnId) (slot : Fin 28)
  /-- ALMANAC_CONFIG (R377). Places or moves a partition's Almanac ring and sets PF_RECORDS. -/
  | almanacConfig (f : FnId) (slot : Fin 28)
  /-- ALMANAC_QUERY (R377). Returns an Almanac's base, size, write sequence, oldest, acknowledged sequence and wrap count. -/
  | almanacQuery (f : FnId) (slot : Fin 28)
  /-- ALMANAC_ACK (R375). Records the driver's acknowledged Almanac sequence. -/
  | almanacAck (f : FnId) (slot : Fin 28)
  /-- EXPRESS_BIND (R368). Binds, rebinds or unbinds an express channel, ending that channel's busy slots with EXPRESS_UNBOUND. -/
  | expressBind (f : FnId) (slot : Fin 28)
  /-- OP_QUERY (R377). Returns the state and response of an asynchronous operation by OP_ID. -/
  | opQuery (f : FnId) (slot : Fin 28)
  /-- XLT_SET (R454). Sets a context's or function's page-table root and PASID, invalidating the whole context when either changes. -/
  | xltSet (f : FnId) (slot : Fin 28)
  /-- XLT_INVALIDATE (R451). Removes cached translations over a range and responds once the transfers under them have drained. -/
  | xltInvalidate (f : FnId) (slot : Fin 28)
  /-- FAULT_RESOLVE (R448). Resolves a PAGE fault by retrying or failing its joined accesses. -/
  | faultResolve (f : FnId) (slot : Fin 28)
  /-- PAGE_MIGRATE (R449). Moves one leaf's page between host and device memory, rewrites the leaf and resolves the named fault. -/
  | pageMigrate (f : FnId) (slot : Fin 28)
  /-- FAULT_RING_SET (R454). Sets, replaces or unsets a function's fault ring and zeroes its head and count. -/
  | faultRingSet (f : FnId) (slot : Fin 28)
  /-- XLT_QUERY (R454). Walks a virtual address and returns the final entry, level, cause and translation. -/
  | xltQuery (f : FnId) (slot : Fin 28)
  /-- TABLE_CREATE (R86). Checks a table descriptor, copies the shard map, reserves capacity and builds empty row maps, moving the table to LOADING. -/
  | tableCreate (f : FnId) (slot : Fin 28)
  /-- TABLE_LOAD (R87). Converts and writes the rows this part owns into a LOADING table, asynchronously. -/
  | tableLoad (f : FnId) (slot : Fin 28)
  /-- TABLE_SEAL (R89). Moves a LOADING table to SERVING. -/
  | tableSeal (f : FnId) (slot : Fin 28)
  /-- TABLE_QUERY (R90). Returns a table's state, generation, row and byte counts, capacity and FIRM_LOW. -/
  | tableQuery (f : FnId) (slot : Fin 28)
  /-- TABLE_DELETE (R84). Moves a table to DELETING and responds once it is freed and ABSENT. -/
  | tableDelete (f : FnId) (slot : Fin 28)
  /-- TABLE_FREED (R84). Once the last step naming a DELETING table has ended and the next fence has completed, the part sweeps Bobbin, frees the table and responds to TABLE_DELETE. -/
  | tableFreed (t : BitVec 16)
  /-- EPOCH_FENCE (R187). At the leader, starts or resends the two-phase fence of epoch n and responds when every member has applied it. -/
  | epochFence (f : FnId) (slot : Fin 28)
  /-- EPOCH_QUERY (R218). Returns the local epoch, fence phase, leader, staged rows and deferred entries. -/
  | epochQuery (f : FnId) (slot : Fin 28)
  /-- EPOCH_CONFIG (R219). Sets the leader, grace, staging limits and fence limit. -/
  | epochConfig (f : FnId) (slot : Fin 28)
  /-- BUCKET_MIGRATE (R209). Starts the migration of a bucket to a new owner, which enters ANNOUNCED. -/
  | bucketMigrate (f : FnId) (slot : Fin 28)
  /-- ROW_MIGRATE (R209). Starts the migration of one row to a holder, writing its held-row and directory entries. -/
  | rowMigrate (f : FnId) (slot : Fin 28)
  /-- MIGRATE_QUERY (R218). Returns a migration's state, cut-over epoch and rows copied. -/
  | migrateQuery (f : FnId) (slot : Fin 28)
  /-- MIGRATE_CANCEL (R209). Cancels a migration in COPYING or READY. -/
  | migrateCancel (f : FnId) (slot : Fin 28)
  /-- SKEW_WATCH (R207). Binds or unbinds a table to a skew-monitor watch slot. -/
  | skewWatch (f : FnId) (slot : Fin 28)
  /-- SKEW_QUERY (R208). Copies a slot's bucket counters and the hot-row table to memory, optionally clearing them. -/
  | skewQuery (f : FnId) (slot : Fin 28)
  /-- RETIER_PASS (R215). Starts a re-tiering pass over a bucket range under a tier map. -/
  | retierPass (f : FnId) (slot : Fin 28)
  /-- RETIER_QUERY (R218). Returns a re-tiering pass's state, position and rows retiered. -/
  | retierQuery (f : FnId) (slot : Fin 28)
  /-- RETIER_CANCEL (R217). Stops a re-tiering pass and rolls back the block in hand. -/
  | retierCancel (f : FnId) (slot : Fin 28)
  /-- SHARD_QUERY (R180). Returns the local shard-map entry of a bucket. -/
  | shardQuery (f : FnId) (slot : Fin 28)
  /-- SPLIT_SET (R181). Sets a partition's read/write/remote split, applied at each unit's next step boundary. -/
  | splitSet (f : FnId) (slot : Fin 28)
  /-- SPLIT_GET (R180). Returns a partition's split. -/
  | splitGet (f : FnId) (slot : Fin 28)
  /-- SERVICE_SET (R181). Sets the pool-service share and its read/write split. -/
  | serviceSet (f : FnId) (slot : Fin 28)
  /-- REDIRECT_QUERY (R180). Returns a row's redirect-directory entry. -/
  | redirectQuery (f : FnId) (slot : Fin 28)
  /-- FABRIC_CONFIG (R291). Gives the part the pool shape, ring flags, pool id and its part id, and starts port training. -/
  | fabricConfig (f : FnId) (slot : Fin 28)
  /-- PORT_QUERY (R312). Returns a port's state, cause, rate and error counts. -/
  | portQuery (f : FnId) (slot : Fin 28)
  /-- PORT_FENCE (R306). Starts a planned fence of a port: sends LINK_DOWN and drains it. -/
  | portFence (f : FnId) (slot : Fin 28)
  /-- PORT_UNFENCE (R306). Retrains a FENCED port and sends LINK_UP when it is ACTIVE. -/
  | portUnfence (f : FnId) (slot : Fin 28)
  /-- ACL_SET (R303). Changes region access entries and bitmaps, and responds once earlier passed accesses are performed. -/
  | aclSet (f : FnId) (slot : Fin 28)
  /-- ACL_GET (R312). Returns a region's access entry and writes its bitmap. -/
  | aclGet (f : FnId) (slot : Fin 28)
  /-- POOL_JOIN (R309). Names the leader and joins the pool through JOIN_REQ and JOIN_GRANT. -/
  | poolJoin (f : FnId) (slot : Fin 28)
  /-- POOL_LEAVE (R311). Asks the leader to remove the part from the pool between fences. -/
  | poolLeave (f : FnId) (slot : Fin 28)
  /-- POOL_QUERY (R312). Returns the pool id, part id, leader, shape and membership map. -/
  | poolQuery (f : FnId) (slot : Fin 28)
  /-- RAS_QUERY (R490). Returns the RAS totals and the fenced-core mask. -/
  | rasQuery (f : FnId) (slot : Fin 28)
  /-- CORE_QUERY (R490). Returns a core's state, classification, transients, test times and sample counts. -/
  | coreQuery (f : FnId) (slot : Fin 28)
  /-- CORE_FENCE (R475). Fences a core at once or at its next step boundary or job end. -/
  | coreFence (f : FnId) (slot : Fin 28)
  /-- CORE_UNFENCE (R474). Runs a full Vigil test on a FENCED core and returns it to service if the test passes. -/
  | coreUnfence (f : FnId) (slot : Fin 28)
  /-- VIGIL_CONFIG (R480). Sets Vigil enable, held-core limit, period, maximum deferral and pace quiet time. -/
  | vigilConfig (f : FnId) (slot : Fin 28)
  /-- VIGIL_WINDOW (R480). Raises Vigil's held-core limit for one partition for a duration. -/
  | vigilWindow (f : FnId) (slot : Fin 28)
  /-- VIGIL_WINDOW_EXPIRY (R480). The duration of a VIGIL_WINDOW ends, and the partition's limit returns to MAX_HELD. -/
  | vigilWindowExpiry (p : PartId)
  /-- CPER_RING_SET (R488). Sets or unsets the physical function's CPER ring and zeroes its head and copy count. -/
  | cperRingSet (f : FnId) (slot : Fin 28)
  /-- CPER_READ (R490). Writes one record of the on-device CPER log to memory. -/
  | cperRead (f : FnId) (slot : Fin 28)
  /-- SELVAGE_SEAL (R490). Reads each block of a range and writes it back with a selvage tag. -/
  | selvageSeal (f : FnId) (slot : Fin 28)
  /-- SELVAGE_CHECK (R490). Checks the selvage of a range and reports pass, mismatch, poison or plain. -/
  | selvageCheck (f : FnId) (slot : Fin 28)
  /-- POWER_QUERY (R517). Returns window power, effective limit, input voltage and current, duty, stall and efficiency. -/
  | powerQuery (f : FnId) (slot : Fin 28)
  /-- POWER_SET (R517). Sets the power limit, margin, gain and maximum duty from the next sample. -/
  | powerSet (f : FnId) (slot : Fin 28)
  /-- PACE_WEIGHT_SET (R501). Sets a partition's pacing weight. -/
  | paceWeightSet (f : FnId) (slot : Fin 28)
  /-- THERMAL_QUERY (R517). Returns each cluster's temperatures, point and thermal flags. -/
  | thermalQuery (f : FnId) (slot : Fin 28)
  /-- THERMAL_SET (R517). Sets the DRAM and logic derating thresholds. -/
  | thermalSet (f : FnId) (slot : Fin 28)
  /-- ENERGY_QUERY (R515). Returns a context's energy total. -/
  | energyQuery (f : FnId) (slot : Fin 28)
  /-- IMAGE_STAGE (R563). Verifies an image and its pairings and writes it to the free slot of its kind. -/
  | imageStage (f : FnId) (slot : Fin 28)
  /-- IMAGE_ACTIVATE (R552). Checks pairings and activates a staged image by CP swap, core rollout, port update or at the next power-on. -/
  | imageActivate (f : FnId) (slot : Fin 28)
  /-- IMAGE_COMMIT (R550). Commits the running image of a kind and raises the fused minimum SVN. -/
  | imageCommit (f : FnId) (slot : Fin 28)
  /-- IMAGE_QUERY (R563). Returns the state, flags, version and SVN of both slots of a kind. -/
  | imageQuery (f : FnId) (slot : Fin 28)
  /-- RECAL (R557). Starts recalibration of a DRAM channel group. -/
  | recal (f : FnId) (slot : Fin 28)
  /-- BARRIER_QUERY (R431). Returns a barrier's state from the barrier unit's table or from memory. -/
  | barrierQuery (f : FnId) (slot : Fin 28)
  /-- UNIMPLEMENTED_OPCODE (R17). A request with an unimplemented opcode or version is answered CAPABILITY_MISSING or VERSION_REFUSED with no state change. -/
  | unimplementedOpcode (f : FnId) (slot : Fin 28)
  /-- ASYNC_OP_COMPLETE (R371). An asynchronous operation finishes, and firmware posts its response as a notice and a CONTROL record. -/
  | asyncOpComplete (f : FnId) (op : BitVec 32)
  /-- NOTICE_POSTED (R371). A held notice is written into a notice slot once that slot is FREE. -/
  | noticePosted (f : FnId)
  /-- MAILBOX_SLOT_WRITE (R364). A host write to a control mailbox slot, ignored with a PROTECTION event while the slot is RUNNING. -/
  | mailboxSlotWrite (f : FnId) (off : Fin 8192) (bytes : List Byte)
  /-- MB_EXP_DOORBELL_WRITE (R368). Setting bits of MB_EXP_DOORBELL marks express slots for delivery, or rejects a slot with an unbound channel or bad length. -/
  | mbExpDoorbellWrite (f : FnId) (bits : BitVec 16)
  /-- EXPRESS_DELIVERY (R368). Once a running command with the bound rank exists and a cell is free, the front end copies the slot to scratch and adds to the DELIVER tally. -/
  | expressDelivery (f : FnId) (k : Fin 16)
  /-- EXPRESS_TIMEOUT (R370). A busy express slot is not delivered within its channel's TIMEOUT and ends with EXPRESS_TIMEOUT. -/
  | expressTimeout (f : FnId) (k : Fin 16)
  /-- MB_EXP_RESULT_READ (R369). A read of MB_EXP_RESULT returns the per-slot results and clears them. -/
  | mbExpResultRead (f : FnId) (half : Fin 3 := 0)
  /-- COMMIT_WRITE (R347). A write of COMMIT to a ring's control line is a wake: the front end accepts the new entries and passes the wake to the scheduler. -/
  | commitWrite (f : FnId) (q : QueueId) (count : BitVec 32)
  /-- FE_SQ_DOORBELL_WRITE (R347). A write to a queue's doorbell is a wake that accepts the announced entries. -/
  | feSqDoorbellWrite (f : FnId) (q : QueueId) (count : BitVec 32)
  /-- FE_CQ_HEAD_WRITE (R357). Advances a queue's consumed completion count, letting held records be written, or is ignored if it moves backwards or too far. -/
  | feCqHeadWrite (f : FnId) (q : QueueId) (head : BitVec 32)
  /-- BAR2_WRITE (R525). A host write to the submission window is stored in a context's area, or discarded with PROTECTION when protected or foreign. -/
  | bar2Write (f : FnId) (off : BitVec 28) (bytes : List Byte)
  /-- STEP (R19). The scheduler admits a STEP, fixes its read epoch and places its pattern on cores by affinity. -/
  | step (q : QueueId)
  /-- JOB (R392). The scheduler admits a JOB when no other STEP or JOB of its partition runs, and dispatches it. -/
  | job (q : QueueId)
  /-- UPDATE (R194). An update command begins: it is checked, its entries take sequence values and are sent as DELTA messages to owners. -/
  | update (q : QueueId)
  /-- MARKER (R350). A MARKER completes OK once its fences are satisfied and its predecessors have begun. -/
  | marker (q : QueueId)
  /-- FENCE_CYCLE (R361). The scheduler finds two heads waiting on each other within their windows and completes both with FENCE_CYCLE. -/
  | fenceCycle (a : QueueId) (b : QueueId)
  /-- COMMAND_TIMEOUT (R360). A command's timer expires: it ends with TIMEOUT and is drained or killed as its queue specifies. -/
  | commandTimeout (q : QueueId) (seq : BitVec 48)
  /-- DRAIN_TIMEOUT (R360). Descriptors of a drained command have not ended within 30 µs and are abandoned. -/
  | drainTimeout (q : QueueId) (seq : BitVec 48)
  /-- COMMAND_COMPLETE (R356). A command completes: the part writes its COMPLETED Almanac record, then its completion record in queue order, then raises MSI-X. -/
  | commandComplete (q : QueueId) (seq : BitVec 48)
  /-- STEP_REPLAY (R26). After a core fence or a residue, lockstep or selvage mismatch, the whole step is replayed once on other cores of its partition under ties away. -/
  | stepReplay (q : QueueId) (seq : BitVec 48)
  /-- CONTEXT_TEARDOWN (R401). A context's running commands are stopped, its queues go DEAD and an EVENT record is written. -/
  | contextTeardown (x : CtxId)
  /-- TURN_PASS (R393). The turn holder's charge reaches its SLICE or it has no ready head, and the turn passes to the next context. -/
  | turnPass (p : PartId)
  /-- CONTEXT_SWAP (R399). A swapped context with a ready head obtains residency by swapping out victims and is swapped in. -/
  | contextSwap (x : CtxId) (bad : Bool)
  /-- CORE_MOVE (R384). A core with a pending move becomes free of its old partition's commands and moves, clearing and granting windows. -/
  | coreMove (c : CoreId)
  /-- NOP (R325). Sequencer instruction that does nothing. -/
  | seqNop (c : CoreId) (errs : Fin 4 := 0) (again : Bool := false)
  /-- LI (R325). Loads a sign-extended immediate into a register. -/
  | seqLi (c : CoreId)
  /-- LUI (R325). Loads the immediate into a register's upper 32 bits. -/
  | seqLui (c : CoreId)
  /-- ADD (R325). Adds two registers. -/
  | seqAdd (c : CoreId) (lockstep : Bool := false)
  /-- ADDI (R325). Adds a sign-extended immediate to a register. -/
  | seqAddi (c : CoreId) (lockstep : Bool := false)
  /-- SUB (R325). Subtracts two registers. -/
  | seqSub (c : CoreId) (lockstep : Bool := false)
  /-- MUL (R325). Multiplies two registers, keeping the low 64 bits. -/
  | seqMul (c : CoreId) (lockstep : Bool := false)
  /-- AND (R325). Bitwise AND of two registers. -/
  | seqAnd (c : CoreId) (lockstep : Bool := false)
  /-- OR (R325). Bitwise OR of two registers. -/
  | seqOr (c : CoreId) (lockstep : Bool := false)
  /-- XOR (R325). Bitwise XOR of two registers. -/
  | seqXor (c : CoreId) (lockstep : Bool := false)
  /-- SHL (R325). Shifts a register left. -/
  | seqShl (c : CoreId) (lockstep : Bool := false)
  /-- SHR (R325). Shifts a register right logically. -/
  | seqShr (c : CoreId) (lockstep : Bool := false)
  /-- BEQ (R325). Branches if two registers are equal. -/
  | seqBeq (c : CoreId)
  /-- BNE (R325). Branches if two registers differ. -/
  | seqBne (c : CoreId)
  /-- BLT (R325). Branches if one register is less than another, signed. -/
  | seqBlt (c : CoreId)
  /-- BGE (R325). Branches if one register is at or above another, signed. -/
  | seqBge (c : CoreId)
  /-- JMP (R325). Jumps by a relative offset. -/
  | seqJmp (c : CoreId)
  /-- LDS (R325). Loads 8 bytes of scratch into a register. -/
  | seqLds (c : CoreId) (errs : Fin 4 := 0)
  /-- STS (R325). Stores a register to 8 bytes of scratch. -/
  | seqSts (c : CoreId)
  /-- GETS (R326). Reads a selected system value into a register. -/
  | seqGets (c : CoreId)
  /-- FETCH (R331). Loads a 2 KiB descriptor batch into a buffer. -/
  | seqFetch (c : CoreId)
  /-- ISSUE (R332). Judges and issues a buffered descriptor to its engine queue. -/
  | seqIssue (c : CoreId)
  /-- ISSUEX (R332). Judges and issues a descriptor from scratch to its engine queue. -/
  | seqIssuex (c : CoreId)
  /-- WAITE (R329). Waits until the descriptors issued to the masked queues have ended. -/
  | seqWaite (c : CoreId)
  /-- SEMTAKE (R417). Takes a unit from a pair's producer side, waiting while it is 0. -/
  | seqSemtake (c : CoreId) (errs : Fin 4 := 0)
  /-- SEMGIVE (R417). Adds one to a pair's consumer side, or fails with SEM_UNDERFLOW. -/
  | seqSemgive (c : CoreId) (errs : Fin 4 := 0)
  /-- TADD (R411). Adds to a tally, saturating and reporting TALLY_SATURATED. -/
  | seqTadd (c : CoreId) (errs : Fin 4 := 0)
  /-- TWAIT (R413). Waits until a tally reaches a value. -/
  | seqTwait (c : CoreId) (errs : Fin 4 := 0)
  /-- BARRIVE (R423). Arrives at a memory-backed barrier once the core's earlier writes are visible. -/
  | seqBarrive (c : CoreId)
  /-- BWAIT (R424). Waits until the barrier round the core last arrived in is complete. -/
  | seqBwait (c : CoreId)
  /-- ENQ (R339). Reserves a slot of the context's queue for a submission entry. -/
  | seqEnq (c : CoreId)
  /-- END (R330). Waits for all queues to drain, then ends the core's share. -/
  | seqEnd (c : CoreId)
  /-- FAIL (R325). Ends the command with PATTERN_FAILED and a detail value. -/
  | seqFail (c : CoreId)
  /-- SEM_TAKE_SERVED (R416). A give lets a waiting take on a pair proceed, in arrival order. -/
  | semTakeServed (c : CoreId) (pair : Fin 64)
  /-- TALLY_WAIT_SATISFIED (R414). An add makes a tally reach a waiter's target, and the wait ends in the next cycle. -/
  | tallyWaitSatisfied (c : CoreId)
  /-- NULL_DESCRIPTOR (R332). An issued NULL descriptor does nothing. -/
  | nullDescriptor (c : CoreId)
  /-- GATHER (R100). A gather descriptor streams indices through Bobbin, local DRAM or the exchange unit into the staging ring, with its built-in pooling program. -/
  | gather (c : CoreId) (lockstep : Bool) (ways : List (Fin 65536)) (words : List SramErr := [])
  /-- ROW_ARRIVAL (R100). A looked-up row arrives, is checked for selvage and poison, widened and written into its ring entry. -/
  | rowArrival (c : CoreId) (gid : Nat) (entry : Nat) (errs : Nat) (transport : Bool)
  /-- MATRIX (R230). A matrix operation streams X past stationary W chunks into accumulator slots, with residue checks, Picot, split and statistics. -/
  | matrix (c : CoreId) (lockstep : Bool) (sums : List SumError := []) (vals : List ValueError := []) (overlap : Nat := 0)
      (words : List SramErr := [])
  /-- VECTOR (R259). An element program runs over COUNT elements from its streams to its outputs. -/
  | vector (c : CoreId) (lockstep : Bool) (words : List SramErr := [])
  /-- PICOT_PICK (R283). The built-in program chooses Picot channels from collected magnitudes and writes the list. -/
  | picotPick (c : CoreId)
  /-- PROCESSION (R175). Sends a core's current buffer to its successor's other buffer over the cluster ring. -/
  | procession (c : CoreId)
  /-- PROCESSION_ARRIVAL (R175). A procession buffer arrives in full, is checked, and adds one to the receiving core's tally. -/
  | processionArrival (c : CoreId) (bad : Bool)
  /-- COPY (R338). Moves data between device memory and scratch in tensor blocks with selvage, adding to a tally at the end. -/
  | copy (c : CoreId) (words : List SramErr := [])
  /-- VX_NOP (R269). Vector instruction with no effect. -/
  | vxNop (c : CoreId) (w : BitVec 32)
  /-- MOV (R269). Copies an operand. -/
  | vxMov (c : CoreId) (w : BitVec 32)
  /-- FADD (R269). Floating-point add. -/
  | vxFadd (c : CoreId) (w : BitVec 32)
  /-- FSUB (R269). Floating-point subtract. -/
  | vxFsub (c : CoreId) (w : BitVec 32)
  /-- FMUL (R269). Floating-point multiply. -/
  | vxFmul (c : CoreId) (w : BitVec 32)
  /-- FFMA (R269). Fused multiply-add with one rounding. -/
  | vxFfma (c : CoreId) (w : BitVec 32)
  /-- FMIN (R270). Lesser of two floats. -/
  | vxFmin (c : CoreId) (w : BitVec 32)
  /-- FMAX (R270). Greater of two floats. -/
  | vxFmax (c : CoreId) (w : BitVec 32)
  /-- FABS (R269). Absolute value. -/
  | vxFabs (c : CoreId) (w : BitVec 32)
  /-- FNEG (R269). Exact negation. -/
  | vxFneg (c : CoreId) (w : BitVec 32)
  /-- FDIV (R270). Correctly rounded division. -/
  | vxFdiv (c : CoreId) (w : BitVec 32)
  /-- FSQRT (R270). Correctly rounded square root. -/
  | vxFsqrt (c : CoreId) (w : BitVec 32)
  /-- FRSQRT (R270). Correctly rounded reciprocal square root. -/
  | vxFrsqrt (c : CoreId) (w : BitVec 32)
  /-- FEXP (R271). Exponential. -/
  | vxFexp (c : CoreId) (w : BitVec 32)
  /-- FLOG (R271). Natural logarithm. -/
  | vxFlog (c : CoreId) (w : BitVec 32)
  /-- FTANH (R271). Hyperbolic tangent. -/
  | vxFtanh (c : CoreId) (w : BitVec 32)
  /-- FSIGM (R271). Logistic sigmoid. -/
  | vxFsigm (c : CoreId) (w : BitVec 32)
  /-- FCLT (R270). Float less-than compare. -/
  | vxFclt (c : CoreId) (w : BitVec 32)
  /-- FCLE (R270). Float less-or-equal compare. -/
  | vxFcle (c : CoreId) (w : BitVec 32)
  /-- FCEQ (R270). Float equality compare. -/
  | vxFceq (c : CoreId) (w : BitVec 32)
  /-- SEL (R269). Selects B or C by A. -/
  | vxSel (c : CoreId) (w : BitVec 32)
  /-- CVTIF (R269). Converts INT32 to FP32. -/
  | vxCvtif (c : CoreId) (w : BitVec 32)
  /-- CVTFI (R269). Converts FP32 to INT32. -/
  | vxCvtfi (c : CoreId) (w : BitVec 32)
  /-- FCLAMP (R269). Clamps A between B and C. -/
  | vxFclamp (c : CoreId) (w : BitVec 32)
  /-- IADD (R270). Saturating integer add. -/
  | vxIadd (c : CoreId) (w : BitVec 32)
  /-- ISUB (R270). Saturating integer subtract. -/
  | vxIsub (c : CoreId) (w : BitVec 32)
  /-- IMUL (R270). Saturating integer multiply. -/
  | vxImul (c : CoreId) (w : BitVec 32)
  /-- IMIN (R269). Lesser of two integers. -/
  | vxImin (c : CoreId) (w : BitVec 32)
  /-- IMAX (R269). Greater of two integers. -/
  | vxImax (c : CoreId) (w : BitVec 32)
  /-- VX_AND (R269). Bitwise AND of two element operands. -/
  | vxAnd (c : CoreId) (w : BitVec 32)
  /-- VX_OR (R269). Bitwise OR of two element operands. -/
  | vxOr (c : CoreId) (w : BitVec 32)
  /-- VX_XOR (R269). Bitwise XOR of two element operands. -/
  | vxXor (c : CoreId) (w : BitVec 32)
  /-- VX_SHL (R269). Element shift left. -/
  | vxShl (c : CoreId) (w : BitVec 32)
  /-- SHRA (R269). Element arithmetic shift right. -/
  | vxShra (c : CoreId) (w : BitVec 32)
  /-- SHRL (R269). Element logical shift right. -/
  | vxShrl (c : CoreId) (w : BitVec 32)
  /-- ICLT (R269). Signed integer less-than compare. -/
  | vxIclt (c : CoreId) (w : BitVec 32)
  /-- ICEQ (R269). Integer equality compare. -/
  | vxIceq (c : CoreId) (w : BitVec 32)
  /-- SCAN_FADD (R272). Segmented float add scan. -/
  | vxScanFadd (c : CoreId) (w : BitVec 32)
  /-- SCAN_FMAX (R272). Segmented float max scan. -/
  | vxScanFmax (c : CoreId) (w : BitVec 32)
  /-- SCAN_FMIN (R272). Segmented float min scan. -/
  | vxScanFmin (c : CoreId) (w : BitVec 32)
  /-- SCAN_FFMA (R272). Segmented fused multiply-add scan. -/
  | vxScanFfma (c : CoreId) (w : BitVec 32)
  /-- SCAN_IADD (R272). Segmented saturating integer add scan. -/
  | vxScanIadd (c : CoreId) (w : BitVec 32)
  /-- SCAN_IMAX (R272). Segmented integer max scan. -/
  | vxScanImax (c : CoreId) (w : BitVec 32)
  /-- SCAN_IMIN (R272). Segmented integer min scan. -/
  | vxScanImin (c : CoreId) (w : BitVec 32)
  /-- ST (R274). Writes an element to an output stream, at segment ends only when SEGEND is set. -/
  | vxSt (c : CoreId) (w : BitVec 32)
  /-- BOBBIN_FILL (R121). A missed row arrives at a Bobbin slice and is installed after victim selection and compaction, or delivered without install. -/
  | bobbinFill (k : ClusterId) (table : BitVec 16) (row : BitVec 40) (epoch : BitVec 40)
  /-- AGING_TICK (R125). After 2^(16 + AGE_PERIOD) lookups, a slice ages every valid tag. -/
  | agingTick (k : ClusterId)
  /-- PREFETCH_ISSUE (R134). The prefetcher issues hint-list indices at prefetch priority into target slices. -/
  | prefetchIssue (ways : List (Fin 1048576) := [])
  /-- BATCH_CLOSE (R158). An open exchange batch reaches BATCH_AGE and closes. -/
  | batchClose (k : ClusterId)
  /-- BATCH_SEND (R159). A closed batch is sent in round order once a slot and tokens are available. -/
  | batchSend (k : ClusterId)
  /-- LOOKUP_REQ (R164). An owner's exchange unit receives a lookup batch and serves, holds or closes each entry by epoch. -/
  | lookupReq (h : MsgHdr) (es : List LookupEntry) (ways : List (Fin 65536))
  /-- REPLY_SEGMENT_SEND (R164). An owner sends a reply segment once all of its entries are complete. -/
  | replySegmentSend (k : ClusterId) (ways : List (Fin 65536) := [])
  /-- PREFETCH_DROP_TIMEOUT (R165). A prefetch entry not served within 4 µs is answered DROPPED. -/
  | prefetchDropTimeout (k : ClusterId)
  /-- LOOKUP_REPLY (R163). The requester receives a reply segment and delivers, zeroes, redirects, poisons or ends each entry. -/
  | lookupReply (h : MsgHdr) (es : List ReplyEntry)
  /-- REPLY_TIMEOUT (R168). A batch's reply is not complete within REPLY_TIMEOUT; the slot is freed and its steps end. -/
  | replyTimeout (k : ClusterId) (slot : Fin 512)
  /-- READ_REQ (R148). A remote read request is checked against the access list and served. -/
  | readReq (h : MsgHdr) (p : PartId) (addr : Nat) (len : Nat)
  /-- READ_REPLY (R464). Read data with selvage arrives at the requester and is checked. -/
  | readReply (h : MsgHdr) (status : Nat) (ws : List WireWord)
  /-- WRITE (R303). A remote write is checked against the access list and written with selvage, or poisoned on mismatch. -/
  | write (h : MsgHdr) (p : PartId) (addr : Nat) (ws : List WireWord) (bad : Bool)
  /-- WRITE_ACK (R178). The writer receives acknowledgement that a remote write is visible. -/
  | writeAck (h : MsgHdr) (status : Nat)
  /-- ARRIVE (R423). A remote barrier arrival is checked against the access list and counted, held or refused. -/
  | arrive (h : MsgHdr) (p : PartId) (addr : Nat) (pid : Nat)
  /-- ARRIVE_ACK (R423). The arriving part learns that its arrival was counted. -/
  | arriveAck (h : MsgHdr) (status : Nat)
  /-- BARRIER_ARRIVAL (R423). The barrier unit counts or holds an arrival and completes rounds, releasing waiters and held arrivals. -/
  | barrierArrival
  /-- BARRIER_HOLD_TIMEOUT (R423). A held arrival outlasts its command's timeout, which ends with TIMEOUT, and the arrival is withdrawn. -/
  | barrierHoldTimeout (q : QueueId) (seq : BitVec 48)
  /-- DELTA (R592). An owner receives update entries and stages them once, or answers STAGE_FULL, REDIRECT, EPOCH_CLOSED or TABLE_UNAVAILABLE. -/
  | delta (h : MsgHdr) (es : List UpdEntry)
  /-- DELTA_ACK (R198). The sending part receives the staging outcome of a DELTA and completes, resends or fails its entries. -/
  | deltaAck (h : MsgHdr) (astatus : Nat) (holder : Nat)
  /-- STAGE_FULL_RESEND (R198). 1 µs after STAGE_FULL, the sender resends the entries. -/
  | stageFullResend
  /-- MIGRATE_COPY (R209). The copy target receives a migrating row slot as of the source's epoch. -/
  | migrateCopy (h : MsgHdr) (table : Nat) (bucket : Nat) (isRow : Bool) (row : Nat) (reply : ReplyEntry) (final : Bool)
  /-- MIGRATE_LOG (R209). The copy target receives a delta staged at the source for a copied row. -/
  | migrateLog (h : MsgHdr) (table : Nat) (bucket : Nat) (isRow : Bool) (row : Nat) (entry : UpdEntry)
  /-- MIGRATE_ACK (R209). The source receives the target's acknowledgement of a logged delta and acknowledges its own sender. -/
  | migrateAck (h : MsgHdr) (table : Nat) (bucket : Nat) (isRow : Bool) (row : Nat) (isLog : Bool) (again : Bool := false)
  /-- MIGRATION_READY (R209). The target reports every row copied and every logged epoch applied, and the migration becomes READY. -/
  | migrationReady (table : Nat) (isRow : Bool) (index : Nat)
  /-- FENCE_CLOSE (R189). A member assigns new entries to the next epoch and sends its unsent deltas, entering CLOSING. -/
  | fenceClose (epoch : Nat) (src : Nat)
  /-- CLOSE_CONDITION_MET (R189). All of a member's deltas for the epoch are staged and no old step runs, and it sends FENCE_CLOSED with its shard changes. -/
  | closeConditionMet
  /-- GRACE_EXPIRY (R189). GRACE elapses since FENCE_CLOSE, and the member closes although old steps still run. -/
  | graceExpiry
  /-- FENCE_CLOSED (R188). The leader collects a member's FENCE_CLOSED and sends FENCE_APPLY once all have closed. -/
  | fenceClosed (epoch : Nat) (src : Nat) (changes : List ShardChange)
  /-- FENCE_APPLY (R200). A member enters APPLYING and applies staged deltas, block switches and shard changes. -/
  | fenceApply (epoch : Nat) (src : Nat) (changes : List ShardChange)
  /-- FENCE_APPLY_DONE (R189). A member finishes applying, advances its local epoch, releases snapshots and staging, and sends FENCE_APPLIED. -/
  | fenceApplyDone
  /-- FENCE_APPLIED (R188). The leader collects FENCE_APPLIED and completes the fence when all members have answered. -/
  | fenceApplied (epoch : Nat) (src : Nat) (stats : FenceStats)
  /-- FENCE_LIMIT_EXPIRY (R192). A fence is not complete within LIMIT, and EPOCH_FENCE responds TIMEOUT while the fence continues. -/
  | fenceLimitExpiry
  /-- RETIER_BLOCK_PREPARED (R216). Every row of a re-tiering block has been requantised into a prepared slot. -/
  | retierBlockPrepared (pass : BitVec 32)
  /-- JOIN_REQ (R309). The leader checks a joining part and grants, defers or denies membership. -/
  | joinReq (poolId : Nat) (dx : Nat) (dy : Nat) (dz : Nat) (part : Fin 1024) (rings : Nat := 0)
  /-- JOIN_GRANT (R309). The joining part adopts the granted epoch and membership map, and POOL_JOIN responds. -/
  | joinGrant (epoch : Nat) (members : Nat)
  /-- JOIN_DENY (R309). The joining part ends POOL_JOIN with JOIN_REFUSED. -/
  | joinDeny (part : Fin 1024) (check : Nat)
  /-- JOIN_REQ_RESEND (R309). Every 100 µs while a grant is deferred, the joining part resends JOIN_REQ. -/
  | joinReqResend
  /-- MEMBER_UP (R309). A member adds a part to its membership map. -/
  | memberUp (part : Fin 1024)
  /-- MEMBER_DOWN (R311). A member removes a departed part, failing new accesses to it with PART_LEFT_POOL. -/
  | memberDown (part : Fin 1024)
  /-- DEPARTURE_TIMEOUT (R311). A part has not answered a fence phase within 10 ms, and the leader declares it departed. -/
  | departureTimeout (part : Fin 1024)
  /-- LINK_DOWN (R305). A member applies a fenced link to its routing, and the transmitting side reverses and resends the packets beyond LAST_SEQ. -/
  | linkDown (part : Fin 1024) (port : PortId) (cause : Nat) (lastSeq : Nat)
  /-- LINK_UP (R306). Members return to normal route choice for a retrained link. -/
  | linkUp (part : Fin 1024) (port : PortId) (cause : Nat := 0) (lastSeq : Nat := 0)
  /-- DROPPED (R307). A requester learns a packet was discarded and reissues it, or ends the command with LINK_FENCED. -/
  | dropped (uncertain : Bool) (route : BitVec 128) (kind : BitVec 8) (hdr : BitVec 120)
  /-- CTRL_RESEND (R307). Every 100 µs, an unanswered CTRL request is resent. -/
  | ctrlResend
  /-- FLIT_RECEIVE (R295). A flit is decoded and corrected, then accepted or discarded with NAK, and its ACK, credits and STOMP are applied. -/
  | flitReceive (p : PortId) (fl : Flit)
  /-- PACKET_FORWARD (R300). Once its first flit is in and credits cover its length, a packet is routed onward by dimension order, reversed, delivered or discarded. -/
  | packetForward (p : PortId) (vc : Fin 8)
  /-- TRAIN_LOCK (R292). All 16 lanes of a port gain signal and lock, and the port equalises. -/
  | trainLock (p : PortId)
  /-- EQUALISE_DONE (R292). Equalisation and deskew complete, and the port sends its identity block. -/
  | equaliseDone (p : PortId)
  /-- IDENTITY_BLOCK (R292). A neighbour's identity block arrives, and the port becomes ACTIVE or fences as MISCABLED. -/
  | identityBlock (p : PortId) (poolId : Nat) (part : Nat) (port : Nat) (dx : Nat) (dy : Nat) (dz : Nat) (rings : Nat) (peerFull : Bool) (fab : Image)
  /-- TRAIN_TIMEOUT (R292). Training has not reached IDENTIFY within 20 ms, and the port fences with TRAIN_FAILED. -/
  | trainTimeout (p : PortId)
  /-- LANE_LOST (R304). An ACTIVE port loses signal or lock on a lane and fences unplanned. -/
  | laneLost (p : PortId)
  /-- DEGRADED (R304). Corrected symbols stay above CE_LIMIT per second for 10 s, and the port fences. -/
  | degraded (p : PortId)
  /-- PORT_DRAIN_COMPLETE (R306). A draining port's queues empty and all flits are acknowledged, and the link stops. -/
  | portDrainComplete (p : PortId)
  /-- PORT_DRAIN_TIMEOUT (R306). A planned drain has not ended 30 µs after LINK_DOWN, and the port fences with cause REQUESTED. -/
  | portDrainTimeout (p : PortId)
  /-- LINK_DOWN_TIMEOUT (R305). LINK_DOWN has not reached T within 20 µs, and T discards its retry buffer with uncertain DROPPED notices. -/
  | linkDownTimeout (p : PortId)
  /-- ACL_DRAIN_TIMEOUT (R303). An access that passed under an old ACL entry is not performed within 30 µs and is discarded with PROTECTION. -/
  | aclDrainTimeout
  /-- FAULT_BATCH_FLUSH (R447). At 256 pending records or 20 µs after the first, fault records are written to the rings and the fault vector is raised. -/
  | faultBatchFlush
  /-- PRI_RESPONSE (R443). A PRI group response arrives and repeats the translation request or opens an ATS_FAILED fault. -/
  | priResponse (x : CtxId) (page : Nat) (grant : Option HostPage) (poisoned : List Nat := [])
  /-- ATS_INVALIDATE_REQUEST (R451). The host withdraws host translations, and the part drains transfers under them before completing. -/
  | atsInvalidateRequest (f : FnId) (pasid : Option (BitVec 20)) (va : Nat) (size : Nat)
  /-- XLT_DRAIN_TIMEOUT (R452). A translation drain exceeds 30 µs, and the holders are torn down with TRANSLATION_REVOKED. -/
  | xltDrainTimeout
  /-- CXL_MEM_READ (R530). A host reads a device-memory line coherently, poisoned lines returning CXL data poison. -/
  | cxlMemRead (hpa : Nat) (errs : Nat) (keep : Bool)
  /-- CXL_MEM_WRITE (R461). A host writes a device-memory line, which becomes KIND plain and clears poison on a full line. -/
  | cxlMemWrite (hpa : Nat) (bytes : List Byte) (mask : BitVec 64)
  /-- BACK_INVALIDATE_RESPONSE (R530). The host answers a back-invalidation snoop, and the part merges and makes its write visible. -/
  | backInvalidateResponse (line : Nat) (dirty : Option (List Byte))
  /-- HDM_DECODER_COMMIT (R529). The driver commits an HDM decoder range, which is refused if it overlaps the window backing or capture area. -/
  | hdmDecoderCommit (dec : Fin 2) (base : Nat) (size : Nat) (hpa : Nat)
  /-- SELVAGE_REREAD (R466). After a selvage mismatch, the block is read again, classed as transient or stored, and poisoned if stored. -/
  | selvageReread
  /-- PATROL_SCRUB (R468). The patrol scrubber reads a codeword, correcting or poisoning it and detecting a correction storm. -/
  | patrolScrub (cw : BitVec 32) (errs : Nat)
  /-- CAPTURE_DONE (R471). A quarantined core's failing descriptor and operands are copied to a capture slot. -/
  | captureDone (c : CoreId)
  /-- CLASSIFY_REPEAT_DONE (R472). The repeat on the quarantined core and a neighbour ends, classifying the fault as transient, permanent or unresolved. -/
  | classifyRepeatDone (c : CoreId) (again : Bool) (peerFails : Bool) (equal : Bool)
  /-- NEIGHBOUR_TIMEOUT (R472). No neighbour is found within 10 ms, and the quarantined core runs a full Vigil test instead. -/
  | neighbourTimeout (c : CoreId)
  /-- CORE_FENCED (R475). Within 30 µs of a fence decision, the core is stopped, its work abandoned or replayed, and it is removed from the available counts. -/
  | coreFenced (c : CoreId)
  /-- VIGIL_DUE (R480). A core's PERIOD after its last test elapses, and it becomes due. -/
  | vigilDue (c : CoreId)
  /-- VIGIL_TAKE (R481). Vigil takes a due core when it is idle, at a step boundary or at job end. -/
  | vigilTake (c : CoreId)
  /-- VIGIL_PHASE_DONE (R478). A pair finishes a test phase and compares digests, resolving differences with a third core. -/
  | vigilPhaseDone (c : CoreId) (digestA : BitVec 32) (digestB : BitVec 32) (digestC : BitVec 32)
  /-- VIGIL_TEST_ABANDONED (R479). A test exceeds four times its unpaced length, and it is abandoned and rescheduled. -/
  | vigilTestAbandoned (c : CoreId)
  /-- VIGIL_OVERDUE (R481). MAX_DEFERRAL passes since a core fell due, and the core becomes OVERDUE with shadow sampling. -/
  | vigilOverdue (c : CoreId)
  /-- SHADOW_COMPARE (R482). The shadow recomputation ends and is compared bit for bit, with a mismatch leading to classification. -/
  | shadowCompare (c : CoreId) (equal : Bool)
  /-- CPER_RECORD (R487). Firmware writes a CPER record to the on-device log and copies it to the CPER ring, raising the RAS vector. -/
  | cperRecord
  /-- MICROCODE_CORE_UPDATE (R554). A rollout takes a core, loads the new microcode and self-tests it, keeping it or reverting. -/
  | microcodeCoreUpdate (c : CoreId) (pass : Bool)
  /-- FAB_PORT_UPDATE (R556). A FAB image is applied to one port by a planned fence, load, retrain and LINK_UP. -/
  | fabPortUpdate (p : PortId)
  /-- CP_SWAP_POINT (R553). The standby CP thread is ready; the running thread hands off and the new image opens the mailboxes. -/
  | cpSwapPoint
  /-- CP_SWAP_TIMEOUT (R553). The new CP image has not opened the mailboxes within 25 µs, and the old thread resumes with UPDATE_FAILED. -/
  | cpSwapTimeout
  /-- RECAL_SLICE (R557). A channel group holds accesses for up to 4 µs while training one slice. -/
  | recalSlice (g : Fin 16)
  /-- POWER_SAMPLE (R501). Every microsecond the controller updates the window power, sets core duties and imposes or lifts a full stall. -/
  | powerSample (milliwatts : Nat) (activity : List Nat) (rails : List Nat := [])
  /-- INPUT_LOCKOUT (R499). V_IN falls below 36 V or exceeds 64 V, and the hot-swap controller opens the input. -/
  | inputLockout (millivolts : Nat)
  /-- EFFICIENCY_UPDATE (R498). Every 1 ms the efficiency estimate is recomputed from rail and input energy. -/
  | efficiencyUpdate (rail : Nat) (input : Nat) (rails : List Nat := [])
  /-- ENERGY_ATTRIBUTION (R514). Every 1 ms the input energy is divided among cores, clusters and pool service. -/
  | energyAttribution (cores : List Nat) (service : Nat) (input : Nat) (shares : Option EnergyShares := none)
  /-- TELEMETRY_FRAME (R497). A telemetry frame arrives and is used or discarded on CRC. -/
  | telemetryFrame (crcOk : Bool) (millivolts : Nat) (milliamps : Nat) (rails : Bool) (which : BitVec 5 := 31)
  /-- TELEMETRY_LOST (R497). No good frame for 100 µs, or no rail report for 5 µs, and the controller falls back to conservative values. -/
  | telemetryLost
  /-- DROOP (R505). A cluster's supply falls more than 6 %, and its clock is stretched. -/
  | droop (k : ClusterId)
  /-- THERMAL_READING (R510). Every 100 µs each cluster reads its sensors and applies refresh doubling, derating or limit actions. -/
  | thermalReading (k : ClusterId) (logic : Int) (dram : Int) (sensors : List Int := []) (layers : List Int := [])
  /-- THERMAL_TRIP (R513). A temperature stays over the trip level for 1 ms; a trip record is written, TRIP# asserts and the input opens. -/
  | thermalTrip (k : ClusterId)
  /-- PRESENT_OPEN (R587). The power connector's PRESENT pin opens, and the input opens as for a lock-out. -/
  | presentOpen
  /-- FE_IRQ_CAUSE_WRITE (R577). W1C write clearing interrupt cause bits. -/
  | feIrqCauseWrite (f : FnId) (v : BitVec 64)
  /-- FE_DEBUG_LOCK_WRITE (R578). Sets the lock that blocks debug-window writes, or is ignored once locked. -/
  | feDebugLockWrite (f : FnId) (v : BitVec 64)
  /-- XLT_FAULT_HEAD_WRITE (R574). Advances the consumed fault-record count, or is ignored with PROTECTION. -/
  | xltFaultHeadWrite (f : FnId) (v : BitVec 64)
  /-- RAS_CPER_HEAD_WRITE (R488). Advances the consumed CPER count, letting held records be copied, or is ignored with PROTECTION. -/
  | rasCperHeadWrite (f : FnId) (v : BitVec 64)
  /-- XLT_STAT_READ (R457). A read of XLT_STAT returns DROPPED_NOTICES and clears it. -/
  | xltStatRead (f : FnId) (half : Fin 3 := 0)
  /-- CDW_CVT_FLAGS_WRITE (R65). W1C write clearing conversion flags. -/
  | cdwCvtFlagsWrite (f : FnId) (c : CoreId) (v : BitVec 64)
  /-- CDW_GATHER_OOR_READ (R110). A read returns the skipped-index count and clears it through the physical function. -/
  | cdwGatherOorRead (f : FnId) (c : CoreId) (half : Fin 3 := 0)
  /-- CDW_MX_RESIDUE_READ (R256). A read returns the mismatch record and clears MISMATCHES through the physical function. -/
  | cdwMxResidueRead (f : FnId) (c : CoreId) (half : Fin 3 := 0)
  /-- CDW_MX_RESIDUE_WRITE (R256). Clearing VALID re-arms the residue mismatch record. -/
  | cdwMxResidueWrite (f : FnId) (c : CoreId) (v : BitVec 64)
  /-- CDW_SEQ_FAULT_WRITE (R344). Clearing VALID re-arms the sequencer fault record. -/
  | cdwSeqFaultWrite (f : FnId) (c : CoreId) (v : BitVec 64)
  /-- CDW_BOB_CTL_WRITE (R141). Sets Bobbin and prefetch controls, invalidating every tag when ENABLE goes from 1 to 0. -/
  | cdwBobCtlWrite (f : FnId) (k : ClusterId) (v : BitVec 64)
  /-- CDW_BOB_TAG_SEL_WRITE (R143). Selects a Bobbin set and way for inspection. -/
  | cdwBobTagSelWrite (f : FnId) (k : ClusterId) (v : BitVec 64)
  /-- CDW_BOB_TAG_LO_READ (R143). Latches the selected tag and returns its low half. -/
  | cdwBobTagLoRead (f : FnId) (k : ClusterId) (half : Fin 3 := 0)
  /-- CDW_EXU_CTL_WRITE (R183). Sets the reply timeout, batch size and batch age for new batches. -/
  | cdwExuCtlWrite (f : FnId) (k : ClusterId) (v : BitVec 64) (half : Fin 3 := 0)
  /-- CDW_SYNC_SEL_WRITE (R429). Selects a context's tally or pair in the function's own view. -/
  | cdwSyncSelWrite (f : FnId) (c : CoreId) (v : BitVec 64)
  /-- CDW_SYNC_VAL_READ (R429). Latches and returns the selected synchronisation object. -/
  | cdwSyncValRead (f : FnId) (c : CoreId) (half : Fin 3 := 0)
  /-- REGISTER_WRITE (R571). A write to a register or hole with no behaviour of its own sets an RW field or is ignored with a PROTECTION event. -/
  | registerWrite (f : FnId) (off : BitVec 25) (v : BitVec 64)
  /-- IDENTITY (R588). The management port returns identity, service status, serial and stepping. -/
  | mgmtIdentity
  /-- POWER (R588). The management port returns PWR_STAT. -/
  | mgmtPower
  /-- THERMAL (R588). The management port returns the THERMAL_QUERY response. -/
  | mgmtThermal
  /-- CPER_NEXT (R588). The management port returns the next CPER log record after its own pointer. -/
  | mgmtCperNext
  /-- CPER_RESET (R588). The management port resets its read pointer to the oldest record. -/
  | mgmtCperReset
  /-- GET_VERSION (R560). SPDM version exchange over DOE. -/
  | getVersion
  /-- GET_CAPABILITIES (R560). SPDM capability exchange. -/
  | getCapabilities (ver : BitVec 8)
  /-- NEGOTIATE_ALGORITHMS (R560). SPDM algorithm negotiation. -/
  | negotiateAlgorithms (ver : BitVec 8) (ed25519 : Bool) (sha512 : Bool)
  /-- GET_DIGESTS (R560). SPDM certificate chain digests. -/
  | getDigests
  /-- GET_CERTIFICATE (R560). SPDM retrieval of the slot 0 certificate chain. -/
  | getCertificate (slot : BitVec 4) (off : BitVec 16) (len : BitVec 16)
  /-- CHALLENGE (R560). SPDM challenge signed by the device identity key. -/
  | challenge (slot : BitVec 4) (nonce : BitVec 256)
  /-- GET_MEASUREMENTS (R561). SPDM measurement blocks of ROM, images, fuses and configuration. -/
  | getMeasurements (index : BitVec 8) (nonce : BitVec 256) (sign : Bool)
  /-- MB_DOORBELL_WRITE (R366). A write of a slot number to MB_DOORBELL hands a posted request to firmware, or is ignored with a PROTECTION event when the slot is not POSTED or the run passes slot 27. -/
  | mbDoorbellWrite (f : FnId) (slot : BitVec 5)
  /-- MSIX_UNMASK (R534). Unmasking a vector or enabling MSI-X sends the one message recorded in the PBA bit. -/
  | msixUnmask (f : FnId) (vector : Option (BitVec 11))
  /-- HOST_LINK_UP (R536). Host link training completes after power-up or a self-reset, and the front end returns to service with its CXL.mem and CXL.cache state as the link allows. -/
  | hostLinkUp (speed : Fin 8) (width : Fin 5) (flit : Bool) (busMaster : BitVec 17) (msixEnable : BitVec 17) (pages : List HostPage)
      (poisoned : List Nat := [])
  /-- PERST_RELEASE (R584). PERST# is released and the held part goes on from the 10 ms row of R542. -/
  | perstRelease
  /-- HELD_BATCH_DISCARD (R164). A lookup batch held for a later read epoch outlasts the serving unit's REPLY_TIMEOUT and is discarded without a reply, with a RAS event. -/
  | heldBatchDiscard (k : ClusterId)
  /-- DROOP_RECOVERY (R505). After at least 16 stretched cycles, the cluster's supply recovers to within 4 % of its setting and the cluster's clock returns to its present frequency. -/
  | droopRecovery (k : ClusterId)
  /-- POINT_VOLTAGE_REACHED (R506). A half's VCORE voltage reaches the level of a higher CCLK point, and that point takes effect. -/
  | pointVoltageReached (half : Fin 2)
  /-- HOT_SWAP_LATCH_RELEASE (R513). After a thermal trip, V_IN has stayed below 20 V for at least 1 s and the hot-swap controller stops holding the input open. -/
  | hotSwapLatchRelease
deriving DecidableEq, Repr

end Sys2Proof
end

