-- ==== Sys2Proof/Decode.lean ====
section
/-! DEFINITION. Decoding of opcode-table words. -/

namespace Sys2Proof

/-- The opcode table gives no row any bits, so no word spells a command (log entry 5). -/
def decodeTableWord (_nbits _w : Nat) : Option Instr := none

end Sys2Proof
end

