-- ==== Sys2Proof/Config.lean ====
section
/-! DEFINITION. What one implementation fixes and what the spec leaves open: constants with no body. -/

namespace Sys2Proof

/-- How far FEXP, FLOG, FTANH and FSIGM (0 to 3) lie from the correctly rounded result, in units in the last place,
as a fixed function of the input and the rounding mode (R271). Used clamped to -4..4 and as far as the bound of 2 units allows.
Log entry 7. -/
opaque Config.ulpOffset (op : Nat) (x : Nat) (tiesAway : Bool) : Int

/-- What a codeword with four or more symbol errors reads as (R461), by draw number and byte; bytes 64 to 66 are its metadata. Log
entry 15. -/
opaque Config.freeCodeword (draw : Nat) (byte : Nat) : Nat

/-- Whether a codeword with four or more symbol errors is miscorrected rather than detected. Log entry 15. -/
opaque Config.miscorrects (draw : Nat) : Bool

/-- What a byte of host memory that the part has not written reads as. Log entry 9. -/
opaque Config.hostByte (addr : Nat) : Nat

/-- The serial number of the part (R559). Log entry 14. -/
opaque Config.serial : Nat

/-- Bytes of the certificate chain of slot 0, and their number, for a part whose debug fuse is blown or not (R559, R560).
Log entry 14. -/
opaque Config.certByte (debug : Bool) (i : Nat) : Nat
opaque Config.certLength (debug : Bool) : Nat

/-- A digest of bytes (R559 to R561), by algorithm use. Log entry 14. -/
opaque Config.digest (use : Nat) (data : List Nat) : Nat

/-- Whether a signature of an image or a manifest verifies under one of the part's keys (R550). Log entry 14. -/
opaque Config.signatureOk (key : Nat) (data : List Nat) : Bool

/-- A signature made by the device identity key (R560). Log entry 14. -/
opaque Config.sign (data : List Nat) : Nat

/-- The set of 64 that a device translation cache entry takes (R440). Log entry 16. -/
opaque Config.deviceCacheSet (ctx : Nat) (page : Nat) : Nat

/-- Whether a migration's target has room, by draw number: no message tells A (R209, R219). Log entry 8. -/
opaque Config.targetRoom (draw : Nat) : Bool

/-- Bytes of staging that one remembered range of sequence values takes (R196, R199). Log entry 6. -/
opaque Config.rangeBytes : Nat

/-- Power in mW that a second-stage rail draws at its full current rating, of which the spec gives no figure (R497). Log entry 6. -/
opaque Config.railRating (rail : Nat) : Nat

/-- A value the spec leaves open, by kind and draw number. Log entry 6. -/
opaque Config.freeValue (kind : Nat) (draw : Nat) : Nat

end Sys2Proof
end

