-- ==== Sys2Proof/Machine/Flags.lean ====
section
/-! DEFINITION. Number formats, rounding and conversion flags (R39 to R71), and the arithmetic of the engines (R235 to R238,
R270, R271). Every rounding goes through `roundMag`. -/

namespace Sys2Proof

/-- The thirteen number formats of R39. -/
inductive Fmt where
  | fp32 | bf16 | fp16 | e4m3 | e5m2 | int32 | int16 | int8 | int4 | int2 | sx8 | sx4 | sx2
deriving DecidableEq, Repr

/-- The format of a 4-bit code; reserved codes have none (R39). -/
def fmtOfCode : Nat → Option Fmt
  | 0 => some .fp32
  | 1 => some .bf16
  | 2 => some .fp16
  | 3 => some .e4m3
  | 4 => some .e5m2
  | 5 => some .int32
  | 6 => some .int16
  | 7 => some .int8
  | 8 => some .int4
  | 9 => some .int2
  | 10 => some .sx8
  | 11 => some .sx4
  | 12 => some .sx2
  | _ => none

/-- The code of a format (R39). -/
def fmtCode : Fmt → Nat
  | .fp32 => 0
  | .bf16 => 1
  | .fp16 => 2
  | .e4m3 => 3
  | .e5m2 => 4
  | .int32 => 5
  | .int16 => 6
  | .int8 => 7
  | .int4 => 8
  | .int2 => 9
  | .sx8 => 10
  | .sx4 => 11
  | .sx2 => 12

/-- Element width in bits (R39). -/
def fmtWidth : Fmt → Nat
  | .fp32 => 32
  | .bf16 => 16
  | .fp16 => 16
  | .e4m3 => 8
  | .e5m2 => 8
  | .int32 => 32
  | .int16 => 16
  | .int8 => 8
  | .int4 => 4
  | .int2 => 2
  | .sx8 => 8
  | .sx4 => 4
  | .sx2 => 2

/-- The block-shift formats (R47). -/
def fmtIsSx (f : Fmt) : Bool := f = .sx8 || f = .sx4 || f = .sx2

/-- The integer formats (R45). -/
def fmtIsInt (f : Fmt) : Bool := f = .int32 || f = .int16 || f = .int8 || f = .int4 || f = .int2

/-- The floating-point formats (R42). -/
def fmtIsFloat (f : Fmt) : Bool := f = .fp32 || f = .bf16 || f = .fp16 || f = .e4m3 || f = .e5m2

/-- Formats allowed for vector engine loads and stores (R39). -/
def fmtVector (f : Fmt) : Bool := f ≠ .int2 && f ≠ .sx2

/-- Formats allowed as matrix operands (R39). -/
def fmtMatrix (f : Fmt) : Bool := f ≠ .int32 && f ≠ .int2 && f ≠ .sx2

/-- Formats allowed as table row storage (R39). -/
def fmtRow (f : Fmt) : Bool :=
  f = .bf16 || f = .int8 || f = .int4 || f = .int2 || f = .sx8 || f = .sx4 || f = .sx2

/-- Fields of a floating-point encoding (R42, R44): fraction bits, bias, largest finite code, canonical NaN, infinity. -/
structure FloatSpec where
  frac : Nat
  bias : Nat
  width : Nat
  maxCode : Nat
  nan : Nat
  hasInf : Bool
  infCode : Nat
deriving DecidableEq, Repr

/-- The floating-point encodings of R42; A21 in float mode has the same encoding rules with 12 fraction bits (R237). -/
def floatSpec : Fmt → FloatSpec
  | .bf16 => ⟨7, 127, 16, 0x7F7F, 0x7FC0, true, 0x7F80⟩
  | .fp16 => ⟨10, 15, 16, 0x7BFF, 0x7E00, true, 0x7C00⟩
  | .e4m3 => ⟨3, 7, 8, 0x7E, 0x7F, false, 0x7F⟩
  | .e5m2 => ⟨2, 15, 8, 0x7B, 0x7E, true, 0x7C⟩
  | _ => ⟨23, 127, 32, 0x7F7FFFFF, 0x7FC00000, true, 0x7F800000⟩

/-- A21 in float mode (R237). -/
def a21Spec : FloatSpec := ⟨12, 127, 21, 0xFEFFF, 0xFF800, true, 0xFF000⟩

/-- An exact value: NaN, an infinity, or sign, magnitude `m * 2^e`. -/
inductive FVal where
  | nan
  | inf (neg : Bool)
  | fin (neg : Bool) (m : Nat) (e : Int)
deriving DecidableEq, Repr

/-- The flags of R64, bits [6:1] of CDW_CVT_FLAGS. -/
abbrev CvtFlags := Nat

def flagSatInt : CvtFlags := 2
def flagSatFloat : CvtFlags := 4
def flagNanZeroed : CvtFlags := 8
def flagInfClamped : CvtFlags := 16
def flagUnderflowed : CvtFlags := 32
def flagShiftClamped : CvtFlags := 64

/-- An encoded float as an exact value (R42 to R44). -/
def floatDecode (sp : FloatSpec) (w : Nat) : FVal :=
  let w := w % 2 ^ sp.width
  let neg := w.testBit (sp.width - 1)
  let c := w % 2 ^ (sp.width - 1)
  if sp.hasInf && c = sp.infCode then .inf neg
  else if sp.maxCode < c then .nan
  else
    let ex := c >>> sp.frac
    let fr := c % 2 ^ sp.frac
    if ex = 0 then .fin neg fr (1 - (sp.bias : Int) - sp.frac)
    else .fin neg (fr + 2 ^ sp.frac) ((ex : Int) - sp.bias - sp.frac)

/-- The rounding decision of R63: kept value, round bit, sticky bit. -/
def roundUp (away : Bool) (kept : Nat) (rnd sticky : Bool) : Bool :=
  rnd && (sticky || away || kept.testBit 0)

/-- `m` without its low `sh` bits, rounded to nearest (R63); `sticky` says that the value lies above `m`. -/
def roundShift (away : Bool) (m sh : Nat) (sticky : Bool) : Nat :=
  match sh with
  | 0 => m
  | sh' + 1 =>
    let kept := m >>> sh
    let low := m % 2 ^ sh
    kept + b2n (roundUp away kept (low.testBit sh') (sticky || low % 2 ^ sh' ≠ 0))

/-- The magnitude code of `m * 2^e` rounded once into a float encoding with unbounded exponent (R53, R63). -/
def roundMag (sp : FloatSpec) (away : Bool) (m : Nat) (e : Int) (sticky : Bool) : Nat :=
  if m = 0 then 0
  else
    let qmin : Int := 1 - (sp.bias : Int) - sp.frac
    let q := max (e + (Nat.log2 m : Int) - sp.frac) qmin
    let k := if q ≤ e then m <<< (e - q).toNat else roundShift away m (q - e).toNat sticky
    (q - qmin).toNat * 2 ^ sp.frac + k

/-- The sign bit of an encoding. -/
def signBit (sp : FloatSpec) (neg : Bool) : Nat := if neg then 2 ^ (sp.width - 1) else 0

/-- A finite magnitude rounded once, saturating (R53): code, SAT_FLOAT and UNDERFLOWED. -/
def floatFinite (sp : FloatSpec) (away neg : Bool) (m : Nat) (e : Int) (sticky : Bool) : Nat × CvtFlags :=
  let c := roundMag sp away m e sticky
  if sp.maxCode < c then (sp.maxCode + signBit sp neg, flagSatFloat)
  else (c + signBit sp neg, if m ≠ 0 && c = 0 then flagUnderflowed else 0)

/-- A conversion into a floating-point format (R52, R53, R55). -/
def floatEncode (sp : FloatSpec) (away : Bool) : FVal → Nat × CvtFlags
  | .nan => (sp.nan, 0)
  | .inf neg =>
    if sp.hasInf then (sp.infCode + signBit sp neg, 0)
    else (sp.maxCode + signBit sp neg, flagInfClamped)
  | .fin neg m e => floatFinite sp away neg m e false

/-- The range limits of an integer of `w` bits (R45). -/
def intMax (w : Nat) : Int := (2 ^ (w - 1) : Nat) - 1
def intMin (w : Nat) : Int := -((2 ^ (w - 1) : Nat) : Int)

/-- Clamp to `w` bits, setting SAT_INT (R54). -/
def clampInt (w : Nat) (i : Int) : Nat × CvtFlags :=
  if i < intMin w then (unsign w (intMin w), flagSatInt)
  else if intMax w < i then (unsign w (intMax w), flagSatInt)
  else (unsign w i, 0)

/-- An exact magnitude rounded to an integer (R54). -/
def roundToNat (away : Bool) (m : Nat) (e : Int) : Nat :=
  if 0 ≤ e then m <<< e.toNat else roundShift away m (-e).toNat false

/-- A sign and a magnitude as an integer. -/
def withSign (neg : Bool) (n : Nat) : Int := if neg then -(n : Int) else n

/-- A conversion into an integer format of `w` bits (R54, R55). -/
def intEncode (w : Nat) (away : Bool) : FVal → Nat × CvtFlags
  | .nan => (0, flagNanZeroed)
  | .inf neg => (unsign w (if neg then intMin w else intMax w), flagInfClamped)
  | .fin neg m e => clampInt w (withSign neg (roundToNat away m e))

/-- An integer as an exact value. -/
def intVal (i : Int) : FVal := .fin (decide (i < 0)) i.natAbs 0

/-- The exact value of an element of a format; the shift counts for SX formats only (R47, R56). -/
def decodeElem (f : Fmt) (shift : Int) (w : Nat) : FVal :=
  if fmtIsFloat f then floatDecode (floatSpec f) w
  else
    let i := signed (fmtWidth f) w
    .fin (decide (i < 0)) i.natAbs (if fmtIsSx f then shift else 0)

/-- A conversion into a format that carries no block shift (R52 to R55). -/
def convert (f : Fmt) (away : Bool) (v : FVal) : Nat × CvtFlags :=
  if fmtIsFloat f then floatEncode (floatSpec f) away v else intEncode (fmtWidth f) away v

/-- FP32 bits as an exact value. -/
def f32 (w : Nat) : FVal := floatDecode (floatSpec .fp32) w

/-- The result of FP32 arithmetic: rounded once; UNDERFLOWED belongs to conversions alone (R238, R270). -/
def arith32 (away : Bool) (v : FVal) : Nat × CvtFlags :=
  let r := floatEncode (floatSpec .fp32) away v
  (r.1, r.2 &&& flagSatFloat)

/-! ### SX blocks (R47 to R51) -/

/-- The largest code of an SX format (R50). -/
def sxMax (f : Fmt) : Nat := 2 ^ (fmtWidth f - 1) - 1

/-- The shift a 6-bit field names (R49). -/
def shiftOfField (b : Nat) : Int := signed 6 b

/-- The 6-bit field of a shift (R49). -/
def fieldOfShift (s : Int) : Nat := unsign 6 s

/-- `m * 2^(e - s) < Cmax + 1/2` (R51 step 4). -/
def sxFits (cmax m : Nat) (e s : Int) : Bool :=
  let d := e - s + 1
  if 0 ≤ d then m <<< d.toNat < 2 * cmax + 1 else m < (2 * cmax + 1) <<< (-d).toNat

/-- The smallest shift from `s` on, with `n` tries left, under which the magnitude fits; +31 where none does (R51). -/
def sxSearch (cmax m : Nat) (e : Int) : Nat → Int → Int
  | 0, s => s
  | n + 1, s => if sxFits cmax m e s then s else sxSearch cmax m e n (s + 1)

/-- The shift one element needs on its own (R51): the block's is the largest over its elements. -/
def sxElemShift (cmax : Nat) : FVal → Option Int
  | .nan => none
  | .inf _ => some 31
  | .fin _ m e => if m = 0 then none else some (sxSearch cmax m e 63 (-32))

/-- The shift of a block (R51). -/
def sxShift (f : Fmt) (vs : List FVal) : Int :=
  (vs.filterMap (sxElemShift (sxMax f))).foldl (fun a s => match a with | none => some s | some b => some (max b s))
    (none : Option Int) |>.getD 0

/-- One code under a shift (R51 steps 5 and 6, R55). -/
def sxCode (f : Fmt) (away : Bool) (s : Int) : FVal → Nat × CvtFlags
  | .nan => (0, flagNanZeroed)
  | .inf neg => (unsign (fmtWidth f) (withSign neg (sxMax f)), flagInfClamped)
  | .fin neg m e =>
    let c := roundToNat away m (e - s)
    if sxMax f < c then (unsign (fmtWidth f) (withSign neg (sxMax f)), flagShiftClamped)
    else (unsign (fmtWidth f) (withSign neg c), 0)

/-- A block converted to SX: shift, codes and flags (R51, R55). -/
def sxBlock (f : Fmt) (away : Bool) (vs : List FVal) : Int × List Nat × CvtFlags :=
  let s := sxShift f vs
  let cs := vs.map (sxCode f away s)
  (s, cs.map (·.1), cs.foldl (fun a c => a ||| c.2) 0)

/-! ### Exact sums and products (R238, R270) -/

/-- Sum of two exact values. Opposite infinities give NaN (R238); an exact zero is +0 unless both terms are -0. -/
def fvAdd : FVal → FVal → FVal
  | .nan, _ => .nan
  | _, .nan => .nan
  | .inf a, .inf b => if a = b then .inf a else .nan
  | .inf a, .fin .. => .inf a
  | .fin .., .inf b => .inf b
  | .fin na ma ea, .fin nb mb eb =>
    let e := min ea eb
    let i := withSign na (ma <<< (ea - e).toNat) + withSign nb (mb <<< (eb - e).toNat)
    if i = 0 then .fin (na && nb) 0 e else .fin (decide (i < 0)) i.natAbs e

/-- Negation of an exact value. -/
def fvNeg : FVal → FVal
  | .nan => .nan
  | .inf a => .inf (!a)
  | .fin a m e => .fin (!a) m e

/-- Product of two exact values; infinity times zero gives NaN (R238). -/
def fvMul : FVal → FVal → FVal
  | .nan, _ => .nan
  | _, .nan => .nan
  | .inf a, .inf b => .inf (a ^^ b)
  | .inf a, .fin b m _ => if m = 0 then .nan else .inf (a ^^ b)
  | .fin a m _, .inf b => if m = 0 then .nan else .inf (a ^^ b)
  | .fin a ma ea, .fin b mb eb => .fin (a ^^ b) (ma * mb) (ea + eb)

/-- Whether an exact value is zero. -/
def fvIsZero : FVal → Bool
  | .fin _ m _ => m = 0
  | _ => false

/-- Whether an exact value is NaN. -/
def fvIsNan : FVal → Bool
  | .nan => true
  | _ => false

/-- Sign of a value; NaN counts as positive. -/
def fvNegative : FVal → Bool
  | .nan => false
  | .inf n => n
  | .fin n _ _ => n

/-- Magnitude of an exact value. -/
def fvAbs : FVal → FVal
  | .nan => .nan
  | .inf _ => .inf false
  | .fin _ m e => .fin false m e

/-- Strict order of values that are not NaN; -0 and +0 are equal. -/
def fvLt : FVal → FVal → Bool
  | .nan, _ => false
  | _, .nan => false
  | .inf a, .inf b => a && !b
  | .inf a, .fin .. => a
  | .fin .., .inf b => !b
  | .fin na ma ea, .fin nb mb eb =>
    let e := min ea eb
    decide (withSign na (ma <<< (ea - e).toNat) < withSign nb (mb <<< (eb - e).toNat))

/-- Equality of values that are not NaN; -0 and +0 are equal. -/
def fvEq (a b : FVal) : Bool := !fvIsNan a && !fvIsNan b && !fvLt a b && !fvLt b a

/-- The canonical FP32 NaN (R44). -/
def nan32 : Nat := 0x7FC00000

/-- The greater of two FP32 patterns: NaN if either is NaN, +0 above -0 (R106, R270). -/
def fmax32 (a b : Nat) : Nat :=
  let x := f32 a
  let y := f32 b
  if fvIsNan x || fvIsNan y then nan32
  else if fvLt x y || (fvEq x y && fvNegative x) then b else a

/-- The lesser of two FP32 patterns (R270). -/
def fmin32 (a b : Nat) : Nat :=
  let x := f32 a
  let y := f32 b
  if fvIsNan x || fvIsNan y then nan32
  else if fvLt y x || (fvEq x y && fvNegative y) then b else a

/-- FP32 sum of two patterns, rounded once. -/
def fadd32 (away : Bool) (a b : Nat) : Nat × CvtFlags := arith32 away (fvAdd (f32 a) (f32 b))

/-- FP32 product of two patterns, rounded once. -/
def fmul32 (away : Bool) (a b : Nat) : Nat × CvtFlags := arith32 away (fvMul (f32 a) (f32 b))

/-- FP32 fused multiply-add, one rounding. -/
def ffma32 (away : Bool) (a b c : Nat) : Nat × CvtFlags := arith32 away (fvAdd (fvMul (f32 a) (f32 b)) (f32 c))

/-- The largest finite FP32 value with a sign, with SAT_FLOAT (R270). -/
def sat32 (neg : Bool) : Nat × CvtFlags := (0x7F7FFFFF + signBit (floatSpec .fp32) neg, flagSatFloat)

/-- FP32 zero with a sign. -/
def zero32 (neg : Bool) : Nat := signBit (floatSpec .fp32) neg

/-- A quotient or root with a sticky remainder, rounded once into FP32. -/
def finite32 (away neg : Bool) (m : Nat) (e : Int) (sticky : Bool) : Nat × CvtFlags :=
  let r := floatFinite (floatSpec .fp32) away neg m e sticky
  (r.1, r.2 &&& flagSatFloat)

/-- FDIV (R270, R271): the quotient is formed with 64 extra bits and a sticky remainder. -/
def fdiv32 (away : Bool) (a b : Nat) : Nat × CvtFlags :=
  match f32 a, f32 b with
  | .nan, _ => (nan32, 0)
  | _, .nan => (nan32, 0)
  | .inf _, .inf _ => (nan32, 0)
  | .inf x, .fin y _ _ => (0x7F800000 + zero32 (x ^^ y), 0)
  | .fin x _ _, .inf y => (zero32 (x ^^ y), 0)
  | .fin x mx ex, .fin y my ey =>
    if my = 0 then (if mx = 0 then (nan32, 0) else sat32 (x ^^ y))
    else
      let n := mx <<< 64
      finite32 away (x ^^ y) (n / my) (ex - ey - 64) (n % my ≠ 0)

/-- Integer square root, deciding `n` more bits below the root `r` found so far. -/
def isqrtFrom (x : Nat) : Nat → Nat → Nat
  | 0, r => r
  | n + 1, r => let t := r + 2 ^ n; isqrtFrom x n (if t * t ≤ x then t else r)

/-- Integer square root. -/
def isqrt (x : Nat) : Nat := isqrtFrom x (Nat.log2 x / 2 + 1) 0

/-- A magnitude with an even exponent. -/
def evenExp (m : Nat) (e : Int) : Nat × Int := if e % 2 = 0 then (m, e) else (2 * m, e - 1)

/-- FSQRT (R270, R271). -/
def fsqrt32 (away : Bool) (a : Nat) : Nat × CvtFlags :=
  match f32 a with
  | .nan => (nan32, 0)
  | .inf neg => if neg then (nan32, 0) else (0x7F800000, 0)
  | .fin neg m e =>
    if m = 0 then (zero32 neg, 0)
    else if neg then (nan32, 0)
    else
      let (m, e) := evenExp m e
      let x := m <<< 64
      let r := isqrt x
      finite32 away false r (e / 2 - 32) (r * r ≠ x)

/-- FRSQRT (R270, R271). -/
def frsqrt32 (away : Bool) (a : Nat) : Nat × CvtFlags :=
  match f32 a with
  | .nan => (nan32, 0)
  | .inf neg => if neg then (nan32, 0) else (0, 0)
  | .fin neg m e =>
    if m = 0 then sat32 neg
    else if neg then (nan32, 0)
    else
      let (m, e) := evenExp m e
      let r := isqrt (2 ^ 128 / m)
      finite32 away false r (-(e / 2) - 64) (r * r * m ≠ 2 ^ 128)

/-! ### Transcendental instructions (R271): a fixed-point value close to the exact result, then a free offset -/

/-- Fraction bits of the fixed-point work. -/
def fixBits : Nat := 320

/-- ln 2 with 320 fraction bits. -/
def ln2Fix : Nat :=
  1480553391661173448385607439722553250922680800745876974795605978609098082859138712941075737848984

/-- Terms of e^r for fixed-point r in 0..1, from term `k` on. -/
def expTerms (r : Nat) : Nat → Nat → Nat → Nat
  | 0, _, _ => 0
  | n + 1, k, t => t + expTerms r n (k + 1) (t * r / 2 ^ fixBits / (k + 1))

/-- e to the value `withSign neg m * 2^e`, as a fixed-point mantissa and an exponent; arguments beyond 2^10 are clamped there. -/
def expFix (neg : Bool) (m : Nat) (e : Int) : Nat × Int :=
  let mag := if 0 ≤ e + (Nat.log2 m : Int) - 10 && m ≠ 0 then 2 ^ (fixBits + 10)
    else if 0 ≤ e + fixBits then m <<< (e + fixBits).toNat else m >>> (-(e + fixBits)).toNat
  let v := withSign neg mag
  let n := v / (ln2Fix : Int)
  let r := (v - n * (ln2Fix : Int)).toNat
  (expTerms r 80 0 (2 ^ fixBits), n)

/-- Terms of 2 * atanh(z), z fixed-point, from odd power `k` on. -/
def atanhTerms (z2 : Nat) : Nat → Nat → Nat → Nat
  | 0, _, _ => 0
  | n + 1, k, p => 2 * p / k + atanhTerms z2 n (k + 2) (p * z2 / 2 ^ fixBits)

/-- ln of the positive value `m * 2^e` in fixed point. -/
def lnFix (m : Nat) (e : Int) : Int :=
  let l := Nat.log2 m
  let one := 2 ^ l
  let z := ((m - one) <<< fixBits) / (m + one)
  (e + l) * (ln2Fix : Int) + atanhTerms (z * z / 2 ^ fixBits) 110 1 z

/-- Order of FP32 patterns as integers, so that one unit in the last place is one. -/
def ordOf32 (w : Nat) : Int := withSign (w.testBit 31) (w % 2 ^ 31)

/-- The pattern of an ordinal, within the finite values. -/
def of32Ord (neg : Bool) (i : Int) : Nat :=
  let i := max (-0x7F7FFFFF) (min 0x7F7FFFFF i)
  if i = 0 then zero32 neg else if i < 0 then 2 ^ 31 + i.natAbs else i.natAbs

/-- A pattern lies within 2 units in the last place of the exact value `withSign neg m * 2^e` (R271). -/
def ulpWithin (neg : Bool) (m : Nat) (e : Int) (w : Nat) : Bool :=
  let q := max (e + (Nat.log2 m : Int) - 23) (-149) + 1
  match fvAdd (f32 w) (.fin (!neg) m e) with
  | .fin _ d x => if x ≤ q then d ≤ 2 ^ (q - x).toNat else d <<< (x - q).toNat ≤ 1
  | _ => false

/-- The result of R271 for an exact value: rounded once, then moved by the free offset as far as the bound of 2 units in the last place
allows; a result that saturates is the largest finite value (R270). Log entry 7. -/
def ulpShift (op x : Nat) (away neg : Bool) (m : Nat) (e : Int) (sticky : Bool) : Nat × CvtFlags :=
  let r := finite32 away neg m e sticky
  let d := max (-4) (min 4 (Config.ulpOffset op x away))
  let offsets := (List.range (d.natAbs + 1)).map (fun (i : Nat) => if d < 0 then d + i else d - i)
  if r.2 ≠ 0 then r
  else (((offsets.map (fun o => of32Ord neg (ordOf32 r.1 + o))).find? (ulpWithin neg m e)).getD r.1, r.2)

/-- FEXP (R270, R271). -/
def fexp32 (away : Bool) (a : Nat) : Nat × CvtFlags :=
  match f32 a with
  | .nan => (nan32, 0)
  | .inf neg => (if neg then 0 else 0x7F800000, 0)
  | .fin neg m e =>
    if m = 0 then (0x3F800000, 0)
    else
      let r := expFix neg m e
      ulpShift 0 a away false r.1 (r.2 - fixBits) true

/-- FLOG (R270, R271). -/
def flog32 (away : Bool) (a : Nat) : Nat × CvtFlags :=
  match f32 a with
  | .nan => (nan32, 0)
  | .inf neg => if neg then (nan32, 0) else (0x7F800000, 0)
  | .fin neg m e =>
    if m = 0 then sat32 true
    else if neg then (nan32, 0)
    else
      let v := lnFix m e
      if v = 0 then (0, 0)
      else ulpShift 1 a away (decide (v < 0)) v.natAbs (-(fixBits : Int)) true

/-- FTANH (R271); below 2^-40 in magnitude the exact result lies short of the argument by less than 2^-80 of it. A quotient that comes out as
1 in fixed point stands for a result just below 1. -/
def ftanh32 (away : Bool) (a : Nat) : Nat × CvtFlags :=
  match f32 a with
  | .nan => (nan32, 0)
  | .inf neg => (0x3F800000 + zero32 neg, 0)
  | .fin neg m e =>
    if m = 0 then (zero32 neg, 0)
    else if e + (Nat.log2 m : Int) < -40 then ulpShift 2 a away neg ((m <<< 60) - 1) (e - 60) true
    else
      let (x, n) := expFix true (2 * m) e
      let y := if 0 ≤ n then x <<< n.toNat else x >>> (-n).toNat
      let one := 2 ^ fixBits
      ulpShift 2 a away neg (min (one - 1) (((one - y) <<< fixBits) / (one + y))) (-(fixBits : Int)) true

/-- FSIGM (R271). A quotient that comes out as 1 in fixed point stands for a result just below 1. -/
def fsigm32 (away : Bool) (a : Nat) : Nat × CvtFlags :=
  match f32 a with
  | .nan => (nan32, 0)
  | .inf neg => (if neg then 0 else 0x3F800000, 0)
  | .fin neg m e =>
    if m = 0 then (0x3F000000, 0)
    else
      let (x, n) := expFix true m e
      let y := if 0 ≤ n then x <<< n.toNat else x >>> (-n).toNat
      let one := 2 ^ fixBits
      if neg then
        ulpShift 3 a away false ((x <<< fixBits) / (one + y)) (n - fixBits) true
      else ulpShift 3 a away false (min (one - 1) ((one <<< fixBits) / (one + y))) (-(fixBits : Int)) true

/-! ### CRC-32C (R463): reflected polynomial 0x82F63B78 -/

/-- One bit of a reflected CRC-32C. -/
def crcBit (c : Nat) : Nat := if c.testBit 0 then (c >>> 1) ^^^ 0x82F63B78 else c >>> 1

/-- One byte of a CRC-32C. -/
def crcByte (c : Nat) (b : Byte) : Nat :=
  crcBit (crcBit (crcBit (crcBit (crcBit (crcBit (crcBit (crcBit (c ^^^ b.toNat))))))))

/-- The CRC-32C of bytes: initial and final value all ones (check value 0xE3069283 for "123456789"). -/
def crc32c (bs : List Byte) : Nat := bs.foldl crcByte 0xFFFFFFFF ^^^ 0xFFFFFFFF

end Sys2Proof
end

