-- ==== Sys2Proof/Machine/TQueue.lean ====
section
/-! DEFINITION. State types: commands, queues, mailboxes and the Almanac (R346 to R378), contexts and partitions (R381 to R407). -/

namespace Sys2Proof.Machine

open Sys2Proof

/-- How far an accepted command has come (R354, R356). -/
inductive CmdPhase where
  /-- Accepted, not begun. -/
  | waiting
  /-- Begun. -/
  | running
  /-- Ended with a status; its records are not yet written. -/
  | ended
deriving DecidableEq, Repr

/-- An ENQ reservation of one rank (R340). -/
structure EnqRes where
  queue : Nat
  slot : Nat
  entry : List Byte
  rank : Nat
  filled : Bool
  /-- The slot of the target queue's ring that it holds (R340; log entry 33). -/
  ringSlot : Nat := 0
deriving DecidableEq, Repr

/-- An accepted command (R350, R356). Its key is queue * 2^48 + sequence. -/
structure Cmd where
  queue : Nat
  seq : Nat
  ctx : Nat
  part : Nat
  kind : Nat
  entry : List Byte
  accepted : Nat
  enq : Bool := false
  depth : Nat := 0
  parent : Nat := 0
  phase : CmdPhase := .waiting
  status : Nat := 0
  /-- When the command became its queue's head, extended by the time it waited only for hold room (R357, R360). -/
  headAt : Option Nat := none
  /-- Since when the head has waited only for room in the hold (R357). -/
  roomSince : Option Nat := none
  epoch : Nat := 0
  epochLast : Nat := 0
  ties : Bool := false
  cores : List Nat := []
  /-- The cores of the partition at admission, within which the command stays (R31). -/
  admitted : Nat := 0
  endedCores : Nat := 0
  replayed : Bool := false
  /-- Status that called for the replay (R26, R340). -/
  cause : Nat := 0
  /-- A replay is due (R26). -/
  replayDue : Bool := false
  /-- Cores not to be used by the replay. -/
  badCores : Nat := 0
  redirects : Nat := 0
  paced : Nat := 0
  /-- Time lost to bubbles, stretching and lower points by core, in ps (R508). -/
  loss : KMap Nat := []
  cvt : Nat := 0
  energy : Nat := 0
  detail : Nat := 0
  noValues : Bool := false
  /-- It ended in a self-reset or an FLR, so its COMPLETED record goes to the Almanac only (R536). -/
  almOnly : Bool := false
  drained : Bool := false
  /-- Draining since a time, under R360. -/
  draining : Option Nat := none
  saturated : Bool := false
  startedAt : Nat := 0
  doneAt : Nat := 0
  enqs : List EnqRes := []
  suspended : Bool := false
  /-- Its fences on queues that were destroyed while it waited: whether the named command had completed other than OK (R353). -/
  fencesGone : KMap Bool := []
  /-- Pool pages of the batch protected while the step runs (R21). -/
  protFirst : Nat := 0
  protCount : Nat := 0
  /-- Tables that its GATHERs have named (R84). -/
  tables : List Nat := []
  /-- An UPDATE's entries have been accepted; those still to be answered; failures: bit 0 lost, 1 table, 2 epoch, 3 redirect,
  4 skipped (R194 to R198, R593). -/
  updSent : Bool := false
  updLeft : Nat := 0
  updFail : Nat := 0
deriving DecidableEq, Repr

/-- A completion record held for its ring (R356 to R358). -/
structure HeldRec where
  seq : Nat
  bytes : List Byte
  irq : Bool
deriving DecidableEq, Repr

/-- A submission queue (R346, R359). -/
structure SQueue where
  /-- 0 ABSENT, 1 ACTIVE, 2 BLOCKED, 3 DEAD (R377). -/
  state : Nat := 0
  fn : Nat := 0
  ctx : Nat := 0
  sqOff : Nat := 0
  sqLog2 : Nat := 6
  cqAddr : Nat := 0
  cqLog2 : Nat := 6
  kill : Bool := false
  timeout : Nat := 0
  vector : Nat := 0
  /-- COMMIT count last accepted (R347). -/
  commit : Nat := 0
  /-- The 48-bit sequence counter (R346). -/
  seq : Nat := 0
  /-- DONE of R352. -/
  done : Nat := 0
  /-- Results of completed commands above DONE, and of every completed command for REQUIRE_OK (R353). -/
  results : KMap Nat := []
  /-- Records written in order: sequence of the last, records in this ring, and the consumed count. -/
  written : Nat := 0
  ringCount : Nat := 0
  head : Nat := 0
  /-- Records of completed commands waiting for an earlier record or for the ring. -/
  held : List HeldRec := []
  blockedEver : Bool := false
  /-- ENQ reservations not yet committed, and those made since creation (R340). -/
  reserved : Nat := 0
  enqs : Nat := 0
  /-- QUEUE_DESTROY accepted: function and slot that wait (R359). -/
  closing : Option (Nat × Nat) := none
  abandon : Bool := false
deriving DecidableEq, Repr

/-- An asynchronous operation (R365, R371). -/
structure AsyncOp where
  opId : Nat
  opcode : Nat
  tag : Nat
  irq : Bool
  /-- Partition the operation concerns, or none. -/
  part : Option Nat
  done : Bool := false
  /-- The work has ended and the response is ready to be posted. -/
  ready : Bool := false
  status : Nat := 0
  resp : List Byte := []
deriving DecidableEq, Repr

/-- A notice (R371). -/
structure Notice where
  opcode : Nat
  tag : Nat
  status : Nat
  payload : List Byte
  /-- Firmware was down when it was to be posted, so that its interrupt is still due (R358). -/
  due : Bool := false
deriving DecidableEq, Repr

/-- An express channel binding (R368, R377). -/
structure Channel where
  ctx : Nat
  rank : Nat
  cells : Nat
  deliver : Nat
  free : Nat
  scratch : Nat
  timeoutUs : Nat
  count : Nat
deriving DecidableEq, Repr

/-- An MSI-X table entry (R533). -/
structure MsixEntry where
  addr : Nat := 0
  data : Nat := 0
  masked : Bool := true
deriving DecidableEq, Repr

/-- One PCI function's interface (R362 to R371, R429, R533, R577). -/
structure Fn where
  /-- The MB block: control slots from 0x0, express slots from 0x1000. -/
  mb : KMap Byte := []
  /-- First slots of the requests that firmware has taken and not answered: only their byte 8 is a STATE in RUNNING (R363, R364). -/
  taken : List Nat := []
  /-- Slots whose doorbell rang while firmware was down, in order (R364, R548, R553). -/
  rung : List Nat := []
  noticeNext : Nat := 0
  noticeHold : List Notice := []
  nextOp : Nat := 1
  ops : List AsyncOp := []
  expBusy : Nat := 0
  expResult : Nat := 0
  expTime : KMap Nat := []
  chans : KMap Channel := []
  msixTable : KMap MsixEntry := []
  pba : Nat := 0
  msixEnable : Bool := false
  busMaster : Bool := false
  irqCause : Nat := 0
  /-- CDW_SYNC_SEL per core and the latch of R429: VAL, WAIT, TARGET. -/
  syncSel : KMap Nat := []
  syncLatch : KMap (Nat × Nat × Nat) := []
  /-- CDW_BOB_TAG_SEL per slice and the latched tag (R143). -/
  bobSel : KMap Nat := []
  bobLatch : KMap Nat := []
deriving DecidableEq, Repr

/-- A partition's Almanac (R372 to R378). -/
structure Almanac where
  placed : Bool := false
  base : Nat := 0
  /-- Offset in device memory of each 32 MiB piece of the ring, which lies in leaves of its own (R377). -/
  pages : List Nat := []
  log2 : Nat := 0
  writeSeq : Nat := 1
  oldest : Nat := 1
  ack : Nat := 0
  wrapped : Nat := 0
  pfRecords : Bool := false
  /-- Wrap number of the last ALMANAC_WRAP notice. -/
  wrapNoted : Nat := 0
deriving DecidableEq, Repr

/-- One partition: masks, turn, split (R170, R381, R383, R393, R480, R501). -/
structure Partition where
  mask : Nat := 0
  target : Nat := 0
  turn : Option Nat := none
  /-- The holder of the turn that was torn down: the next one is the next above it (R393). -/
  turnLast : Option Nat := none
  turnAt : Nat := 0
  /-- What the turn's ended commands were charged, in core ticks (R393). -/
  charge : Nat := 0
  splitRead : Nat := 70
  splitWrite : Nat := 10
  splitRemote : Nat := 20
  /-- SERVICE_SHARE as it bounds the partition's shares (R170, R173). -/
  service : Nat := 25
  /-- The cores that the partition's shares count, and a split that waits for the next step boundary with the SPLIT_SETs to be
  answered: function and slot (R173, R181, R384). -/
  shareMask : Nat := 0
  nextSplit : Option (Nat × Nat × Nat) := none
  splitOps : List (Nat × Nat) := []
  weight : Nat := 8
  /-- Times of the last POWER_PACED and THERMAL_DERATED records that went to the partition (R504, R512). -/
  lastPaced : Option Nat := none
  lastDerated : Option Nat := none
  alm : Almanac := {}
deriving DecidableEq, Repr

/-- A tally (R411, R430). -/
structure Tally where
  value : Nat := 0
  sat : Bool := false
  src : Nat := 0
deriving DecidableEq, Repr

/-- A semaphore pair (R415, R417, R430). -/
structure Pair where
  prod : Nat := 0
  cons : Nat := 0
  sat : Bool := false
  held : Nat := 0
  prodSrc : Nat := 0
  consSrc : Nat := 0
deriving DecidableEq, Repr

/-- Saved synchronisation and sequencer state of one rank or core (R396, R400, R427): what the 64 KiB of the save area after the windows
hold, whose layout the spec does not give (log entry 30). The windows lie in the save area's bytes. -/
structure SavedCore where
  pc : Nat := 0
  regs : List Nat := []
  buf0 : List Byte := []
  buf1 : List Byte := []
  valid0 : Bool := false
  valid1 : Bool := false
  enqs : Nat := 0
  cvt : Nat := 0
  tallies : KMap Tally := []
  pairs : KMap Pair := []
  ended : Bool := false
  /-- The rank has read a flagged word (R465); FETCHes that a suspension found in flight, by buffer (R331). -/
  sawTies : Bool := false
  fetch : KMap (Nat × Nat) := []
deriving DecidableEq, Repr

/-- A context (R385, R389, R405). -/
structure Ctx where
  /-- PHASE of R389. -/
  phase : Nat := 0
  part : Nat := 0
  job : Bool := false
  window : Nat := 1
  sliceUs : Nat := 50
  nextSlice : Option Nat := none
  ptRoot : Nat := 0
  saveAddr : Nat := 0
  place : Nat := 0
  placeGen : Nat := 0
  running : Nat := 0
  since : Nat := 0
  resident : Bool := false
  /-- The 32 KiB units of the window, in window order (R386). -/
  units : List Nat := []
  readySince : Nat := 0
  energy : Nat := 0
  /-- Paced time of its completed commands: what the scheduler adds into its admission estimates (R32, R508; log entry 33). -/
  paced : Nat := 0
  /-- Saved state by core (swap) or by rank (suspension). -/
  saved : KMap SavedCore := []
  /-- CONTEXT_SUSPEND or CONTEXT_DESTROY in progress: function and OP_ID. -/
  op : Option (Nat × Nat) := none
  suspending : Bool := false
  resuming : Bool := false
  /-- Status that a teardown gives the running commands. -/
  tearStatus : Nat := 0
deriving DecidableEq, Repr

end Sys2Proof.Machine
end

