-- ==== Sys2Proof/Machine/TCore.lean ====
section
/-! DEFINITION. State types of one core: sequencer (R323, R343), engine queues (R328), gather engine (R100 to R110), matrix array
(R221 to R257), vector engine (R258 to R288), sync unit (R408 to R419) and scratch (R386, R465). -/

namespace Sys2Proof.Machine

open Sys2Proof

/-- A descriptor in an engine queue (R328): its 64 bytes, its stream records and where it came from. For the built-in ring
program of a GATHER, `ring` holds and `gid` is the gather's number. `begun`: a matrix operation whose own range has streamed
(R233). `phase`: how far it is (R252, R253): 1 own range done, 2 exported, 3 its arrival sent, 4 its arrival counted. -/
structure QDesc where
  bytes : List Byte
  streams : List (Nat × List Byte) := []
  slot : Nat := 0
  ring : Bool := false
  gid : Nat := 0
  begun : Bool := false
  phase : Nat := 0
deriving DecidableEq, Repr

/-- The core sequencer (R323, R343). -/
structure Sequencer where
  active : Bool := false
  ended : Bool := false
  pc : Nat := 0
  /-- g1 to g15 by number; g0 is not held (R323). -/
  regs : KMap Nat := []
  buf0 : List Byte := []
  buf1 : List Byte := []
  valid0 : Bool := false
  valid1 : Bool := false
  /-- FETCHes in flight by buffer: virtual address of the batch, and PC of the FETCH (R331). -/
  fetch : KMap (Nat × Nat) := []
  /-- WAIT and WAIT_ID of R343, and the target of a TWAIT (R429). -/
  wait : Nat := 0
  waitId : Nat := 0
  target : Nat := 0
  /-- ENQs made by this core in this command (R339). -/
  enqs : Nat := 0
  /-- The instruction buffer: 64-bit words (R320). -/
  code : List Nat := []
  /-- Virtual address of the descriptor table and its batches (R317). -/
  descVa : Nat := 0
  descCount : Nat := 0
  capLevel : Nat := 0
  /-- Reservation number for a replay's ENQs (R340). -/
  enqNext : Nat := 0
  /-- The core's barrier arrival has been sent and is not yet counted (R423). -/
  arrHeld : Bool := false
deriving DecidableEq, Repr

/-- A ring entry (R101 to R105); its row and sideband lie in scratch. -/
structure RingEntry where
  start : Bool := false
  skip : Bool := false
  empty : Bool := false
  ready : Bool := false
  poison : Bool := false
  row : Nat := 0
  /-- Redirections so far (R166). -/
  hops : Nat := 0
  /-- Waiting on: 0 nothing, 1 a local transfer of its own, 2 an exchange entry, 3 another lookup's miss. -/
  source : Nat := 0
deriving DecidableEq, Repr

/-- A gather in progress (R100 to R107), from its issue on. -/
structure GatherRun where
  gid : Nat
  desc : List Byte
  /-- Read epoch of its lookups (R22, R190). -/
  epoch : Nat := 0
  /-- Next index position, the bag it belongs to, that bag's end once its offset is read, and whether the bag has an entry. -/
  pos : Nat := 0
  bag : Nat := 0
  bagEnd : Option Nat := none
  opened : Bool := false
  done : Bool := false
  /-- Entries reserved and not released, oldest first; the number of the first; entries handed to the vector engine. -/
  entries : List RingEntry := []
  first : Nat := 0
  handed : Nat := 0
  /-- Pooling: one carry per element, the carry of weights or counts, and the ordinal of the present bag (R106, R279). -/
  carry : List (Option Nat) := []
  wsum : Option Nat := none
  outBag : Nat := 0
  /-- The batch key that the exchange unit refused to the next index (R101, R157): owner, partition, read epoch, redirected. -/
  stall : Option (Nat × Nat × Nat × Bool) := none
deriving DecidableEq, Repr

/-- One accumulator slot (R223): 0 EMPTY, 1 INT32, 2 FP32; elements by 64 * row + column. -/
structure AccSlot where
  kind : Nat := 0
  data : KMap Nat := []
deriving DecidableEq, Repr

/-- The matrix array (R221, R255, R256). -/
structure MatrixArray where
  slots : KMap AccSlot := []
  held : Nat := 0
  /-- The plane last loaded into the stationary register, by 64 * k + column (R221, R231). -/
  stationary : List Nat := []
  /-- The A21 accumulators: cleared at the end of each promotion group (R232). -/
  a21 : KMap Nat := []
  residue : Nat := 0
deriving DecidableEq, Repr

/-- The state an element program works on (R260, R268, R272). -/
structure VxState where
  v : List Nat := [0, 0, 0, 0, 0, 0, 0, 0]
  p : List Nat := [0, 0, 0, 0, 0, 0, 0, 0]
  s : List Nat := [0, 0, 0, 0, 0, 0]
  idx : Nat := 0
  row : Nat := 0
  col : Nat := 0
  weight : Nat := 0
  start : Bool := false
  contrib : Bool := false
  /-- Scan carries, keyed scan * 4096 + column; absent is empty. -/
  carry : KMap Nat := []
  /-- Scan instructions run so far for this element. -/
  scan : Nat := 0
  /-- Values stored to D0 and D1, keyed by element * 2^48 + row * 4096 + column: bits, and whether they are INT32. -/
  d0 : KMap (Nat × Bool) := []
  d1 : KMap (Nat × Bool) := []
  /-- Whether the element ends the segment of the next SEGEND store, and that segment's ordinal (R274). -/
  segEnd : Bool := false
  segOrd : Nat := 0
  flags : Nat := 0
  ties : Bool := false
  /-- Elements for which the instructions after the last scan have run (R275). -/
  tails : Nat := 0
deriving DecidableEq, Repr

/-- The vector engine (R258, R287). -/
structure VectorEngine where
  /-- Element state; cleared when no program runs (R286). -/
  elem : VxState := {}
  /-- The program at the head waits on a held slot; the slot that its ACC streams are at (R277, R287). -/
  waitSlot : Bool := false
  slot : Nat := 0
  /-- Slots read so far by the program at the head, and whether it has taken the next one's unit (R277). -/
  read : KMap AccSlot := []
  unit : Bool := false
  /-- The head's writes have been made. -/
  sent : Bool := false
deriving DecidableEq, Repr

/-- A take waiting on a pair (R416): side 0 producer, 1 consumer; unit 0 sequencer, 1 gather engine, 2 vector engine. -/
structure SemWaiter where
  pair : Nat
  side : Nat
  unit : Nat
deriving DecidableEq, Repr

/-- The synchronisation set of one context on one core (R408). -/
structure SyncSet where
  tallies : KMap Tally := []
  pairs : KMap Pair := []
  waiters : List SemWaiter := []
  /-- Takes of engines that have been served and not yet used. -/
  grants : List SemWaiter := []
deriving DecidableEq, Repr

/-- A write to another part's memory that waits in the exchange unit for a slot or tokens (R159, R172): its address, its words, and the
translation that it goes through. -/
structure QueuedWrite where
  addr : Nat
  words : List WireWord
  via : Option (Bool × Nat × Nat)
  /-- When it began to wait. -/
  queued : Nat
deriving DecidableEq, Repr

/-- One core. -/
structure Core where
  /-- Key of the command that runs on the core, its context and the core's rank. -/
  cmd : Option Nat := none
  ctx : Nat := 0
  rank : Nat := 0
  seq : Sequencer := {}
  qGather : List QDesc := []
  qMove : List QDesc := []
  qMatrix : List QDesc := []
  qVector : List QDesc := []
  nextGid : Nat := 0
  gathers : List GatherRun := []
  mx : MatrixArray := {}
  vx : VectorEngine := {}
  sync : KMap SyncSet := []
  scratch : List Host.Cell := []
  /-- Flags of 64-byte scratch words: bit 0 poison, bit 1 TIES_AWAY (R465). -/
  sflags : KMap Nat := []
  /-- CDW_CVT_FLAGS bits [6:1] (R64). -/
  cvt : Nat := 0
  oor : Nat := 0
  seqFault : Nat := 0
  /-- Counters of the debug window by offset (R257, R288). -/
  counters : KMap Nat := []
  /-- The command has read a flagged word (R465). -/
  sawTies : Bool := false
  /-- Lines of other parts' memory read for the descriptors at hand, by unit * 2^60 + pool line number; lines asked for;
  unacknowledged remote writes; the status of a remote access that failed (R148, R178). -/
  rbuf : KMap WireWord := []
  rpend : List Nat := []
  wpend : Nat := 0
  /-- Those of `wpend` that are still to be sent, oldest first. -/
  wqueue : List QueuedWrite := []
  rfail : Nat := 0
  /-- The move queue's head has made its writes. -/
  moveSent : Bool := false
  /-- Rotations this core has come to and whose buffer its predecessor has not yet filled, oldest first, each by the tally that its own
  descriptor names, and whether the procession at the head of the move queue is counted there (R175, R337). -/
  procRoom : List Nat := []
  procBegun : Bool := false
deriving DecidableEq, Repr

/-- The synchronisation context state that a stalled core keeps at a held barrier arrival (R423). -/
structure HeldArrival where
  core : Nat
  cmd : Nat
  addr : Nat
deriving DecidableEq, Repr

end Sys2Proof.Machine
end

