-- ==== Sys2Proof/Machine/TPart.lean ====
section
/-! DEFINITION. State types of the part as a whole: service and images (R542 to R567), power and thermal (R496 to R520), the host
link (R521 to R541), the module (R584 to R588), SPDM (R560). -/

namespace Sys2Proof.Machine

open Sys2Proof

/-- An IMAGE_STAGE in progress (R563): its request, and the slot that it writes. -/
structure StageOp where
  fn : Nat
  opId : Nat
  kind : Nat
  addr : Nat
  length : Nat
  slot : Nat
deriving DecidableEq, Repr

/-- A rollout in progress (R554, R556): kind 2 SEQ, 3 FAB. -/
structure Rollout where
  fn : Nat
  opId : Nat
  kind : Nat
  slot : Nat
  max : Nat
  /-- Cores or ports still to be updated. -/
  left : List Nat
  /-- Cores taken and UPDATING, or the port in hand. -/
  taken : List Nat := []
  /-- A core has failed its check, so that no other is taken. -/
  failed : Bool := false
deriving DecidableEq, Repr

/-- A CP swap in progress (R553). -/
structure CpSwap where
  fn : Nat
  opId : Nat
  slot : Nat
  /-- The swap point has been reached at this time. -/
  swapAt : Option Nat := none
deriving DecidableEq, Repr

/-- A recalibration in progress (R557). -/
structure Recal where
  group : Nat
  slices : Nat
  /-- The RECAL request that waits: function and OP_ID. -/
  op : Option (Nat × Nat)
deriving DecidableEq, Repr

/-- Bring-up, firmware and identity. -/
structure Service where
  /-- SERVICE of R567: 0 BOOTING, 1 reduced, 2 full, 3 CP restart, 4 RECOVERY. -/
  state : Nat := 0
  /-- Service state before a CP restart. -/
  resume : Nat := 0
  /-- Next pair to be calibrated; clusters and groups calibrated (R544). -/
  pair : Nat := 0
  clustersCal : Nat := 0
  groupsCal : Nat := 0
  /-- Groups that failed full-rate training (R546). -/
  slowGroups : Nat := 0
  /-- ACTIVE ports still to be retrained at full rate, the one in hand first (R544). -/
  retrain : List Nat := []
  /-- Published capability level (R321). -/
  capLevel : Nat := 0
  /-- Image slots keyed kind * 2 + slot, kinds 1 to 4. -/
  images : KMap Image := []
  /-- Committed slot and running slot per kind. -/
  committed : KMap Nat := []
  running : KMap Nat := []
  /-- Slot of the SEQ image each core runs and of the FAB image each port runs. -/
  seqSlot : KMap Nat := []
  fabSlot : KMap Nat := []
  pwrPending : Bool := false
  forced : Bool := false
  /-- The committed set was activated with FORCE (R552). -/
  forcedSet : Bool := false
  keyDigest : KMap Nat := []
  revoked : Nat := 0
  minSvn : KMap Nat := []
  debugFuse : Bool := false
  staging : List StageOp := []
  rollouts : List Rollout := []
  swap : Option CpSwap := none
  recal : Option Recal := none
  groupTemp : KMap Int := []
  groupCalAt : KMap Nat := []
  /-- A CP restart is in progress since this time; answers PART_RESET at its end. -/
  restart : Option Nat := none
  restartOp : Option (Nat × Nat) := none
  /-- The operations of R217 are to be resumed once the part is in full service. -/
  resumeDue : Bool := false
deriving DecidableEq, Repr

/-- The image of a kind that the model takes the flash to hold at first: tested with every version of every kind (log entry 32). -/
def factoryImage (version capLevel : Nat) : Image :=
  { state := 1, version := version, capLevel := capLevel,
    manifest := [(1, false, 0, 0xFFFFFFFF), (2, false, 0, 0xFFFFFFFF), (3, false, 0, 0xFFFFFFFF), (3, true, 0, 0xFFFFFFFF),
                 (4, false, 0, 0xFFFFFFFF)] }

/-- Slot A of each kind as the model takes the flash to hold it at first (log entry 32). -/
def factoryImages : KMap Image :=
  [(2, factoryImage 0x03040011 0), (4, factoryImage 0x02030009 0x0100), (6, factoryImage 0x01000000 0), (8, factoryImage 0x01000000 0)]

/-- Thermal and clock state of one cluster (R505 to R511, R519). -/
structure ClusterPower where
  /-- CCLK point, and the highest that calibration passed (R506, R546). -/
  point : Nat := 0
  best : Nat := 0
  logicTemp : Int := 0
  dramTemp : Int := 0
  /-- Row of R510 that governs: 0 none, 1 refresh doubled, 2 derate, 3 limit; bits of the temperatures that met its condition
  (0 DRAM, 1 logic); since when they lie 3 °C below it. -/
  row : Nat := 0
  gov : Nat := 0
  belowSince : Option Nat := none
  /-- Since when a temperature is over the trip level. -/
  overSince : Option Nat := none
  /-- Thermal duty in percent, and the time of the last thermal step. -/
  derateDuty : Nat := 0
  lastStep : Nat := 0
  /-- The clock is stretched since this time; stretched times of the last millisecond: end and length. -/
  stretchAt : Option Nat := none
  stretches : List (Nat × Nat) := []
  /-- A higher point waits for its voltage (R506). -/
  wantPoint : Option Nat := none
  /-- Stretched cycles of the last millisecond exceed 1 % (R505). -/
  storm : Bool := false
  /-- The last readings of the four logic sensors and of the eight DRAM layers, where they were given apart (R509). -/
  logicSensors : List Int := []
  dramSensors : List Int := []
deriving DecidableEq, Repr

/-- What one core did for one command within the present millisecond: activity in thousandths of a microsecond, and ticks in use (R514);
no command for the time in which it had none. -/
structure Usage where
  core : Nat
  cmd : Option Nat
  ctx : Nat
  act : Nat
  time : Nat
deriving DecidableEq, Repr

/-- The power controller (R496 to R520). -/
structure Power where
  /-- Samples P of the last millisecond, newest first, in mW (R500). -/
  samples : List Nat := []
  /-- Telemetry in mV and mA. -/
  vin : Nat := 0
  iin : Nat := 0
  /-- Efficiency in ten-thousandths (R498; log entry 3). -/
  eta : Nat := 8800
  limit : Nat := 1500
  margin : Nat := 3
  gain : Nat := 8
  dmax : Nat := 75
  /-- P_LIMIT, MARGIN, G and D_MAX that wait for the next sample (R517). -/
  next : Option (Nat × Nat × Nat × Nat) := none
  dramDerate : Nat := 90
  logicDerate : Nat := 100
  /-- Power duty per core in percent (R501). -/
  duty : KMap Nat := []
  stall : Bool := false
  excursion : Bool := false
  /-- Serial frames, or a rail's reports, are missing (R497). -/
  tlmLost : Bool := false
  /-- Rails that report nothing, as bits, and when each rail last reported: VCORE_H0, VCORE_H1, VDRAM, VSOC, VSERDES (R496, R497). -/
  railLost : Nat := 0
  lastFrame : Nat := 0
  lastRail : KMap Nat := []
  /-- Until when some core had non-zero power duty, and the time of the last POWER_PACED (R480, R504). -/
  lastDuty : Option Nat := none
  lastPaced : Option Nat := none
  clusters : KMap ClusterPower := []
  /-- Input energy and pool-service energy in µJ (R514, R520). -/
  inputEnergy : Nat := 0
  serviceEnergy : Nat := 0
  /-- Cycle and tick counters of R520 by register offset, and the bubble cycles below a whole one, of 20,000. -/
  counters : KMap Nat := []
  bubbleFrac : Nat := 0
  /-- Until when each core's lost time, and the ticks of stalls and derating, have been counted (R508, R520). -/
  lossAt : KMap Nat := []
  ticksAt : Nat := 0
  /-- What the cores did within the present millisecond (R514). -/
  usage : List Usage := []
deriving DecidableEq, Repr

/-- An HDM decoder (R529). -/
structure Hdm where
  base : Nat := 0
  size : Nat := 0
  hpa : Nat := 0
  committed : Bool := false
  error : Bool := false
deriving DecidableEq, Repr

/-- A back-invalidation that waits for its response (R530), with the write that waits for it: the command (0 for none), 64 bytes,
which of them are written, and the metadata. -/
structure BackInv where
  line : Nat
  cmd : Nat
  data : List Byte
  mask : List Bool
  info : CwMeta
  /-- The translation that the write goes through, if any: function context, context, virtual address; and when it was made. -/
  via : Option (Bool × Nat × Nat) := none
  sent : Nat := 0
  /-- The WRITE of another part that it belongs to, and whether none of that WRITE's codewords has been accepted yet (R303). -/
  hdr : Option MsgHdr := none
  whole : Bool := false
deriving DecidableEq, Repr

/-- The host link (R521 to R541). -/
structure HostLink where
  up : Bool := false
  speed : Nat := 0
  width : Nat := 0
  flit : Bool := false
  cxlMem : Bool := false
  cxlCache : Bool := false
  selfResets : Nat := 0
  lastCause : Nat := 0
  /-- A self-reset is in progress since this time (R536). -/
  resetAt : Option Nat := none
  /-- The host interface of that self-reset has been reset. -/
  ifReset : Bool := false
  /-- FLRs of virtual functions in progress: partition, start (R539). -/
  flrs : KMap Nat := []
  hdm : KMap Hdm := []
  /-- Snoop filter, oldest first: line numbers. -/
  snoop : List Nat := []
  pendingInv : List BackInv := []
deriving DecidableEq, Repr

/-- A thermal-trip record in flash (R513). -/
structure TripRec where
  cluster : Nat
  sensor : Nat
  temp : Int
  time : Nat
  fw : Nat
deriving DecidableEq, Repr

/-- The module: pins, supply and the management port (R496, R513, R584 to R588). -/
structure Module where
  powered : Bool := false
  /-- PERST# is asserted. -/
  perst : Bool := false
  /-- Power-up is held at the 10 ms row by PERST# (R584). -/
  heldAt10 : Bool := false
  /-- The hot-swap controller holds the input open. -/
  inputOpen : Bool := true
  latch : Bool := false
  trip : Bool := false
  present : Bool := true
  tripRec : Option TripRec := none
  /-- The management port's read pointer: LOG_SEQ of the last record read (R588). -/
  mgmtPtr : Nat := 0
  /-- Responses returned on the management port, newest first. -/
  mgmtOut : List (List Byte) := []
deriving DecidableEq, Repr

/-- SPDM negotiation (R560): 0 none, 1 version, 2 capabilities, 3 algorithms; the transcript so far. -/
structure Spdm where
  stage : Nat := 0
  version : Nat := 0
  transcript : List Nat := []
  out : List (List Byte) := []
deriving DecidableEq, Repr

end Sys2Proof.Machine
end

