-- ==== Sys2Proof/Machine/State.lean ====
section
/-! DEFINITION. The state of the part, its faults and refusals, and the state at reset. INVENTORY.md lists every piece with the
rule that names it. -/

namespace Sys2Proof.Machine

open Sys2Proof

/-- A barrier arrival on its way to the barrier unit (R423): local from a core, or remote with the header to answer. -/
structure Arrival where
  addr : Nat
  pid : Nat
  part : Nat
  cmd : Nat := 0
  core : Nat := 0
  isLocal : Bool
  hdr : Option MsgHdr := none
deriving DecidableEq, Repr

/-- A participant entry (R421). -/
structure Participant where
  pid : Nat
  lastGen : Nat
  hold : Bool
  /-- Whom the held arrival belongs to: the message to answer, or the local core. -/
  arrival : Option Arrival := none
  /-- Whom its latest counted arrival belongs to: what a kill withdraws while the round is incomplete (R428). -/
  counted : Option Arrival := none
deriving DecidableEq, Repr

/-- An active barrier in the barrier unit's table (R420, R422). -/
structure Barrier where
  addr : Nat
  part : Nat
  count : Nat
  arrived : Nat
  held : Nat
  round : Nat
  lastPid : Nat
  entries : List Participant
  /-- Local cores that wait in BWAIT. -/
  waiters : List Nat := []
deriving DecidableEq, Repr

/-- A selvage mismatch whose block is still to be read again (R466). -/
structure Reread where
  addr : Nat
  size : Nat
  blockId : Nat
  /-- A row slot rather than a tensor block, with its tier. -/
  isRow : Bool
  tier : Nat
  queue : Nat
  seq : Nat
  /-- It lies in another part: `addr` is then its pool address, or 0 for a row slot. -/
  far : Bool := false
  /-- Read epoch of a row in another part, and whether it has been looked up again. -/
  epoch : Nat := 0
  asked : Bool := false
deriving DecidableEq, Repr

/-- Why the machine stops with a fault: it never does, since the spec gives every command an effect. -/
inductive Fault
deriving DecidableEq, Repr

/-- Why the model refuses a command. -/
inductive Refusal where
  /-- Raised by an arm of `exec` whose command has no meaning yet. Safe: nothing is claimed of it. -/
  | notModelled (mnemonic : String)
deriving DecidableEq, Repr

/-- The state of one part and of what it has sent to its surroundings. -/
structure State where
  /-- The commands that wait, first in first out. -/
  pending : List Instr := []
  /-- The model's own counter for free values (log entry 6). -/
  freeCtr : Nat := 0
  /-- FE_REF_COUNT (R36). -/
  refCount : Nat := 0
  module : Module := {}
  service : Service := {}
  power : Power := {}
  link : HostLink := {}
  spdm : Spdm := {}
  mem : DevMem := {}
  host : HostSide := {}
  xlt : Xlt := {}
  ras : Ras := {}
  /-- RAS state per core (R474). -/
  coreRas : KMap CoreRas := []
  fns : KMap Fn := []
  queues : KMap SQueue := []
  cmds : KMap Cmd := []
  ctxs : KMap Ctx := []
  parts : KMap Partition := []
  serviceShare : Nat := 25
  serviceRead : Nat := 80
  serviceWrite : Nat := 20
  /-- A share that waits for step boundaries of the listed partitions, and the SERVICE_SETs to be answered (R173, R181). -/
  nextService : Option (Nat × Nat × Nat) := none
  serviceLeft : List Nat := []
  serviceOps : List (Nat × Nat) := []
  /-- PARTITION_SET requests in progress: function and OP_ID (R383). -/
  moveOps : List (Nat × Nat) := []
  cores : KMap Core := []
  slices : KMap Slice := []
  exchanges : KMap Exchange := []
  /-- Messages of pool service that wait for tokens, by cluster, oldest first (R172). -/
  outbox : KMap (List Outgoing) := []
  /-- DRAM schedulers by cluster (R147, R170). -/
  dram : KMap DramSched := []
  flows : List RingFlow := []
  prefetch : List PrefStep := []
  tables : KMap Table := []
  /-- Units of device memory that firmware holds for its own structures: 0 redirect directory and held-row map, 1 snapshot directory,
  2 update staging, 3 owner arrays, 4 shadow maps of re-tiering (R216, R591; log entry 8). -/
  firmUnits : KMap (List Nat) := []
  /-- TABLE_LOADs under way (R87). -/
  loads : List Load := []
  directory : KMap (List DirEntry) := []
  epochs : Epochs := {}
  barriers : List Barrier := []
  arrivals : List Arrival := []
  rereads : List Reread := []
  ports : KMap Port := []
  pool : Pool := {}
  /-- The control request whose writes to another part are outstanding: function and slot (log entry 19). -/
  cpWrite : Option (Nat × Nat) := none
deriving DecidableEq, Repr

/-- The state after reset: no power yet (R542), every field at the value of R547's power-on column or of log entry 3;
the flash holds an image of each kind (log entry 32). -/
def State.reset : State := { service := { images := factoryImages } }

end Sys2Proof.Machine
end

