-- ==== Sys2Proof/Machine/Ops.lean ====
section
/-! DEFINITION. Status codes, accessors of the state, error events, and device memory: the named operations every meaning uses. -/

namespace Sys2Proof.Machine

open Sys2Proof

/-! ### Status codes (R14 and the chapters that add codes) -/

abbrev stOk : Nat := 0x0000
abbrev stTimeout : Nat := 0x0101
abbrev stFenceCycle : Nat := 0x0102
abbrev stBadPattern : Nat := 0x0103
abbrev stVersionRefused : Nat := 0x0104
abbrev stCapabilityMissing : Nat := 0x0105
abbrev stPatternFailed : Nat := 0x0106
abbrev stEnqueueRefused : Nat := 0x0107
abbrev stFenceFailed : Nat := 0x0108
abbrev stContextTornDown : Nat := 0x0109
abbrev stPartitionInvalid : Nat := 0x010A
abbrev stContextConflict : Nat := 0x010B
abbrev stImageInvalid : Nat := 0x010C
abbrev stUpdateConflict : Nat := 0x010D
abbrev stUpdateFailed : Nat := 0x010E
abbrev stPageFaultFatal : Nat := 0x0201
abbrev stPoisonConsumed : Nat := 0x0202
abbrev stSelvageMismatch : Nat := 0x0203
abbrev stResidueMismatch : Nat := 0x0204
abbrev stProtection : Nat := 0x0205
abbrev stTranslationRevoked : Nat := 0x0206
abbrev stPageBusy : Nat := 0x0207
abbrev stLockstepMismatch : Nat := 0x0208
abbrev stSemUnderflow : Nat := 0x0301
abbrev stTallySaturated : Nat := 0x0302
abbrev stBarrierMisuse : Nat := 0x0303
abbrev stCoreFenced : Nat := 0x0401
abbrev stLinkFenced : Nat := 0x0402
abbrev stPartLeftPool : Nat := 0x0403
abbrev stJoinRefused : Nat := 0x0404
abbrev stMiscabled : Nat := 0x0405
abbrev stCoreConflict : Nat := 0x0406
abbrev stVigilFailed : Nat := 0x0407
abbrev stHostLinkLost : Nat := 0x0408
abbrev stCompletionBlocked : Nat := 0x0501
abbrev stAlmanacWrap : Nat := 0x0502
abbrev stQueueAbandoned : Nat := 0x0503
abbrev stQueueConflict : Nat := 0x0504
abbrev stMailboxBusy : Nat := 0x0506
abbrev stPowerPaced : Nat := 0x0601
abbrev stThermalDerated : Nat := 0x0602
abbrev stRedirect : Nat := 0x0701
abbrev stEpochClosed : Nat := 0x0702
abbrev stUpdateCollision : Nat := 0x0703
abbrev stIndexOutOfRange : Nat := 0x0704
abbrev stOffsetsInvalid : Nat := 0x0705
abbrev stTableUnavailable : Nat := 0x0706
abbrev stTableConflict : Nat := 0x0707
abbrev stTableCapacity : Nat := 0x0708
abbrev stOwnerUnreachable : Nat := 0x0709
abbrev stSplitInvalid : Nat := 0x070A
abbrev stNotEpochLeader : Nat := 0x070B
abbrev stEpochMismatch : Nat := 0x070C
abbrev stMigrationConflict : Nat := 0x070D
abbrev stUpdateLost : Nat := 0x070E

/-! ### Accessors -/

/-- Core `c`. -/
def State.core (s : State) (c : Nat) : Core := kget {} s.cores c

/-- Change core `c`. -/
def State.updCore (s : State) (c : Nat) (f : Core → Core) : State := { s with cores := kmod {} s.cores c f }

/-- RAS state of core `c`. -/
def State.rasOf (s : State) (c : Nat) : CoreRas := kget {} s.coreRas c

/-- Change the RAS state of core `c`. -/
def State.updRas (s : State) (c : Nat) (f : CoreRas → CoreRas) : State := { s with coreRas := kmod {} s.coreRas c f }

/-- Function `f`. -/
def State.fn (s : State) (f : Nat) : Fn := kget {} s.fns f

/-- Change function `f`. -/
def State.updFn (s : State) (f : Nat) (g : Fn → Fn) : State := { s with fns := kmod {} s.fns f g }

/-- Queue `q`. -/
def State.queue (s : State) (q : Nat) : SQueue := kget {} s.queues q

/-- Change queue `q`. -/
def State.updQueue (s : State) (q : Nat) (f : SQueue → SQueue) : State := { s with queues := kmod {} s.queues q f }

/-- Context `x`. -/
def State.ctx (s : State) (x : Nat) : Ctx := kget {} s.ctxs x

/-- Change context `x`. -/
def State.updCtx (s : State) (x : Nat) (f : Ctx → Ctx) : State := { s with ctxs := kmod {} s.ctxs x f }

/-- Partition `p`. -/
def State.part (s : State) (p : Nat) : Partition := kget {} s.parts p

/-- Change partition `p`. -/
def State.updPart (s : State) (p : Nat) (f : Partition → Partition) : State := { s with parts := kmod {} s.parts p f }

/-- The Bobbin slice of cluster `k`. -/
def State.slice (s : State) (k : Nat) : Slice := kget {} s.slices k

/-- Change the slice of cluster `k`. -/
def State.updSlice (s : State) (k : Nat) (f : Slice → Slice) : State := { s with slices := kmod {} s.slices k f }

/-- The exchange unit of cluster `k`. -/
def State.exch (s : State) (k : Nat) : Exchange := kget {} s.exchanges k

/-- Change the exchange unit of cluster `k`. -/
def State.updExch (s : State) (k : Nat) (f : Exchange → Exchange) : State := { s with exchanges := kmod {} s.exchanges k f }

/-- Table `t`. -/
def State.table (s : State) (t : Nat) : Table := kget {} s.tables t

/-- Change table `t`. -/
def State.updTable (s : State) (t : Nat) (f : Table → Table) : State := { s with tables := kmod {} s.tables t f }

/-- Port `p`. -/
def State.port (s : State) (p : Nat) : Port := kget {} s.ports p

/-- Change port `p`. -/
def State.updPort (s : State) (p : Nat) (f : Port → Port) : State := { s with ports := kmod {} s.ports p f }

/-- Power state of cluster `k`. -/
def State.clusterPower (s : State) (k : Nat) : ClusterPower := kget {} s.power.clusters k

/-- Change the power state of cluster `k`. -/
def State.updClusterPower (s : State) (k : Nat) (f : ClusterPower → ClusterPower) : State :=
  { s with power := { s.power with clusters := kmod {} s.power.clusters k f } }

/-- The SEQ image that a core runs (R554): its own after a rollout reached it, else the part's. -/
def State.seqImage (s : State) (c : Nat) : Image :=
  kget {} s.service.images (4 + (kfind s.service.seqSlot c).getD (kget 0 s.service.running 2))

/-- RESULT_CLASS of a core (R555). -/
def State.resultClass (s : State) (c : Nat) : Nat := (s.seqImage c).resultClass

/-- Slot of the FAB image that a port runs, and the image (R556). -/
def State.fabSlotOf (s : State) (q : Nat) : Nat := (kfind s.service.fabSlot q).getD (kget 0 s.service.running 3)
def State.fabImage (s : State) (q : Nat) : Image := kget {} s.service.images (6 + s.fabSlotOf q)

/-- Rounding of commands dispatched now is ties away: reduced service (R58, R544). -/
def State.reduced (s : State) : Bool := s.service.state = 1 || (s.service.state = 3 && s.service.resume = 1)

/-- The part is in full service, a CP restart apart (R544). -/
def State.fullService (s : State) : Bool := s.service.state = 2 || (s.service.state = 3 && s.service.resume = 2)

/-- Key of a command in `cmds`. -/
def cmdKey (q seq : Nat) : Nat := q * 2 ^ 48 + seq

/-- The command with a key, if the part still holds it. -/
def State.cmd? (s : State) (key : Nat) : Option Cmd := kfind s.cmds key

/-- Change the command with a key, if the part holds it. -/
def State.updCmd (s : State) (key : Nat) (f : Cmd → Cmd) : State :=
  match kfind s.cmds key with
  | none => s
  | some c => { s with cmds := kput s.cmds key (f c) }

/-- Cluster of a core (R3, R4). -/
def clusterOf (c : Nat) : Nat := c / 8

/-- The cores of a cluster. -/
def coresOf (k : Nat) : List Nat := (List.range 8).map (fun i => 8 * k + i)

/-- Reference ticks in a microsecond (R36). -/
def ticksPerUs : Nat := 100

/-- Whether `us` microseconds have passed since tick `t`. -/
def State.since (s : State) (t us : Nat) : Bool := t + us * ticksPerUs ≤ s.refCount

/-- A 48-bit counter register of a unit advanced by `n` (R144). -/
def bump (m : KMap Nat) (off n : Nat) : KMap Nat := kput m off (wrapAdd 48 (kget 0 m off) n)

/-- Draw the next free-value number (log entry 6). -/
def State.draw (s : State) : State × Nat := ({ s with freeCtr := s.freeCtr + 1 }, s.freeCtr)

/-! ### Error events (R485 to R489, R495) -/

/-- An event on its way to a CPER record, stamped with the time (R37). -/
def State.raise (s : State) (e : RasEvent) : State :=
  { s with ras := { s.ras with events := s.ras.events ++ [{ e with time := s.refCount }] } }

/-- A RAS counter of R495, by offset in the RAS block. -/
def State.rasCount (s : State) (off n : Nat) : State :=
  { s with ras := { s.ras with counters := bump s.ras.counters off n } }

/-- What an access of a register returns (R570): all of it for 0, its low half for 1, its high half for 2. -/
def halfOf (half : Fin 3) (v : Nat) : Nat := if half = 0 then v else if half = 1 then v % 2 ^ 32 else v / 2 ^ 32

/-- A register after an access of `half` has set what that holds to `new` (R570). -/
def setHalf (half : Fin 3) (old new : Nat) : Nat :=
  if half = 0 then new else if half = 1 then old / 2 ^ 32 * 2 ^ 32 + new % 2 ^ 32 else new / 2 ^ 32 * 2 ^ 32 + old % 2 ^ 32

/-- A PROTECTION event in the RAS block (R13, R495). -/
def State.protect (s : State) (e : RasEvent) : State :=
  (s.rasCount 0x240 1).raise { e with event := 0x0060, severity := 3, status := stProtection }

/-- A RAS event that a rule logs without naming an EVENT code: recorded as PROTECTION_EVENT (log entry 17). -/
def State.logEvent (s : State) (unit : Nat) : State := s.protect { event := 0x0060, unit := unit }

/-! ### Device memory (R460 to R467) -/

/-- Bytes of device memory in one part (R5). -/
abbrev devSize : Nat := 2 ^ 38

/-- Device memory is in its one canonical form: keys rise, and no entry equals what an unlisted key reads as. -/
def Memory.wf (m : DevMem) : Bool := kwf 0 m.bytes && kwf {} m.info && kwf 0 m.symErr

/-- The writes to a line that wait for a back-invalidation, newest first (R530). -/
def State.waitingOn (s : State) (w : Nat) : List BackInv := s.link.pendingInv.reverse.filter (fun b => b.line = w)

/-- Metadata of codeword `w` as the part's own units see it: a write that waits for the host counts. -/
def State.lineMeta (s : State) (w : Nat) : CwMeta :=
  match (s.waitingOn w).find? (fun b => b.mask.any id) with
  | some b => b.info
  | none => kget {} s.mem.info w

/-- Metadata of the codeword that holds an offset. -/
def State.cwMeta (s : State) (a : Nat) : CwMeta := s.lineMeta (a / 64)

/-- Replace the metadata of codeword `w`. -/
def DevMem.setMeta (m : DevMem) (w : Nat) (i : CwMeta) : DevMem := { m with info := kset {} m.info w i }

/-- A byte of device memory as the part's own units see it: a write that waits for the host counts. -/
def State.devByte (s : State) (a : Nat) : Byte :=
  match (s.waitingOn (a / 64)).find? (fun b => nthD false b.mask (a % 64)) with
  | some b => nthD 0 b.data (a % 64)
  | none => kget 0 s.mem.bytes a

/-- Bytes from device memory. -/
def State.devBytes (s : State) (a n : Nat) : List Byte := (List.range n).map (fun i => s.devByte (a + i))

/-- The codewords that a range meets. -/
def codewords (a n : Nat) : List Nat := if n = 0 then [] else (List.range (((a + n - 1) / 64) - a / 64 + 1)).map (· + a / 64)

/-- Key of a token bucket (R170, R171): an account, 16 for pool service, and a class: 0 READ, 1 WRITE, 2 REMOTE. -/
def bucketKey (account cls : Nat) : Nat := account * 4 + cls

/-- Cluster whose DRAM channel group holds the unit at an offset (R147). -/
def clusterOfOffset (o : Nat) : Nat := 8 * bitsOf o 37 37 + (bitsOf o 10 8 ^^^ bitsOf o 13 11)

/-- The DRAM schedulers of the units that a range meets charge its codewords, 64 bytes each, to a bucket (R147, R171, R172). The wait for
tokens there is time (log entry 13). -/
def State.dramCharge (s : State) (key a n : Nat) : State :=
  { s with dram := (codewords a n).foldl (fun m w => kmod {} m (clusterOfOffset (64 * w)) (fun d =>
      { d with tokens := kput d.tokens key (kget 0 d.tokens key - 64) })) s.dram }

/-- A correction in a 1 GiB region: more than 1,024 within an hour are a storm (R468). -/
def State.corrected (s : State) (w : Nat) : State :=
  let g := w / 2 ^ 24
  let l := s.refCount :: (kget [] s.ras.storm g).filter (fun t => !s.since t 3600000000)
  if 1024 < l.length then
    ({ s with ras := { s.ras with storm := kdel s.ras.storm g } } : State).raise
      { event := 0x0003, severity := 2, unit := 0x09, addr := s.pool.partId * devSize + g * 2 ^ 30 }
  else { s with ras := { s.ras with storm := kput s.ras.storm g l } }

/-- The metadata that 24 bits of a codeword spell (R461). -/
def cwMetaOf (n : Nat) : CwMeta :=
  { poison := bitAt n 23, ties := bitAt n 22, kind := bitsOf n 21 20, pos := bitsOf n 19 18, tier := bitsOf n 17 16, frag := n % 65536 }

/-- A correction is counted and recorded (R467, R468). -/
def State.countCorrected (s : State) (w : Nat) : State :=
  ((s.rasCount 0x200 1).raise { event := 0x0001, severity := 2, unit := 0x09, addr := s.pool.partId * devSize + 64 * w }).corrected w

/-- One read of a codeword: corrects one or two wrong symbols, poisons three (R467); four or more are detected, or read as other data and
metadata, which are free, with or without a correction to count (R460, log entry 15). -/
def State.readCodeword (s : State) (w : Nat) : State :=
  match kget 0 s.mem.symErr w with
  | 0 => s
  | n + 1 =>
    let clear : DevMem := { s.mem with symErr := kdel s.mem.symErr w }
    let poisoned : State :=
      (({ s with mem := clear.setMeta w { kget {} s.mem.info w with poison := true } } : State).rasCount 0x208 1).raise
        { event := 0x0002, severity := 0, unit := 0x09, addr := s.pool.partId * devSize + 64 * w }
    if n + 1 ≤ 2 then ({ s with mem := clear } : State).countCorrected w
    else if n + 1 = 3 || !Config.miscorrects s.freeCtr then { poisoned with freeCtr := s.freeCtr + 1 }
    else
      let bytes := (List.range 64).map (fun i => BitVec.ofNat 8 (Config.freeCodeword s.freeCtr i))
      let info := cwMetaOf (leNat ((List.range 3).map (fun i => BitVec.ofNat 8 (Config.freeCodeword s.freeCtr (64 + i)))))
      let t : State := { s with mem := ({ clear with bytes := writeBytes clear.bytes (64 * w) bytes } : DevMem).setMeta w info,
                                freeCtr := s.freeCtr + 1 }
      if Config.freeValue 9 s.freeCtr % 2 = 1 then t.countCorrected w else t

/-- Read every codeword of a range (R467). -/
def State.touch (s : State) (a n : Nat) : State := (codewords a n).foldl State.readCodeword s

/-- Whether a codeword of the range is poisoned. -/
def State.poisoned (s : State) (a n : Nat) : Bool := (codewords a n).any (fun w => (s.lineMeta w).poison)

/-- Whether a codeword of the range carries the rounding flag (R465). -/
def State.flagged (s : State) (a n : Nat) : Bool := (codewords a n).any (fun w => (s.lineMeta w).ties)

/-- Store bytes in the array and give every codeword that the range meets the metadata `f` makes of the old one. -/
def State.storeDev (s : State) (a : Nat) (bs : List Byte) (f : Nat → CwMeta → CwMeta) : State :=
  let ws := codewords a bs.length
  { s with mem := { bytes := writeBytes s.mem.bytes a bs,
                    info := ws.foldl (fun m w => kset {} m w (f w (kget {} m w))) s.mem.info,
                    symErr := ws.foldl (fun m w => if a ≤ 64 * w && 64 * w + 64 ≤ a + bs.length then kdel m w else m) s.mem.symErr } }

/-- The host holds a line, or a back-invalidation of it is under way (R530). -/
def State.lineHeld (s : State) (w : Nat) : Bool := s.link.snoop.contains w || s.link.pendingInv.any (fun b => b.line = w)

/-- Send a back-invalidation snoop, or join the one under way (R530). -/
def State.backInvalidate (s : State) (b : BackInv) : State :=
  { s with link := { s.link with snoop := s.link.snoop.erase b.line, pendingInv := s.link.pendingInv ++ [{ b with sent := s.refCount }] } }

/-- Write the bytes of a range that lie in codeword `w`: at once, or after the host's response where it holds the line (R530). -/
def State.writeLine (s : State) (a : Nat) (bs : List Byte) (f : Nat → CwMeta → CwMeta) (w : Nat)
    (via : Option (Bool × Nat × Nat) := none) : State :=
  let lo := max a (64 * w)
  let hi := min (a + bs.length) (64 * w + 64)
  let piece := (bs.drop (lo - a)).take (hi - lo)
  if s.lineHeld w then
    s.backInvalidate { line := w, cmd := 0,
                       data := List.replicate (lo - 64 * w) 0 ++ piece ++ List.replicate (64 * w + 64 - hi) 0,
                       mask := (List.range 64).map (fun i => lo ≤ 64 * w + i && 64 * w + i < hi),
                       info := f w (s.lineMeta w), via := via }
  else s.storeDev lo piece f

/-- Write bytes and give every codeword that the range meets the metadata `f` makes of the old one. A line that the host holds is
written after its response (R530); `via` is the translation that the write went through (R451). -/
def State.writeDev (s : State) (a : Nat) (bs : List Byte) (f : Nat → CwMeta → CwMeta) (via : Option (Bool × Nat × Nat) := none) : State :=
  let ws := codewords a bs.length
  if ws.any s.lineHeld then ws.foldl (fun s w => s.writeLine a bs f w via) s
  else s.storeDev a bs f

/-- Metadata after a plain write of `n` bytes at `a`: KIND plain, poison cleared where the codeword is written whole (R461, R469). -/
def plainMeta (a n w : Nat) (old : CwMeta) : CwMeta :=
  if a ≤ 64 * w && 64 * w + 64 ≤ a + n then {} else { old with kind := 0, pos := 0, tier := 0, frag := 0 }

/-- A plain write by the part itself or the host (R461, R469). -/
def State.writePlain (s : State) (a : Nat) (bs : List Byte) (via : Option (Bool × Nat × Nat) := none) : State :=
  s.writeDev a bs (plainMeta a bs.length) via

/-- Zero a range as plain data: at once, but for the lines that the host holds, which are written after its response (R530). -/
def State.zeroRange (s : State) (a n : Nat) : State :=
  let held := (s.link.snoop ++ s.link.pendingInv.map (·.line)).eraseDups.filter (fun w => a < 64 * w + 64 && 64 * w < a + n)
  let free := fun (w : Nat) => a < 64 * w + 64 && 64 * w < a + n && !held.contains w
  let s : State := { s with mem := {
    bytes := s.mem.bytes.filter (fun e => e.1 < a || a + n ≤ e.1 || held.contains (e.1 / 64)),
    info := s.mem.info.filter (fun e => !free e.1),
    symErr := s.mem.symErr.filter (fun e => !free e.1) } }
  held.foldl (fun s w => s.backInvalidate {
    line := w, cmd := 0, data := List.replicate 64 0, mask := (List.range 64).map (fun i => a ≤ 64 * w + i && 64 * w + i < a + n),
    info := plainMeta a n w (s.lineMeta w) }) s

/-! ### Tensor blocks (R462 to R466) -/

/-- The selvage tag of bytes under a block id (R462). -/
def selvage (bs : List Byte) (blockId : Nat) : Nat := crc32c (bs ++ leBytes 8 blockId)

/-- The default block id of a context's block (R463). -/
def blockIdOf (ctx va : Nat) : Nat := 0xE * 2 ^ 60 + (ctx % 256) * 2 ^ 52 + va % 2 ^ 52

/-- Metadata that codeword `i` of `n` carries for a tag (R463). -/
def blockMeta (n i tag : Nat) (ties poison : Bool) : CwMeta :=
  if n = 1 then { poison := poison, ties := ties, kind := 1, pos := 3, frag := (tag >>> 16) ^^^ (tag % 65536) }
  else if i = 0 then { poison := poison, ties := ties, kind := 1, pos := 1, frag := tag >>> 16 }
  else if i + 1 = n then { poison := poison, ties := ties, kind := 1, pos := 2, frag := tag % 65536 }
  else { poison := poison, ties := ties, kind := 1, pos := 0, frag := i % 65536 }

/-- Write a whole tensor block with its tag (R463). -/
def State.writeBlock (s : State) (a : Nat) (bs : List Byte) (blockId : Nat) (ties : Bool) : State :=
  let tag := selvage bs blockId
  s.writeDev a bs (fun w _ => blockMeta (bs.length / 64) (w - a / 64) tag ties false)

/-- Outcome of checking a tensor block (R464): 0 pass, 1 mismatch, 2 poison, 3 plain. -/
def State.checkBlock (s : State) (a size blockId : Nat) : Nat :=
  let n := size / 64
  let tag := selvage (s.devBytes a size) blockId
  let ms := (List.range n).map (fun i => s.lineMeta (a / 64 + i))
  if ms.any (·.poison) then 2
  else if ms.all (fun m => m.kind = 0) then 3
  else if (List.range n).all (fun i =>
      let m := s.lineMeta (a / 64 + i)
      let e := blockMeta n i tag m.ties false
      m.kind = 1 && m.pos = e.pos && m.frag = e.frag) then 0
  else 1

/-- Set POISON in every codeword of a range (R466). -/
def State.poisonRange (s : State) (a n : Nat) : State :=
  { s with mem := { s.mem with info := (codewords a n).foldl (fun m w => kset {} m w { kget {} m w with poison := true }) s.mem.info } }

/-- A selvage mismatch found by a reader: counted, and the block is to be read again (R464, R466). -/
def State.mismatch (s : State) (r : Reread) : State :=
  { s.rasCount 0x220 1 with rereads := s.rereads ++ [r] }

/-- A mismatch found by a checker that is no command's reader, such as the save area's or a WRITE's: counted and recorded as stored
corruption (R464, R485; log entry 17). -/
def State.badBlock (s : State) (e : RasEvent) : State :=
  (s.rasCount 0x220 1).raise { e with event := 0x0011, severity := 0, status := stSelvageMismatch, cls := 3 }

/-- A consumption of poison (R469): counted and recorded. -/
def State.consume (s : State) (e : RasEvent) : State :=
  (s.rasCount 0x238 1).raise { e with event := 0x0030, severity := 0, status := stPoisonConsumed }

/-! ### Scratch and its window (R386, R465) -/

/-- Bytes of a core's scratch (R386). -/
abbrev scratchSize : Nat := 2 ^ 21

/-- Scratch offset behind a window offset (R386): the window is mapped unit by unit. -/
def winAddr (units : List Nat) (off : Nat) : Nat := nthD 0 units (off / 32768) * 32768 + off % 32768

/-- Size of a context's window in bytes, which bounds every scratch area (R386). -/
def State.winSize (s : State) (x : Nat) : Nat := (s.ctx x).window * 32768

/-- Bytes of the window of context `x` on core `c`. -/
def State.scr (s : State) (c x off n : Nat) : List Byte :=
  let m := (s.core c).scratch
  let u := (s.ctx x).units
  (List.range n).map (fun i => kget 0 m (winAddr u (off + i)))

/-- A little-endian number in a window. -/
def State.scrNat (s : State) (c x off n : Nat) : Nat := leNat (s.scr c x off n)

/-- Flags of the scratch word that holds a window offset: bit 0 poison, bit 1 TIES_AWAY. -/
def State.scrFlags (s : State) (c x off : Nat) : Nat :=
  kget 0 (s.core c).sflags (winAddr (s.ctx x).units off / 64)

/-- OR of the flags of the words that a window range meets. -/
def State.scrRangeFlags (s : State) (c x off n : Nat) : Nat :=
  ((List.range n).map (fun i => s.scrFlags c x (off + i))).foldl (· ||| ·) 0

/-- Write bytes into a scratch map through a window. -/
def writeWin (units : List Nat) (m : List Host.Cell) (off : Nat) : List Byte → List Host.Cell
  | [] => m
  | b :: bs => writeWin units (kset 0 m (winAddr units off) b) (off + 1) bs

/-- Set the flags of the words that a written window range meets: a whole word takes the new flags, a part keeps its own (R465). -/
def flagWin (units : List Nat) (fl : KMap Nat) (off n flags : Nat) : KMap Nat :=
  let first := off / 64
  let last := (off + n - 1) / 64
  if n = 0 then fl
  else (List.range (last - first + 1)).foldl (fun m i =>
    let w := first + i
    let k := winAddr units (64 * w) / 64
    let whole := off ≤ 64 * w && 64 * w + 64 ≤ off + n
    kset 0 m k (if whole then flags else kget 0 m k ||| flags)) fl

/-- Write bytes of the window of context `x` on core `c` with word flags. -/
def State.writeScr (s : State) (c x off : Nat) (bs : List Byte) (flags : Nat) : State :=
  let u := (s.ctx x).units
  s.updCore c (fun k => { k with scratch := writeWin u k.scratch off bs, sflags := flagWin u k.sflags off bs.length flags })

/-- The command on a core has read a flagged word, on any of its cores (R465). -/
def State.sawTies (s : State) (c : Nat) : Bool :=
  match (s.core c).cmd.bind s.cmd? with
  | none => false
  | some m => m.cores.any (fun d => (s.core d).sawTies)

/-- The word flag that a command's writes carry: TIES_AWAY under ties away or once a flagged word was read (R465). -/
def State.tieFlag (s : State) (c : Nat) (ties : Bool) : Nat := if ties || s.sawTies c then 2 else 0

/-! ### Host memory (log entry 9) -/

/-- A byte of host memory: what the part wrote, else whatever the host holds. -/
def State.hostByte (s : State) (a : Nat) : Byte :=
  match kfind s.host.mem a with
  | some b => b
  | none => BitVec.ofNat 8 (Config.hostByte a)

/-- Bytes of host memory. -/
def State.hostBytes (s : State) (a n : Nat) : List Byte := (List.range n).map (fun i => s.hostByte (a + i))

/-- Write bytes of host memory (R531): the bytes alone, so a line written whole is free of CXL poison (R594; log entry 9). -/
def State.writeHost (s : State) (a : Nat) (bs : List Byte) : State :=
  { s with host := { s.host with
      poison := s.host.poison.filter (fun e => 64 * e.1 < a || a + bs.length < 64 * e.1 + 64)
      mem := ((List.range bs.length).zip bs).foldl (fun m e => kput m (a + e.1) e.2) s.host.mem } }

/-! ### Interrupts (R533, R534, R577) -/

/-- Record an MSI-X message in the PBA while it is masked or MSI-X is disabled; else send it, or nothing without Bus Master (R534). -/
def State.msix (s : State) (f vector : Nat) : State :=
  let fn := s.fn f
  let e := kget {} fn.msixTable vector
  if e.masked || !fn.msixEnable then s.updFn f (fun n => { n with pba := n.pba ||| 2 ^ vector })
  else if !fn.busMaster then s
  else { s with host := { s.host with msix := ⟨f, vector, e.addr, e.data⟩ :: s.host.msix } }

/-- Raise a vector and set its bit of FE_IRQ_CAUSE: bit 0 a finished request, 1 a notice, 2 faults, 3 CPER (R577). -/
def State.irq (s : State) (f vector causeBit : Nat) : State :=
  (s.updFn f (fun n => { n with irqCause := n.irqCause ||| 2 ^ causeBit })).msix f vector

end Sys2Proof.Machine
end

