-- ==== Sys2Proof/Machine/Wire.lean ====
section
/-! DEFINITION. What stands on the wire: headers and entries of messages (R161 to R163, R197, R198, R213), the route header (R296), the flit
header (R294) and the link code (R293). -/

namespace Sys2Proof.Machine

open Sys2Proof

/-! ### Messages (R161 to R163, R197, R198, R213, R310) -/

/-- Message type code of R161 and R310. -/
def Msg.kind : Msg → Nat
  | .lookupReq .. => 0x01
  | .lookupReply .. => 0x02
  | .readReq .. => 0x03
  | .readReply .. => 0x04
  | .write .. => 0x05
  | .writeAck .. => 0x06
  | .arrive .. => 0x07
  | .arriveAck .. => 0x08
  | .delta .. => 0x10
  | .deltaAck .. => 0x11
  | .migrateCopy .. => 0x16
  | .migrateAck .. => 0x17
  | .migrateLog .. => 0x18
  | .fenceClose .. => 0x20
  | .fenceClosed .. => 0x21
  | .fenceApply .. => 0x22
  | .fenceApplied .. => 0x23
  | .joinReq .. => 0x28
  | .joinGrant .. => 0x29
  | .memberUp _ => 0x2A
  | .memberDown _ => 0x2B
  | .linkDown .. => 0x2C
  | .linkUp .. => 0x2D
  | .dropped .. => 0x2E
  | .joinDeny .. => 0x2F
  | .reserved _ k => k

/-- The exchange header of a message of R161's first table. -/
def Msg.hdr? : Msg → Option MsgHdr
  | .lookupReq h _ => some h
  | .lookupReply h _ => some h
  | .readReq h _ _ => some h
  | .readReply h _ _ => some h
  | .write h _ _ => some h
  | .writeAck h _ => some h
  | .arrive h _ _ => some h
  | .arriveAck h _ => some h
  | .delta h _ => some h
  | .deltaAck h _ _ => some h
  | .migrateCopy h _ _ _ _ _ _ => some h
  | .migrateLog h _ _ _ _ _ => some h
  | .migrateAck h _ _ _ _ _ _ => some h
  | .reserved h _ => some h
  | _ => none

/-- READ_EPOCH of a fence message is its epoch; other control messages name none (R310). -/
def Msg.fenceEpoch : Msg → Nat
  | .fenceClose n _ => n
  | .fenceClosed n _ _ => n
  | .fenceApply n _ _ => n
  | .fenceApplied n _ _ => n
  | _ => 0

/-- The header of any message from part `src`: a control message has the header of R161 as well (R310). -/
def Msg.header (m : Msg) (src : Nat) : MsgHdr := m.hdr?.getD { srcPart := src, srcCluster := 0, epoch := m.fenceEpoch }

/-- Units of 64 bytes of an update entry (R197). -/
def UpdEntry.units (e : UpdEntry) : Nat := cdiv (32 + e.vals.length * (if e.vfmt = 1 then 2 else 4)) 64

/-- Body bytes of a message (R161 to R163, R197, R198, R310). Bodies without a stated layout count their fields (log entry 11). -/
def Msg.bytes : Msg → Nat
  | .lookupReq _ es => 16 * es.length
  | .lookupReply _ es => es.foldl (fun n e => n + 4 + 16 * e.slot16) 0
  | .readReq .. => 16
  | .readReply _ _ ws => 64 * ws.length
  | .write _ _ ws => 16 + 64 * ws.length
  | .writeAck .. => 0
  | .arrive .. => 16
  | .arriveAck .. => 0
  | .delta _ es => es.foldl (fun n e => n + 64 * e.units) 0
  | .deltaAck .. => 64
  | .migrateCopy _ _ _ _ _ r _ => 16 + 16 * r.slot16
  | .migrateLog _ _ _ _ _ e => 16 + 64 * e.units
  | .migrateAck .. => 16
  | .fenceClose .. => 0
  | .fenceClosed _ _ cs => 16 * cs.length
  | .fenceApply _ _ cs => 16 * cs.length
  | .fenceApplied .. => 32
  | .joinReq .. => 16
  | .joinGrant .. => 144
  | .joinDeny .. => 16
  | .memberUp _ => 16
  | .memberDown _ => 16
  | .linkDown .. => 16
  | .linkUp .. => 16
  | .dropped .. => 48
  | .reserved .. => 0

/-- COUNT (R161): the entries of a lookup batch or reply segment, else payload bytes / 64; a DELTA's is its body's (R197). -/
def Msg.count : Msg → Nat
  | .lookupReq _ es => es.length
  | .lookupReply _ es => es.length
  | .readReply _ _ ws => ws.length
  | .write _ _ ws => ws.length
  | m => m.bytes / 64

/-- The 16 bytes of a message header (R161). -/
def MsgHdr.bytes (h : MsgHdr) (kind count : Nat) : List Byte :=
  leBytes 1 kind ++ leBytes 1 (b2n h.prefetch + 2 * b2n h.redirected + 4 * b2n h.forward) ++
    leBytes 2 (h.srcPart % 1024 + h.srcCluster % 16 * 2 ^ 10) ++ leBytes 2 (h.tagSlot % 512 + h.tagSeq % 128 * 2 ^ 9) ++
    leBytes 1 count ++ leBytes 1 h.seg ++ leBytes 5 h.epoch ++ leBytes 3 0

/-- A message header read from its bytes. -/
def MsgHdr.ofBytes (bs : List Byte) : MsgHdr :=
  { prefetch := bitAt (fieldAt bs 1 1) 0, redirected := bitAt (fieldAt bs 1 1) 1, forward := bitAt (fieldAt bs 1 1) 2,
    srcPart := fieldAt bs 2 2 % 1024, srcCluster := fieldAt bs 2 2 / 1024 % 16,
    tagSlot := fieldAt bs 4 2 % 512, tagSeq := fieldAt bs 4 2 / 512, seg := fieldAt bs 7 1, epoch := fieldAt bs 8 5 }

/-- A lookup entry's 16 bytes (R162). -/
def LookupEntry.wire (e : LookupEntry) : List Byte := leBytes 2 e.table ++ leBytes 5 e.row ++ leBytes 1 0 ++ leBytes 4 e.gen ++ leBytes 4 0

/-- A lookup entry read from its bytes. -/
def LookupEntry.ofWire (bs : List Byte) : LookupEntry := ⟨fieldAt bs 0 2, fieldAt bs 2 5, fieldAt bs 8 4⟩

/-- The header of a reply entry (R163). -/
def ReplyEntry.header (r : ReplyEntry) : Nat :=
  r.holder % 1024 * 2 ^ 19 + b2n r.forwarded * 2 ^ 18 + r.tier % 4 * 2 ^ 16 + r.slot16 % 256 * 2 ^ 8 + r.estatus % 256

/-- A reply entry's bytes: its header, and the slot as stored. -/
def ReplyEntry.wire (r : ReplyEntry) : List Byte := leBytes 4 r.header ++ r.slot.take (16 * r.slot16)

/-- An update entry's bytes, padded to 64 (R197). -/
def UpdEntry.wire (e : UpdEntry) : List Byte :=
  let w := if e.vfmt = 1 then 2 else 4
  leBytes 2 e.table ++ leBytes 5 e.row ++ leBytes 1 (e.vfmt % 2 * 8 + e.rule % 8) ++ leBytes 6 e.srcSeq ++ leBytes 2 0 ++ leBytes 4 e.gen ++
    leBytes 4 e.param0 ++ leBytes 4 e.param1 ++ leBytes 4 0 ++ e.vals.flatMap (leBytes w) ++
    leBytes (64 * e.units - 32 - w * e.vals.length) 0

/-- A shard change's 16 bytes (R213). -/
def ShardChange.wire (c : ShardChange) : List Byte :=
  leBytes 2 c.table ++ leBytes 2 c.bucket ++ leBytes 2 c.owner ++ leBytes 2 c.next ++ leBytes 1 c.kind ++ leBytes 7 0

/-- The body of a message whose bytes the spec gives in full (R161 to R163, R197, R198, R213); none for the others (log entry 11). -/
def Msg.body : Msg → Option (List Byte)
  | .lookupReq _ es => some (es.flatMap LookupEntry.wire)
  | .lookupReply _ es => some (es.flatMap ReplyEntry.wire)
  | .readReq _ a n => some (leBytes 8 a ++ leBytes 4 n ++ leBytes 4 0)
  | .writeAck .. => some []
  | .arrive _ a _ => some (leBytes 8 a ++ leBytes 8 0)
  | .arriveAck .. => some []
  | .delta _ es => some (es.flatMap UpdEntry.wire)
  | .deltaAck _ st holder => some (leBytes 1 st ++ leBytes 1 0 ++ leBytes 2 (holder % 1024) ++ leBytes 60 0)
  | .fenceClose .. => some []
  | .fenceClosed _ _ cs => some (cs.flatMap ShardChange.wire)
  | .fenceApply _ _ cs => some (cs.flatMap ShardChange.wire)
  | _ => none

/-! ### Packets (R296, R297) -/

/-- Class of a message (R297). -/
def Msg.cls : Msg → Nat
  | .lookupReq h _ => if h.forward then 1 else 0
  | .lookupReply .. => 2
  | .readReq .. => 0
  | .readReply .. => 2
  | .write .. => 0
  | .writeAck .. => 2
  | .arrive .. => 0
  | .arriveAck .. => 2
  | .delta h _ => if h.forward then 1 else 0
  | .deltaAck .. => 2
  | .migrateCopy .. => 0
  | .migrateLog .. => 0
  | .migrateAck .. => 2
  | _ => 3

/-- The route header (R296). -/
def Packet.route (k : Packet) : Nat :=
  k.dest % 1024 * 2 ^ 118 + k.src % 1024 * 2 ^ 108 + k.length % 1024 * 2 ^ 98 + k.cls % 4 * 2 ^ 96 + b2n k.vcDl * 2 ^ 95 +
    b2n k.dirX * 2 ^ 94 + b2n k.dirY * 2 ^ 93 + b2n k.dirZ * 2 ^ 92 + k.partition % 16 * 2 ^ 88 + k.hops % 256 * 2 ^ 80 +
    b2n k.reversed * 2 ^ 79

/-- The first 32 bytes of a packet: route header and message header, each as it stands in memory order (R8, R296). -/
def Packet.head (k : Packet) : List Byte := leBytes 16 k.route ++ (k.msg.header k.src).bytes k.msg.kind k.msg.count

/-- What a DROPPED notice tells of the packet by its first 32 bytes: its destination, its message type and header (R310). -/
def headDest (bs : List Byte) : Nat := fieldAt bs 0 16 / 2 ^ 118 % 1024
def headKind (bs : List Byte) : Nat := fieldAt bs 16 1
def headHdr (bs : List Byte) : MsgHdr := MsgHdr.ofBytes (bs.drop 16)

/-! ### Flits (R293, R294) -/

/-- The flit header (R294). -/
def Flit.header (f : Flit) : Nat :=
  f.seq % 1024 * 2 ^ 54 + f.ack % 1024 * 2 ^ 44 + b2n f.nak * 2 ^ 43 + f.type % 4 * 2 ^ 41 + f.vc % 8 * 2 ^ 38 + f.units % 32 * 2 ^ 33 +
    b2n f.stomp * 2 ^ 32 + f.creditVc % 8 * 2 ^ 29 + f.credits % 1024 * 2 ^ 19

/-- The lane and lane slot on which wire byte `j` is sent (R293). -/
def wireLane (j : Nat) : Nat := j % 16
def laneSlot (j : Nat) : Nat := j / 16

/-- The codeword that holds information byte `b`, and the one whose symbol wire byte `j` carries (R293). -/
def infoCodeword (b : Nat) : Nat := b / 51
def wireCodeword (j : Nat) : Nat := (wireLane j + laneSlot j) % 8

/-- Wrong symbols of a received flit in codeword `w` (R293). -/
def Flit.wrong (f : Flit) (w : Nat) : Nat := (f.errs.eraseDups.filter (fun j => wireCodeword j.val = w)).length

/-- Symbols that decoding corrects: up to two in a codeword (R293, R295). -/
def Flit.corrected (f : Flit) : Nat := ((List.range 8).map (fun w => if f.wrong w ≤ 2 then f.wrong w else 0)).sum

/-- A codeword has three wrong symbols, which the code detects and cannot correct; or more, of which the spec says nothing (R293, R295). -/
def Flit.detected (f : Flit) : Bool := (List.range 8).any (fun w => f.wrong w = 3)
def Flit.beyond (f : Flit) : Bool := (List.range 8).any (fun w => 4 ≤ f.wrong w)

end Sys2Proof.Machine
end

