-- ==== Sys2Proof/Machine/Send.lean ====
section
/-! DEFINITION. Filet routing and sending (R291, R296 to R300, R305): where a packet goes, and how it enters a port. -/

namespace Sys2Proof.Machine

open Sys2Proof

/-- Coordinates of a part id (R291). -/
def coordX (p : Pool) (id : Nat) : Nat := id % p.dx
def coordY (p : Pool) (id : Nat) : Nat := id / p.dx % p.dy
def coordZ (p : Pool) (id : Nat) : Nat := id / (p.dx * p.dy)

/-- The part id of coordinates (R291). -/
def partAt (p : Pool) (x y z : Nat) : Nat := x + p.dx * (y + p.dy * z)

/-- Parts in the pool shape. -/
def poolSize (p : Pool) : Nat := p.dx * p.dy * p.dz

/-- Size of dimension `d`. -/
def dimSize (p : Pool) (d : Nat) : Nat := if d = 0 then p.dx else if d = 1 then p.dy else p.dz

/-- Dimension `d` is a ring: three or more parts and its flag set (R291). -/
def isRing (p : Pool) (d : Nat) : Bool := 3 ≤ dimSize p d && p.rings.testBit d

/-- Coordinate `d` of a part. -/
def coordOf (p : Pool) (d id : Nat) : Nat := if d = 0 then coordX p id else if d = 1 then coordY p id else coordZ p id

/-- A part with coordinate `d` replaced. -/
def withCoord (p : Pool) (d id v : Nat) : Nat :=
  if d = 0 then partAt p v (coordY p id) (coordZ p id)
  else if d = 1 then partAt p (coordX p id) v (coordZ p id)
  else partAt p (coordX p id) (coordY p id) v

/-- The neighbour across port `2 d` (positive) or `2 d + 1`, where there is one. -/
def neighbour (p : Pool) (id d : Nat) (pos : Bool) : Option Nat :=
  let n := dimSize p d
  let v := coordOf p d id
  if pos then (if v + 1 < n then some (withCoord p d id (v + 1)) else if isRing p d then some (withCoord p d id 0) else none)
  else if 0 < v then some (withCoord p d id (v - 1)) else if isRing p d then some (withCoord p d id (n - 1)) else none

/-- Port number of a direction (R289). -/
def portOf (d : Nat) (pos : Bool) : Nat := 2 * d + (if pos then 0 else 1)

/-- The port at the other end of a cable. -/
def oppositePort (q : Nat) : Nat := if q % 2 = 0 then q + 1 else q - 1

/-- The cable leaving part `id` in a direction is known to be fenced at either end (R299). -/
def linkFenced (p : Pool) (id d : Nat) (pos : Bool) : Bool :=
  let q := portOf d pos
  p.fenced.contains (id, q) ||
    (match neighbour p id d pos with
     | none => true
     | some n => p.fenced.contains (n, oppositePort q))

/-- A path of `n` hops in a direction meets no fenced link. -/
def pathClear (p : Pool) (d : Nat) (pos : Bool) : Nat → Nat → Bool
  | 0, _ => true
  | n + 1, id =>
    !linkFenced p id d pos &&
      (match neighbour p id d pos with
       | none => false
       | some m => pathClear p d pos n m)

/-- The direction a source chooses in dimension `d` from part `id` to coordinate `v` (R299); none when no path is clear. -/
def chooseDir (p : Pool) (d id v : Nat) : Option Bool :=
  let n := dimSize p d
  let a := coordOf p d id
  if a = v then some true
  else if isRing p d then
    let fwd := (v + n - a) % n
    let bwd := (a + n - v) % n
    let pref := fwd ≤ bwd
    if pathClear p d pref (if pref then fwd else bwd) id then some pref
    else if pathClear p d (!pref) (if pref then bwd else fwd) id then some (!pref)
    else none
  else
    let pos := a < v
    if pathClear p d pos (if pos then v - a else a - v) id then some pos else none

/-- The three direction bits of a packet from `src` to `dst` (R299); none where `dst` is unreachable. -/
def chooseRoute (p : Pool) (src dst : Nat) : Option (Bool × Bool × Bool) :=
  match chooseDir p 0 src (coordX p dst) with
  | none => none
  | some bx =>
    let a := withCoord p 0 src (coordX p dst)
    match chooseDir p 1 a (coordY p dst) with
    | none => none
    | some byy =>
      let b := withCoord p 1 a (coordY p dst)
      match chooseDir p 2 b (coordZ p dst) with
      | none => none
      | some bz => some (bx, byy, bz)

/-- Dimension in which a packet still has to travel from part `id`, or none at its destination (R298). -/
def routeDim (p : Pool) (id dst : Nat) : Option Nat :=
  if coordX p id ≠ coordX p dst then some 0
  else if coordY p id ≠ coordY p dst then some 1
  else if coordZ p id ≠ coordZ p dst then some 2
  else none

/-- Direction bit of a packet in dimension `d`. -/
def Packet.dir (k : Packet) (d : Nat) : Bool := if d = 0 then k.dirX else if d = 1 then k.dirY else k.dirZ

/-- Flip the direction bit of dimension `d` and mark the packet reversed (R305). -/
def Packet.reverse (k : Packet) (d : Nat) : Packet :=
  let k := { k with reversed := true, vcDl := false }
  if d = 0 then { k with dirX := !k.dirX } else if d = 1 then { k with dirY := !k.dirY } else { k with dirZ := !k.dirZ }

/-- Virtual channel of a packet (R297). -/
def Packet.vc (k : Packet) : Nat := 2 * k.cls + b2n k.vcDl

/-- Flits of a packet: 25 units each (R293). -/
def Packet.flits (k : Packet) : Nat := cdiv k.length 25

/-- Units of a message with its 16-byte header and the 16-byte route header (R161, R296). -/
def unitsOf (bodyBytes : Nat) : Nat := 2 + cdiv bodyBytes 16

/-! ### Sending flits (R294, R295, R300) -/

/-- Data flits sent and not acknowledged on a port. -/
def Port.unacked (p : Port) : Nat := (p.txLast + 1024 - p.txAcked) % 1024

/-- A port that sends data flits: ACTIVE or DRAINING (R292, R306). -/
def Port.runs (p : Port) : Bool := p.state = 4 || p.state = 5

/-- A port to which further packets may be routed (R305, R306). -/
def Port.usable (p : Port) : Bool := p.runs && !p.closing

/-- The next flit of a packet can go: its units have come in (R300). -/
def TxPacket.ready (t : TxPacket) : Bool := t.packet.length ≤ t.avail || t.sent + 25 ≤ t.avail

/-- The packet of a virtual channel whose flit may be sent now: the one begun there, else the first that waits, once the channel holds
credits for its whole length (R300). -/
def Port.flitOf (p : Port) (v : Nat) : Option TxPacket :=
  match kfind p.cur v with
  | some t => if t.ready then some t else none
  | none =>
    match p.queue.find? (fun t => t.packet.vc = v) with
    | some t => if t.ready && t.packet.length ≤ kget 0 p.credits v then some t else none
    | none => none

/-- A flit's header: the next SEQ, the current ACK, a NAK that is due, and credits of the first channel that has some to return (R294,
R295). DESIGN CHOICE: one flit carries NAK for each discard (log entry 39). -/
def Port.stamp (p : Port) (f : Flit) : Port × Flit :=
  let c := leastBelow 8 (fun v => kget 0 p.freed v ≠ 0)
  let n := match c with | some v => min 1023 (kget 0 p.freed v) | none => 0
  let f := { f with seq := (p.txLast + 1) % 1024, ack := p.rxSeq, nak := p.nakDue, creditVc := c.getD 0, credits := n }
  ({ p with nakDue := false, ackTold := p.rxSeq, sent := f :: p.sent,
            freed := match c with | some v => kset 0 p.freed v (kget 0 p.freed v - n) | none => p.freed }, f)

/-- A data flit goes out: it takes its SEQ and stays in the retry buffer (R295). -/
def Port.sendData (p : Port) (f : Flit) (k : Packet) (final : Bool) : Port :=
  let (p, f) := p.stamp { f with type := 1 }
  { p with txLast := f.seq, retry := p.retry ++ [⟨f, k, final⟩], counters := bump p.counters 0x08 1 }

/-- Send the next flit of a packet on its channel; with its first flit the packet takes credits for its whole length (R300). -/
def Port.sendFlit (p : Port) (v : Nat) (t : TxPacket) : Port :=
  let begins := (kfind p.cur v).isNone
  let n := min 25 (t.packet.length - t.sent)
  let final := decide (t.packet.length ≤ t.sent + n)
  let p := if begins then { p with queue := p.queue.erase t, credits := kput p.credits v (kget 0 p.credits v - t.packet.length) } else p
  let p := { p with cur := if final then kdel p.cur v else kput p.cur v { t with sent := t.sent + n } }
  p.sendData { seq := 0, ack := 0, type := 1, vc := v, units := n, packet := if t.sent = 0 then some t.packet else none } t.packet final

/-- The channel whose flit goes next: channels 6 and 7 first, in turn; then the other six in round robin (R300). -/
def Port.nextVc (p : Port) : Option Nat :=
  let has := fun (v : Nat) => (p.flitOf v).isSome
  match (if p.lastCtrl = 6 then [7, 6] else [6, 7]).find? has with
  | some v => some v
  | none => ((List.range 6).map (fun i => (p.lastVc + 1 + i) % 6)).find? has

/-- Send flits while there are some to send, at most `n`, a STOMP first (R305); none while 511 are unacknowledged (R295). -/
def Port.pump : Nat → Port → Port
  | 0, p => p
  | n + 1, p =>
    if !p.runs || 511 ≤ p.unacked then p
    else
      match p.stompDue with
      | k :: rest => Port.pump n (({ p with stompDue := rest } : Port).sendData
          { seq := 0, ack := 0, type := 1, vc := k.vc, units := 1, stomp := true } k false)
      | [] =>
      match p.nextVc with
      | none => p
      | some v =>
        match p.flitOf v with
        | none => p
        | some t => Port.pump n ((if 6 ≤ v then { p with lastCtrl := v } else { p with lastVc := v } : Port).sendFlit v t)

/-- An idle flit has something to tell: an ACK, a NAK or credits (R294). -/
def Port.owes (p : Port) : Bool := p.nakDue || p.ackTold ≠ p.rxSeq || (List.range 8).any (fun v => kget 0 p.freed v ≠ 0)

/-- Send idle flits while there is something to tell, at most `n`. -/
def Port.idle : Nat → Port → Port
  | 0, p => p
  | n + 1, p => if p.runs && p.owes then Port.idle n (p.stamp { seq := 0, ack := 0, type := 0 }).1 else p

/-- What a port sends when it is its turn: data flits, and idle flits for what is still to be told. -/
def Port.send (p : Port) : Port := Port.idle 9 (Port.pump 512 p)

/-- Put a packet into an output port. -/
def State.enqueuePort (s : State) (q : Nat) (t : TxPacket) : State := s.updPort q (fun p => ({ p with queue := p.queue ++ [t] } : Port).send)

/-- Deliver a packet to this part: it waits for its message command (log entry 11); one of a reserved type is discarded (R161). -/
def State.deliver (s : State) (k : Packet) : State :=
  match k.msg with
  | .reserved .. => s.logEvent 0x0A
  | _ => { s with pool := { s.pool with inbox := s.pool.inbox ++ [k] } }

/-- Update VC_DL for the hop through dimension `d`: 0 on a turn, 1 across a wrap cable (R298). -/
def hopVc (p : Pool) (id d : Nat) (pos turned dl : Bool) : Bool :=
  let v := coordOf p d id
  let wraps := isRing p d && (if pos then v + 1 = dimSize p d else v = 0)
  wraps || (dl && !turned)

/-- The output port of a packet from this part towards its destination through dimension `d`, and the packet as it goes on (R298, R305):
onwards, back around the ring where the port is not usable, or none where it has to be discarded. -/
def State.route (s : State) (k : Packet) (d : Nat) (turned : Bool) : Option (Nat × Packet) :=
  let usable := fun (pos : Bool) => (s.port (portOf d pos)).usable
  let go := fun (k : Packet) (turned dl : Bool) =>
    some (portOf d (k.dir d), { k with hops := k.hops + 1, vcDl := hopVc s.pool s.pool.partId d (k.dir d) turned dl })
  if usable (k.dir d) then go k turned k.vcDl
  else if k.reversed || !isRing s.pool d || !usable (!k.dir d) then none
  else go (k.reverse d) true false

/-- Send a packet out of this part as `route` says; a reversal is counted at the port that it turns away from (R305, R316). -/
def State.routeOut (s : State) (k : Packet) (d : Nat) (turned : Bool) : Option State :=
  match s.route k d turned with
  | none => none
  | some (o, k') =>
    let s := if k'.reversed && !k.reversed then s.updPort (portOf d (k.dir d)) (fun p => { p with counters := bump p.counters 0x30 1 }) else s
    some (s.enqueuePort o { packet := k', avail := k'.length })

/-- The packet of a message from this part, or none where no permitted path is clear (R299). -/
def State.packet? (s : State) (dest partition : Nat) (m : Msg) : Option Packet :=
  match chooseRoute s.pool s.pool.partId dest with
  | none => none
  | some (bx, byy, bz) =>
    some { dest := dest, src := s.pool.partId, length := unitsOf m.bytes, cls := m.cls, dirX := bx, dirY := byy, dirZ := bz,
           partition := partition, msg := m }

/-- Send a message: to this part itself, or through a port (R298). None where the destination is unreachable (R299). -/
def State.send? (s : State) (dest partition : Nat) (m : Msg) : Option State :=
  if dest = s.pool.partId then
    some (s.deliver { dest := dest, src := dest, length := unitsOf m.bytes, cls := m.cls, partition := partition, msg := m })
  else
    match s.packet? dest partition m with
    | none => none
    | some k =>
      match routeDim s.pool s.pool.partId dest with
      | none => none
      | some d => (s.routeOut k d false).map (fun t => { t with pool := { t.pool with tx := k :: t.pool.tx } })

/-- Send a message whose loss the sender need not act on: replies and control messages that are repeated or timed out
(R168, R307). -/
def State.sendMsg (s : State) (dest partition : Nat) (m : Msg) : State := (s.send? dest partition m).getD s

/-- Discard a packet at a port with a DROPPED notice to the requester, and count it there; CTRL packets cause none (R305, R307, R316). -/
def State.dropPacket (s : State) (k : Packet) (uncertain : Bool) (port : Option Nat) : State :=
  if k.cls = 3 then s
  else
    let s := match port with
      | none => s
      | some q => s.updPort q (fun p => { p with counters := bump p.counters 0x38 1 })
    s.sendMsg (if k.cls = 2 then k.dest else k.src) 0 (.dropped uncertain k.head)

/-- Send a control message to every member but this part, and to this part as well where `self` holds. -/
def State.broadcast (s : State) (m : Msg) (self : Bool) : State :=
  (bitList 1024 s.pool.members).foldl (fun s p => if p = s.pool.partId && !self then s else s.sendMsg p 0 m) s

/-- Take the delivered packet with a message out of the inbox. -/
def State.takeMsg (s : State) (m : Msg) : State :=
  match s.pool.inbox.find? (fun k => k.msg = m) with
  | none => s
  | some k => { s with pool := { s.pool with inbox := s.pool.inbox.erase k } }

end Sys2Proof.Machine
end

