-- ==== Sys2Proof/Machine/Access.lean ====
section
/-! DEFINITION. Translation of virtual addresses (R432 to R446), accesses to local, remote and host memory (R148, R594), and the
faults they open. -/

namespace Sys2Proof.Machine

open Sys2Proof

/-- Why a command's work stops short: it has to wait and its row is issued again, or it fails with a status. -/
inductive Stop where
  | wait
  | fail (status : Nat)
deriving DecidableEq, Repr

/-- Work that may stop; what it did to the state before stopping stands. -/
abbrev CM (α : Type) := ExceptT Stop (StateM State) α

/-- Who makes an access: core (128 the CP, 129 SELVAGE_SEAL, `Who.update` an UPDATE, `Who.prefetcher` the prefetcher), unit of R445,
command key and context. -/
structure Who where
  core : Nat := 128
  unit : Nat := 3
  cmd : Nat := 0
  isFn : Bool := false
  ctx : Nat
  /-- Whose remote reads are kept together: 0 sequencer or CP, 1 gather queue, 2 vector queue, 3 matrix queue, 4 move queue,
  5 prefetcher. -/
  lane : Nat := 0
  /-- The cluster whose units it uses where it is no core's (log entry 19). -/
  home : Nat := 0
  /-- Virtual address of the transfer at hand (R451). -/
  va : Nat := 0
deriving DecidableEq, Repr

/-- An UPDATE's reads, by its command; `home` is the cluster of its exchange unit (R193). -/
def Who.update (cmd ctx home : Nat) : Who := { core := 256 + cmd, cmd := cmd, ctx := ctx, home := home }

/-- The prefetcher's reads for a command's hints, through cluster `home`. -/
def Who.prefetcher (cmd ctx home : Nat) : Who := { core := 2 ^ 64 + 16 * cmd + home, cmd := cmd, ctx := ctx, lane := 5, home := home }

/-- Firmware's own accesses. -/
def Who.firmware (w : Who) : Bool := w.core / 128 = 1

/-- The access as a fault keeps it (R444). -/
def Who.access (w : Who) : FaultAccess := ⟨w.core, w.unit, w.cmd, w.lane⟩

/-- UNIT of a record about the access (R486): the engine of a core, by its lane; the exchange unit for an UPDATE, the Bobbin for the
prefetcher, and the CP. -/
def Who.rasUnit (w : Who) : Nat :=
  if w.core < 128 then nthD 1 [1, 2, 4, 3, 2] w.lane else if w.firmware then 0x0D else if w.lane = 5 then 0x07 else 0x08

/-- The record of poison that an access consumes (R469, R486). -/
def Who.consumed (w : Who) (addr blockId : Nat) : RasEvent :=
  { event := 0, unit := w.rasUnit, core := if w.core < 128 then w.core else 0xFF,
    cluster := if w.core < 128 then clusterOf w.core else 0xFF, ctx := if w.isFn then 0xFFFF else w.ctx, addr := addr, blockId := blockId,
    queue := if w.firmware then 0xFFFF else w.cmd / 2 ^ 48, seq := if w.firmware then 0 else w.cmd % 2 ^ 48 }

/-- The translation that a transfer goes through. -/
def Who.via (w : Who) : Option (Bool × Nat × Nat) := some (w.isFn, w.ctx, w.va)

/-- Where a translated address lies: a pool address or a host address. -/
inductive Place where
  | dev (pa : Nat)
  | host (hpa : Nat)
deriving DecidableEq, Repr

/-- Outcome of a translation: a place, a stop with cause and level (R446), or a poisoned table (R436). -/
inductive XRes where
  | ok (p : Place)
  | stop (cause level : Nat) (fatal : Bool)
  | poison (addr : Nat)
deriving DecidableEq, Repr

/-- Outcome of a walk: the leaf's entry, page and size, or a stop. -/
inductive WalkRes where
  | leaf (entry va size level : Nat)
  | stop (cause level : Nat)
  | poison (addr : Nat)
deriving DecidableEq, Repr

/-- Shift of a level's index, and its entries (R434). -/
def levelShift (l : Nat) : Nat := if l = 2 then 40 else if l = 1 then 30 else 25
def levelCount (l : Nat) : Nat := if l = 2 then 4096 else if l = 1 then 1024 else 32

/-- An entry with VALID = 1 that a walk refuses with TABLE_ERROR at level `l` (R434 to R436). -/
def entryBad (e l : Nat) : Bool :=
  let kind := bitsOf e 3 2
  let addr := bitsOf e 47 8 * 256
  kind = 3 || bitsOf e 63 48 ≠ 0 || bitAt e 1 || bitAt e 7 ||
    (if kind = 0 then l = 0 || bitsOf e 6 4 ≠ 0 || 2 ^ 38 ≤ addr || addr % (levelCount (l - 1) * 8) ≠ 0
     else if kind = 1 then l = 2 || addr % 2 ^ levelShift l ≠ 0
     else l = 2 || addr ≠ 0)

/-- A walk from a table at level `l` (R434 to R436). -/
def State.walkFrom (s : State) (va : Nat) : Nat → Nat → WalkRes
  | l, table =>
    let a := table + 8 * (va / 2 ^ levelShift l % levelCount l)
    let e := leNat (s.devBytes a 8)
    if s.poisoned a 8 then .poison a
    else if !bitAt e 0 then .stop 1 l
    else if entryBad e l then .stop 4 l
    else if bitsOf e 3 2 ≠ 0 then .leaf e (va / 2 ^ levelShift l * 2 ^ levelShift l) (2 ^ levelShift l) l
    else
      match l with
      | 0 => .stop 4 0
      | l' + 1 => State.walkFrom s va l' (bitsOf e 47 8 * 256)

/-- Root of a translation context: none means no table (R432). -/
def State.rootOf (s : State) (isFn : Bool) (ctx : Nat) : Option Nat :=
  if isFn then (match kget 0 s.xlt.fnRoot ctx with | 0 => none | r => some r)
  else kfind s.xlt.ctxRoot ctx

/-- A counter of R458. -/
def State.xltCount (s : State) (off : Nat) : State :=
  { s with xlt := { s.xlt with counters := bump s.xlt.counters off 1 } }

/-- Function whose requester id an ATS request carries, and its PASID (R432, R437; log entry 9). -/
def State.requester (s : State) (isFn : Bool) (ctx : Nat) : Nat × Option Nat :=
  if isFn then (ctx, none) else (1 + (s.ctx ctx).part, kfind s.xlt.ctxPasid ctx)

/-- Put an entry first in a cache of `cap` entries (R440). -/
def useTlb (cap : Nat) (l : List TlbEntry) (e : TlbEntry) : List TlbEntry := (e :: l.erase e).take cap

/-- The cached entry that covers an address. -/
def findTlb (l : List TlbEntry) (isFn : Bool) (ctx va : Nat) : Option TlbEntry :=
  l.find? (fun e => e.isFn = isFn && e.ctx = ctx && e.va ≤ va && va < e.va + e.size)

/-- Set of the cluster cache for a page of a size (R440). -/
def clusterSet (ctx va size : Nat) : Nat := (va / size % 128) ^^^ (ctx % 128)

/-- Set of the device translation cache for a translation of a size (R440; log entry 16). -/
def deviceSet (isFn : Bool) (ctx va size : Nat) : Nat := Config.deviceCacheSet (if isFn then 256 + ctx else ctx) (va / size) % 64

/-- Put a translation first in its set of the device translation cache (R440). -/
def State.cacheHost (s : State) (e : TlbEntry) : State :=
  { s with xlt := { s.xlt with devTlb := kmod [] s.xlt.devTlb (deviceSet e.isFn e.ctx e.va e.size) (fun l => useTlb 8 l e) } }

/-- One ATS translation, through the device translation cache (R437, R440); an error cause where the host gives none. -/
def State.ats (s : State) (isFn : Bool) (ctx va : Nat) : State × Except Nat HostPage :=
  let (f, pasid) := s.requester isFn ctx
  if !isFn && pasid = none then (s, .error 7)
  else
    let look := fun (size : Nat) => findTlb (kget [] s.xlt.devTlb (deviceSet isFn ctx va size)) isFn ctx va
    match (look (2 ^ 30)).or (look (2 ^ 21)) with
    | some e =>
      match e.host with
      | some h => (s.cacheHost e, .ok h)
      | none => (s, .error 5)
    | none =>
      let s := s.xltCount 0x48
      match s.host.pages.find? (fun h => h.fn = f && h.pasid = pasid && h.va ≤ va && va < h.va + h.size) with
      | none => (s, .error 5)
      | some h =>
        match h.cut va with
        | none => (s, .error 6)
        | some h => (s.cacheHost ⟨isFn, ctx, h.va, h.size, 0, some h, 0⟩, .ok h)

/-- The translation of a leaf by walking, with its host translation (R436, R437); nothing is cached where it fails. -/
def State.walk (s : State) (isFn : Bool) (ctx va : Nat) : State × Except XRes TlbEntry :=
  match s.rootOf isFn ctx with
  | none => (s, .error (.stop 1 2 false))
  | some root =>
    let s := s.xltCount 0x40
    match s.walkFrom va 2 root with
    | .poison a => (s, .error (.poison a))
    | .stop c l => (s, .error (.stop c l false))
    | .leaf e pva size l =>
      if bitsOf e 3 2 = 1 then (s, .ok ⟨isFn, ctx, pva, size, e, none, l⟩)
      else
        match s.ats isFn ctx va with
        | (s, .error c) => (s, .error (.stop c 3 false))
        | (s, .ok h) => (s, .ok ⟨isFn, ctx, max pva h.va, min size h.size, e, some h, l⟩)

/-- Permission check and address of an access under a leaf (R437, R438). -/
def applyLeaf (e : TlbEntry) (va : Nat) (wr : Bool) : XRes :=
  let denied := if wr then 3 else 2
  if !bitAt e.entry (if wr then 5 else 4) then .stop denied e.level false
  else
    match e.host with
    | none => .ok (.dev (bitsOf e.entry 47 8 * 256 + (va - e.va)))
    | some h =>
      if !(if wr then h.write else h.read) then .stop denied 3 false
      else .ok (.host (h.hpa + (va - h.va)))

/-- Base of the window aperture in a context's address space (R526), and of its backing (R525). -/
abbrev apertureBase : Nat := 0xFFFFFFFF00000
abbrev windowBacking : Nat := 0x3FF0000000

/-- An aperture access (R526): byte-stream reads only. -/
def State.aperture (s : State) (ctx va : Nat) (wr stream : Bool) : XRes :=
  if wr then .stop 3 3 true
  else if !stream then .stop 4 3 true
  else .ok (.dev (s.pool.partId * devSize + windowBacking + ctx * 2 ^ 20 + (va - apertureBase)))

/-- Translate for the CP: function contexts and control requests, which use no core or cluster cache. -/
def State.xlateCp (s : State) (isFn : Bool) (ctx va : Nat) (wr stream : Bool) : State × XRes :=
  if !isFn && apertureBase ≤ va then (s, s.aperture ctx va wr stream)
  else
    match s.walk isFn ctx va with
    | (s, .error r) => (s, r)
    | (s, .ok e) => (s, applyLeaf e va wr)

/-- The leaf of an address in the cache of cluster `k`, or by a walk of that cluster's walker (R440, R441). -/
def State.clusterLeaf (s : State) (k ctx va : Nat) : State × Except XRes TlbEntry :=
  let look := fun (size : Nat) => findTlb (kget [] s.xlt.clusterTlb (k * 128 + clusterSet ctx va size)) false ctx va
  let use := fun (s : State) (e : TlbEntry) => { s with xlt := { s.xlt with
    clusterTlb := kmod [] s.xlt.clusterTlb (k * 128 + clusterSet e.ctx e.va e.size) (fun l => useTlb 8 l e) } }
  match ((look (2 ^ 25)).or (look (2 ^ 30))).or (look (2 ^ 21)) with
  | some e => (use s e, .ok e)
  | none =>
    match s.walk false ctx va with
    | (s, .error r) => (s, .error r)
    | (s, .ok e) => (use s e, .ok e)

/-- Translate for a core: its cache, its cluster's cache, then a walk (R440, R441). -/
def State.xlateCore (s : State) (c ctx va : Nat) (wr stream : Bool) : State × XRes :=
  let use := fun (s : State) (e : TlbEntry) => { s with xlt := { s.xlt with coreTlb := kmod [] s.xlt.coreTlb c (fun l => useTlb 64 l e) } }
  if apertureBase ≤ va then (s, s.aperture ctx va wr stream)
  else
    match findTlb (kget [] s.xlt.coreTlb c) false ctx va with
    | some e => (use s e, applyLeaf e va wr)
    | none =>
      match s.clusterLeaf (clusterOf c) ctx va with
      | (s, .error r) => (s, r)
      | (s, .ok e) => (use s e, applyLeaf e va wr)

/-- Translate for an exchange unit or the prefetcher of cluster `k`: the cluster's cache, then a walk (R440, R441). -/
def State.xlateUnit (s : State) (k ctx va : Nat) (wr stream : Bool) : State × XRes :=
  if apertureBase ≤ va then (s, s.aperture ctx va wr stream)
  else
    match s.clusterLeaf k ctx va with
    | (s, .error r) => (s, r)
    | (s, .ok e) => (s, applyLeaf e va wr)

/-- Translate an access of anyone (R432). -/
def State.xlate (s : State) (w : Who) (va : Nat) (wr stream : Bool) : State × XRes :=
  if w.core < 128 then s.xlateCore w.core w.ctx va wr stream
  else if w.firmware then s.xlateCp w.isFn w.ctx va wr stream
  else s.xlateUnit w.home w.ctx va wr stream

/-! ### Fault records and outstanding faults (R443 to R447) -/

/-- Bytes 0 to 59 of a fault record with PHASE clear (R445). -/
def faultBytes (kind flags status ctx units part cause level va cores id queue partId seq time : Nat) : List Byte :=
  leBytes 1 kind ++ leBytes 1 flags ++ leBytes 2 status ++ leBytes 1 ctx ++ leBytes 1 (units * 16 + part) ++ leBytes 1 cause ++
    leBytes 1 level ++ leBytes 8 va ++ leBytes 16 cores ++ leBytes 4 id ++ leBytes 2 queue ++ leBytes 2 partId ++
    leBytes 8 seq ++ leBytes 8 time ++ leBytes 4 0

/-- Add a record to the pending batch; a NOTICE beyond 256 is discarded and counted (R447). -/
def State.pendRecord (s : State) (r : FaultRec) : State :=
  if r.kind = 3 && 256 ≤ s.xlt.batch.length then { s with xlt := { s.xlt with dropped := satAdd 16 s.xlt.dropped 1 } }
  else { s with xlt := { s.xlt with batch := s.xlt.batch ++ [r],
                                    batchStart := if s.xlt.batch.isEmpty then s.refCount else s.xlt.batchStart } }

/-- A pending record's bytes: a PAGE record's are those of its fault while it is outstanding (R444, R445). -/
def State.faultRecBytes (s : State) (r : FaultRec) : List Byte :=
  match s.xlt.faults.find? (fun f => r.kind = 1 && f.id = r.faultId) with
  | none => r.bytes
  | some f =>
    let flags := b2n f.rd + b2n f.wr * 2 + b2n f.pri * 4 + b2n f.host * 8 + b2n f.merged * 16
    faultBytes 1 flags 0 f.ctx f.units (s.ctx f.ctx).part f.cause f.level f.va f.cores f.id f.queue s.pool.partId f.seq f.time

/-- Close outstanding faults; a record that still waits in the batch keeps what it would have said. -/
def State.closeFaults (s : State) (p : XFault → Bool) : State :=
  { s with xlt := { s.xlt with
      batch := s.xlt.batch.map (fun r => { r with bytes := s.faultRecBytes r }),
      faults := s.xlt.faults.filter (fun f => !p f) } }

/-- A status reported through the fault batch with its subject (R445). -/
def State.faultNotice (s : State) (ctx status subject queue seq : Nat) : State :=
  let p := (s.ctx ctx).part
  s.pendRecord ⟨3, [p], 0, faultBytes 3 0 status ctx 0 p 0 0 subject 0 0 queue s.pool.partId seq s.refCount⟩

/-- Core mask of an access. -/
def Who.mask (w : Who) : Nat := if w.core < 128 then 2 ^ w.core else 0

/-- Page of an access that stopped: the level's leaf size, at most 1 GiB (log entry 20); the leaf's page where no device walk stopped it,
at level 0b11 (R445). -/
def State.faultPage (s : State) (ctx va level : Nat) : Nat × Nat :=
  let at' := fun (size : Nat) => (va / size * size, size)
  match level with
  | 0 => at' (2 ^ 25)
  | 3 =>
    match (s.rootOf false ctx).map (s.walkFrom va 2) with
    | some (.leaf _ page size _) => (page, size)
    | _ => at' (2 ^ 25)
  | _ => at' (2 ^ 30)

/-- The HOST flag of a record: the access stopped at a HOST leaf, in its own permissions or at the host's translation (R445). -/
def State.hostFlag (s : State) (ctx va cause : Nat) : Bool :=
  cause = 5 || cause = 6 || cause = 7 ||
    ((cause = 2 || cause = 3) && va < apertureBase && (match s.rootOf false ctx with
      | none => false
      | some root => match s.walkFrom va 2 root with
        | .leaf e _ _ _ => bitsOf e 3 2 = 2
        | _ => false))

/-- A FATAL record for an access (R443, R445). -/
def State.fatalRecord (s : State) (w : Who) (va cause level : Nat) (wr : Bool) : State :=
  let p := (s.ctx w.ctx).part
  let flags := (if wr then 2 else 1) + (if s.hostFlag w.ctx va cause then 8 else 0)
  s.pendRecord ⟨2, [p], 0, faultBytes 2 flags stPageFaultFatal w.ctx (2 ^ w.unit) p cause level va w.mask 0
    (w.cmd / 2 ^ 48) s.pool.partId (w.cmd % 2 ^ 48) s.refCount⟩

/-- Join an access to an outstanding fault (R444); before its record is written the record gains the core, unit and kind. -/
def joinFault (f : XFault) (w : Who) (wr : Bool) : XFault :=
  if f.accesses.contains w.access then f
  else
    let f := { f with accesses := f.accesses ++ [w.access] }
    if f.written then f
    else { f with merged := true, units := f.units ||| 2 ^ w.unit, cores := f.cores ||| w.mask, rd := f.rd || !wr, wr := f.wr || wr }

/-- The outstanding fault of the page that an address lies in (R444). -/
def State.faultAt (s : State) (ctx va : Nat) : Option XFault :=
  s.xlt.faults.find? (fun f => f.ctx = ctx && f.page ≤ va && va < f.page + f.size)

/-- Open or join an outstanding fault (R444); at 1,024 faults the access only stalls. The page request that led to it is settled. -/
def State.openFault (s : State) (w : Who) (va cause level : Nat) (wr pri : Bool) : State :=
  let (page, size) := s.faultPage w.ctx va level
  match s.faultAt w.ctx va with
  | some f =>
    let s := if f.accesses.contains w.access then s else s.xltCount 0x58
    { s with xlt := { s.xlt with faults := s.xlt.faults.map (fun g => if g.id = f.id then joinFault g w wr else g) } }
  | none =>
    if 1024 ≤ s.xlt.faults.length then s
    else
      let id := s.xlt.nextFault
      let f : XFault := { id := id, ctx := w.ctx, va := va, page := page, size := size, cause := cause, level := level, rd := !wr,
                          wr := wr, pri := pri, host := s.hostFlag w.ctx va cause, merged := false,
                          units := 2 ^ w.unit, cores := w.mask, queue := w.cmd / 2 ^ 48, seq := w.cmd % 2 ^ 48,
                          time := s.refCount, written := false, accesses := [w.access] }
      let s := s.xltCount 0x50
      let s := { s with xlt := { s.xlt with faults := s.xlt.faults ++ [f], nextFault := (id + 1) % 2 ^ 32,
                                            priFailed := s.xlt.priFailed.filter (· ≠ (w.ctx, va / 2 ^ 21 * 2 ^ 21)) } }
      s.pendRecord ⟨1, [], id, []⟩

/-- What an access that stopped does, by the class of its requester (R443, R526). A prefetch is dropped, with no record. -/
def deny {α : Type} (w : Who) (va cause level : Nat) (wr fatal : Bool) : CM α := do
  let s ← get
  if w.firmware || w.lane = 5 then throw (.fail stPageFaultFatal)
  else if !(s.ctx w.ctx).job || fatal then
    set (s.fatalRecord w va cause level wr)
    throw (.fail stPageFaultFatal)
  else
    let page := va / 2 ^ 21 * 2 ^ 21
    let key := (w.ctx, page)
    if cause = 5 && (s.faultAt w.ctx va).isNone && !s.xlt.priFailed.contains key then
      if s.xlt.priGroups.contains key || 256 ≤ s.xlt.priGroups.length then throw .wait
      else
        set { s with xlt := { s.xlt with priGroups := s.xlt.priGroups ++ [key] }, host := { s.host with pri := key :: s.host.pri } }
        throw .wait
    else
      set (s.openFault w va cause level wr (cause = 5))
      throw .wait

/-- A page that a PAGE_MIGRATE is moving (R449). -/
def State.moving (s : State) (ctx va : Nat) : Option PageMove :=
  s.xlt.moves.find? (fun m => m.ctx = ctx && m.page ≤ va && va < m.page + m.size)

/-- Translate an access of a command, or stop it (R443, R449). -/
def place (w : Who) (va : Nat) (wr stream : Bool) : CM Place := do
  let s ← get
  match if w.isFn || apertureBase ≤ va then none else s.moving w.ctx va with
  | some m =>
    let level := if m.size = 2 ^ 30 then 1 else 0
    if w.firmware then throw .wait
    else if w.lane = 5 then throw (.fail stPageFaultFatal)
    else
      set (s.openFault w va 1 level wr false)
      throw .wait
  | none =>
    match s.xlate w va wr stream with
    | (s, .ok p) =>
      set { s with xlt := { s.xlt with priFailed := s.xlt.priFailed.filter (· ≠ (w.ctx, va / 2 ^ 21 * 2 ^ 21)) } }
      return p
    | (s, .poison a) =>
      set (s.consume (w.consumed (s.pool.partId * devSize + a) 0))
      throw (.fail stPoisonConsumed)
    | (s, .stop c l fatal) =>
      set s
      deny w va c l wr fatal

/-! ### Remote accesses (R148, R159) -/

/-- Cluster whose exchange unit carries a requester's remote traffic; the CP uses cluster 0's (log entry 19). -/
def Who.cluster (w : Who) : Nat := if w.core < 128 then clusterOf w.core else w.home

/-- A free outstanding slot of an exchange unit (R159). -/
def Exchange.freeSlot (x : Exchange) : Option Nat := leastBelow 512 (fun i => (kfind x.slots i).isNone)

/-- Account that a requester's traffic is charged to (R171): its context's partition for a core, for the prefetcher (R137) and for an
update command; pool service for firmware's other accesses (log entry 45). -/
def State.account (s : State) (w : Who) : Nat := if w.firmware then 16 else (s.ctx w.ctx).part

/-- Charge bytes to a bucket (R172). -/
def Exchange.charge (x : Exchange) (key bytes : Nat) : Exchange := { x with tokens := kput x.tokens key (kget 0 x.tokens key - bytes) }

/-- A bucket holds the bytes of a message. DESIGN CHOICE: a message longer than the bucket's depth of 8 KiB goes once the bucket is full
(R172; log entry 45). -/
def Exchange.holds (x : Exchange) (key bytes : Nat) : Bool := decide (((min bytes 8192 : Nat) : Int) ≤ kget 0 x.tokens key)

/-- Bucket of a batch at its exchange unit: its partition's REMOTE, or pool service (R171). -/
def Batch.bucket (b : Batch) : Nat := if b.part < 16 then bucketKey b.part 2 else bucketKey 16 0

/-- An outstanding slot is taken by what a message of `bytes` bytes asks, charged to a bucket (R159, R172). -/
def Exchange.occupy (x : Exchange) (i : Nat) (o : OutSlot) (key bytes : Nat) : Exchange :=
  let x := x.charge key bytes
  { x with slots := kput x.slots i o, acct := kput x.acct i key }

/-- Partitions whose cores in cluster `k` have writes to another part that wait to be sent. -/
def State.writesWaiting (s : State) (k : Nat) : List Nat :=
  (s.cores.filter (fun e => e.1 < 128 && clusterOf e.1 = k && !e.2.wqueue.isEmpty)).map (fun e => (s.ctx e.2.ctx).part)

/-- A demand request of a partition's REMOTE class waits at an exchange unit: a batch, or a write of a core (R137, R159). -/
def State.demandWaits (s : State) (k p : Nat) : Bool :=
  ((s.exch k).round ++ (s.exch k).closed).any (fun d => !d.prefetch && d.part = p) || (s.writesWaiting k).contains p

/-- Send a request message of kind 1 to 3 under an outstanding slot (R159, R171, R172); it waits for a slot and for tokens, and a prefetch
waits for demand (R137). -/
def State.request (s : State) (w : Who) (kind dest addr len : Nat) (mk : MsgHdr → Msg) : Except Stop State :=
  let k := w.cluster
  let x := s.exch k
  let p := s.account w
  match x.freeSlot with
  | none => .error .wait
  | some i =>
    let h : MsgHdr := { srcPart := s.pool.partId, srcCluster := k, tagSlot := i, tagSeq := kget 0 x.tagSeq i }
    let m := mk h
    let b : Batch := { owner := dest, part := p, epoch := 0, prefetch := false, redirected := false, entries := [], opened := 0,
                       timeout := max 1 x.replyTimeout }
    if !x.holds b.bucket (16 + m.bytes) || (w.lane = 5 && s.demandWaits k p) then .error .wait
    else
      let slot : OutSlot := { kind := kind, batch := b, sent := s.refCount, addr := addr, len := len, cmd := w.cmd, core := w.core,
                              via := w.via }
      match (s.updExch k (fun x => x.occupy i slot b.bucket (16 + m.bytes))).send? dest (p % 16) m with
      | none => .error (.fail stLinkFenced)
      | some s => .ok s

/-- Send a message of pool service through unit `k` (R171, R172): at once where its bucket holds the bytes and none waits before it; else
it waits in the unit, in order. A message to this part itself does not pass the unit. -/
def State.serviceSend (s : State) (k dest : Nat) (m : Msg) : State :=
  let l := kget [] s.outbox k
  if dest = s.pool.partId then s.sendMsg dest 0 m
  else if l.isEmpty && (s.exch k).holds (bucketKey 16 0) (16 + m.bytes) then
    (s.updExch k (fun x => x.charge (bucketKey 16 0) (16 + m.bytes))).sendMsg dest 0 m
  else { s with outbox := kput s.outbox k (l ++ [⟨dest, m⟩]) }

/-- Messages of pool service that wait at unit `k` go out while its bucket holds them, at most `n` (R172). -/
def State.pumpOutbox (k : Nat) : Nat → State → State
  | 0, s => s
  | n + 1, s =>
    match kget [] s.outbox k with
    | [] => s
    | o :: rest =>
      if (s.exch k).holds (bucketKey 16 0) (16 + o.msg.bytes) then
        State.pumpOutbox k n ((({ s with outbox := kset [] s.outbox k rest } : State).updExch k
          (fun x => x.charge (bucketKey 16 0) (16 + o.msg.bytes))).sendMsg o.dest 0 o.msg)
      else s

/-- Whether a part is a member of the pool (R309). -/
def State.member (s : State) (p : Nat) : Bool := p < 1024 && s.pool.members.testBit p

/-- Lines of a transfer's request that a core still waits for. -/
def Core.awaits (k : Core) (o : OutSlot) : Bool :=
  k.rpend.any (fun l => o.addr / 64 ≤ l % 2 ^ 60 && l % 2 ^ 60 < o.addr / 64 + cdiv o.len 64)

/-- A read or write of no core, firmware's, an UPDATE's or the prefetcher's, has failed with a status; one that nobody waits for has no
effect. -/
def State.failOther (s : State) (o : OutSlot) (st : Nat) : State :=
  match kfind s.cores o.core with
  | none => s
  | some k =>
    if o.kind = 2 then s.updCore o.core (fun q => { q with wpend := q.wpend - 1, rfail := st })
    else if k.awaits o then s.updCore o.core (fun q => { q with rfail := st })
    else s

/-! ### Reading lines -/

/-- A line of host memory (R594): bytes as they stand, with CXL poison. -/
def State.hostLine (s : State) (a : Nat) : WireWord :=
  { data := s.hostBytes a 64, poison := kget false s.host.poison (a / 64) }

/-- A codeword of this part as a message carries it. -/
def State.devLine (s : State) (a : Nat) : WireWord :=
  let m := s.cwMeta a
  { data := s.devBytes (a / 64 * 64) 64, poison := m.poison, ties := m.ties, kind := m.kind, pos := m.pos, frag := m.frag }

/-- One 64-byte line at a pool address, of a transfer that still needs `ahead` bytes (R148). Remote lines are asked for up to 4 KiB
at a time (log entry 19) and stay in the core's buffer until its descriptor ends. -/
def poolLine (w : Who) (pa ahead : Nat) : CM WireWord := do
  let s ← get
  if pa / devSize = s.pool.partId then
    let a := pa % devSize
    set ((s.dramCharge (bucketKey (s.account w) 0) a 1).readCodeword (a / 64))
    return (← get).devLine a
  else if !s.member (pa / devSize) then throw (.fail stPartLeftPool)
  else
    let k := s.core w.core
    let line := w.lane * 2 ^ 60 + pa / 64
    match kfind k.rbuf line with
    | some v => return v
    | none =>
      if k.rfail ≠ 0 then throw (.fail k.rfail)
      else if k.rpend.contains line then throw .wait
      else
        let len := max 64 (min (cdiv ahead 64 * 64) (4096 - pa % 4096))
        match s.request w 1 (pa / devSize) pa len (fun h => .readReq h pa len) with
        | .error e => throw e
        | .ok s =>
          set (s.updCore w.core (fun k => { k with rpend := k.rpend ++ (List.range (len / 64)).map (· + line) }))
          throw .wait

/-- One 64-byte line at a virtual address, of a transfer that still needs `ahead` bytes; with whether it is host memory. -/
def readLine (w : Who) (va ahead : Nat) (stream : Bool) : CM (WireWord × Bool) := do
  match ← place w va false stream with
  | .host h => return ((← get).hostLine h, true)
  | .dev pa => return (← poolLine { w with va := va } pa ahead, false)

/-- The lines of an area in order, up to the first that stops. -/
def readLines (w : Who) (stream : Bool) : Nat → Nat → CM (List (WireWord × Bool))
  | _, 0 => return []
  | va, n + 1 => do
    let x ← readLine w va (64 * (n + 1)) stream
    let xs ← readLines w stream (va + 64) n
    return x :: xs

/-- A byte stream read: the bytes, with whether a line was poisoned and whether one carried TIES_AWAY. -/
def readStream (w : Who) (va n : Nat) : CM (List Byte × Bool × Bool) := do
  if n = 0 then return ([], false, false)
  else
    let first := va / 64 * 64
    let xs ← readLines w true first ((va + n - 1) / 64 - va / 64 + 1)
    let bs := xs.flatMap (fun x => x.1.data)
    return ((bs.drop (va - first)).take n, xs.any (·.1.poison), xs.any (·.1.ties))

/-- Outcome of checking a block's words against its tag (R464): 0 pass, 1 mismatch, 2 poison, 3 all plain. -/
def checkWords (ws : List WireWord) (blockId : Nat) : Nat :=
  let n := ws.length
  let tag := selvage (ws.flatMap (·.data)) blockId
  if ws.any (·.poison) then 2
  else if ws.all (fun w => w.kind = 0) then 3
  else if ((List.range n).zip ws).all (fun (i, w) =>
      let e := blockMeta n i tag w.ties false
      w.kind = 1 && w.pos = e.pos && w.frag = e.frag) then 0
  else 1

/-- A mismatching block is counted and is to be read again from where it lies (R464, R466). -/
def State.rereadBlock (s : State) (w : Who) (va size blockId : Nat) : State :=
  match s.xlate w va false false with
  | (_, .ok (.dev pa)) =>
    if pa / devSize = s.pool.partId then
      s.mismatch { addr := pa % devSize, size := size, blockId := blockId, isRow := false, tier := 0, queue := w.cmd / 2 ^ 48,
                   seq := w.cmd % 2 ^ 48 }
    else
      s.mismatch { addr := pa, size := size, blockId := blockId, isRow := false, tier := 0, queue := w.cmd / 2 ^ 48,
                   seq := w.cmd % 2 ^ 48, far := true }
  | _ => s.rasCount 0x220 1

/-- A tensor block read by a command (R464, R469, R594): its words, or SELVAGE_MISMATCH or POISON_CONSUMED. `plainOk` takes a
wholly plain block as zeros, as a partial write does (R463). -/
def readBlock (w : Who) (va size blockId : Nat) (plainOk : Bool) : CM (List WireWord × Bool) := do
  let xs ← readLines w false va (size / 64)
  let ws := xs.map (·.1)
  let host := xs.any (·.2)
  let pois := do
    modify (fun s => s.consume (w.consumed va blockId))
    throw (.fail stPoisonConsumed)
  if host then
    if ws.any (·.poison) then pois else return (ws, true)
  else
    match checkWords ws blockId with
    | 2 => pois
    | 0 => return (ws, false)
    | 3 =>
      if plainOk then return (ws.map (fun w => { w with data := List.replicate 64 0 }), false)
      else
        modify (fun s => s.rereadBlock w va size blockId)
        throw (.fail stSelvageMismatch)
    | _ =>
      modify (fun s => s.rereadBlock w va size blockId)
      throw (.fail stSelvageMismatch)

/-! ### Writing blocks -/

/-- Write a line of this part's memory with metadata for a command (0 for none) through a translation: at once, or after a
back-invalidation where the host holds it (R530). -/
def State.storeLine (s : State) (cmd : Nat) (via : Option (Bool × Nat × Nat)) (a : Nat) (bs : List Byte) (info : CwMeta) : State :=
  let l := a / 64
  if s.lineHeld l then
    s.backInvalidate { line := l, cmd := cmd, data := bs, mask := List.replicate 64 true, info := info, via := via }
  else s.storeDev (64 * l) bs (fun _ _ => info)

/-- Write consecutive lines of this part's memory, each with its metadata. -/
def State.storeLines (s : State) (cmd : Nat) (via : Option (Bool × Nat × Nat)) : Nat → List WireWord → State
  | _, [] => s
  | a, w :: ws =>
    State.storeLines (s.storeLine cmd via a w.data
      { poison := w.poison, ties := w.ties, kind := w.kind, pos := w.pos, frag := w.frag }) cmd via (a + 64) ws

/-- The words of a block with its tag (R463): word `i` takes TIES_AWAY from `ties i`. -/
def blockWords (bs : List Byte) (blockId : Nat) (ties : Nat → Bool) : List WireWord :=
  let n := bs.length / 64
  let tag := selvage bs blockId
  (List.range n).map (fun i =>
    let m := blockMeta n i tag (ties i) false
    { data := (bs.drop (64 * i)).take 64, ties := m.ties, kind := 1, pos := m.pos, frag := m.frag })

/-- Split words into messages of at most 64 (4 KiB). -/
def splitWords : Nat → Nat → List WireWord → List (Nat × List WireWord)
  | 0, _, _ => []
  | _ + 1, _, [] => []
  | n + 1, a, ws => (a, ws.take 64) :: splitWords n (a + 4096) (ws.drop 64)

/-- Send the queued writes of a requester in order while slots and tokens allow, at most `n`; a failure ends what it writes for (R148,
R159). -/
def State.sendWrites (w : Who) : Nat → State → State × Option Nat
  | 0, s => (s, none)
  | n + 1, s =>
    match (s.core w.core).wqueue with
    | [] => (s, none)
    | q :: rest =>
      let dest := q.addr / devSize
      if !s.member dest then (s, some stPartLeftPool)
      else
        let who := match q.via with | some (f, x, va) => { w with isFn := f, ctx := x, va := va } | none => w
        match s.request who 2 dest q.addr (64 * q.words.length) (fun h => .write h q.addr q.words) with
        | .error .wait => (s, none)
        | .error (.fail st) => (s, some st)
        | .ok s => State.sendWrites w n (s.updCore w.core (fun k => { k with wqueue := rest }))

/-- The function whose translation a write goes through has Bus Master Enable set: else it writes nothing to host memory (R534). -/
def State.mayWriteHost (s : State) (w : Who) : Bool := (s.fn (s.requester w.isFn w.ctx).1).busMaster

/-- Write a block's words at a place that has been translated for writing (R148, R463, R594). Writes to another part are counted until
they are acknowledged, and wait in order for slots and tokens (R159, R172). -/
def writeWords (w : Who) (p : Place) (ws : List WireWord) : CM Unit := do
  match p with
  | .host h =>
    modify (fun s => if s.mayWriteHost w then s.writeHost h (ws.flatMap (·.data)) else s)
  | .dev pa =>
    let s ← get
    if pa / devSize = s.pool.partId then
      set ((s.dramCharge (bucketKey (s.account w) 1) (pa % devSize) (64 * ws.length)).storeLines w.cmd w.via (pa % devSize) ws)
    else if !s.member (pa / devSize) then throw (.fail stPartLeftPool)
    else
      let parts := splitWords 16 pa ws
      let s := s.updCore w.core (fun k =>
        { k with wpend := k.wpend + parts.length, wqueue := k.wqueue ++ parts.map (fun e => ⟨e.1, e.2, w.via, s.refCount⟩) })
      match State.sendWrites w (s.core w.core).wqueue.length s with
      | (s, none) => set s
      | (s, some st) =>
        set s
        throw (.fail st)

/-- Forget what a unit of the core has read remotely: its descriptor has ended. -/
def Core.endAccess (k : Core) (lane : Nat) : Core :=
  { k with rbuf := k.rbuf.filter (fun e => e.1 / 2 ^ 60 ≠ lane), rpend := k.rpend.filter (fun l => l / 2 ^ 60 ≠ lane) }

end Sys2Proof.Machine
end

