-- ==== Sys2Proof/Machine/Mail.lean ====
section
/-! DEFINITION. The Almanac (R372 to R376), notices (R371), and the control mailbox's request and response (R362 to R365). -/

namespace Sys2Proof.Machine

open Sys2Proof

/-! ### The Almanac -/

/-- An Almanac record's fields (R374); none of queue or context sets NO_QUEUE or NO_CONTEXT. -/
structure AlmRec where
  type : Nat
  flags : Nat := 0
  status : Nat := 0
  queue : Option Nat := none
  ctx : Option Nat := none
  depth : Nat := 0
  seq : Nat := 0
  parent : Nat := 0
  epoch : Nat := 0
  cvt : Nat := 0
  detail : Nat := 0
  energy : Nat := 0
  paced : Nat := 0
deriving DecidableEq, Repr

/-- Bytes 0 to 59 of a record (R374). -/
def AlmRec.bytes (r : AlmRec) (seq p time partId : Nat) : List Byte :=
  leBytes 8 seq ++ leBytes 1 r.type ++ leBytes 1 r.flags ++ leBytes 2 r.status ++
    leBytes 2 (match r.queue with | some q => q % 1024 | none => 0x8000) ++
    leBytes 1 (r.ctx.getD 0) ++
    leBytes 1 ((match r.ctx with | some _ => 0 | none => 0x80) + r.depth % 8 * 16 + p % 16) ++
    leBytes 8 r.seq ++ leBytes 8 time ++ leBytes 8 r.parent ++ leBytes 5 r.epoch ++ leBytes 1 r.cvt ++ leBytes 2 r.detail ++
    leBytes 4 r.energy ++ leBytes 4 r.paced ++ leBytes 2 partId ++ leBytes 2 0

/-- A record with its CRC-32C in the last four bytes (R374, R445). -/
def withCrc (bs : List Byte) : List Byte := bs ++ leBytes 4 (crc32c bs)

/-- Device offset of an Almanac slot (R375, R377). -/
def Almanac.slotAddr (a : Almanac) (i : Nat) : Nat := nthD 0 a.pages (64 * i / 2 ^ 25) + 64 * i % 2 ^ 25

/-- Write the next record of partition `p`'s Almanac (R375); the flag says that this wrap has its first overwritten record. -/
def State.almAppend (s : State) (p : Nat) (r : AlmRec) : State × Bool :=
  let a := (s.part p).alm
  if !a.placed then (s, false)
  else
    let n := a.writeSeq
    let size := 2 ^ a.log2
    let bytes := withCrc (r.bytes n p s.refCount s.pool.partId)
    let old := n - size
    let drops := size ≤ n && a.oldest ≤ old
    let counted := drops && a.ack ≤ old
    let first := counted && a.wrapNoted < n / size
    let s := s.writePlain (a.slotAddr (n % size)) bytes
    (s.updPart p (fun q => { q with alm := { q.alm with
        writeSeq := n + 1,
        oldest := if drops then old + 1 else q.alm.oldest,
        wrapped := if counted then q.alm.wrapped + 1 else q.alm.wrapped,
        wrapNoted := if first then n / size else q.alm.wrapNoted } }), first)

/-- The Almanac that takes the physical function's records (R373). -/
def State.pfAlmanac (s : State) : Option Nat := leastBelow 16 (fun p => (s.part p).alm.placed && (s.part p).alm.pfRecords)

/-- Partition whose Almanac takes a function's records (R373). -/
def State.almOf (s : State) (f : Nat) : Option Nat := if f = 0 then s.pfAlmanac else some (f - 1)

/-! ### Notices (R371) -/

/-- Firmware answers requests: the part is past BOOTING, and neither a CP restart nor the hand-off of a CP swap is in progress (R543,
R548, R553). -/
def State.firmware (s : State) : Bool :=
  (s.service.state = 1 || s.service.state = 2 || s.service.state = 4) && ((s.service.swap.map (·.swapAt)).join).isNone

/-- Bytes of a mailbox header (R362). -/
def mbHeader (opcode version slots tag status state : Nat) : List Byte :=
  leBytes 2 opcode ++ leBytes 1 version ++ leBytes 1 slots ++ leBytes 2 tag ++ leBytes 2 status ++ leBytes 1 state ++ leBytes 7 0

/-- STATE of a slot (R362). -/
def Fn.slotState (n : Fn) (slot : Nat) : Nat := (kget 0 n.mb (64 * slot + 8)).toNat % 4

/-- The slot is the first of a request that firmware has taken and not answered: RUNNING (R363). -/
def Fn.serving (n : Fn) (slot : Nat) : Bool := n.slotState slot = 2 && n.taken.contains slot

/-- Write held notices into free notice slots in turn, at most `n` (R371). -/
def Fn.writeNotices : Nat → Fn → Fn
  | 0, f => f
  | n + 1, f =>
    match f.noticeHold with
    | [] => f
    | x :: rest =>
      let slot := 28 + f.noticeNext
      if f.slotState slot ≠ 0 then f
      else
        Fn.writeNotices n { f with
          noticeHold := rest, noticeNext := (f.noticeNext + 1) % 4,
          mb := writeBytes f.mb (64 * slot) (mbHeader x.opcode 1 1 x.tag x.status 3 ++
            (x.payload ++ List.replicate (48 - x.payload.length) 0).take 48) }

/-- Post a notice: its record in an Almanac, then the slot and vector 0, or the hold (R371, R372). While firmware is down the notice
waits for it, and its interrupt with it. -/
def State.postNoticeRaw (s : State) (f : Nat) (alm : Option Nat) (x : Notice) (rec : AlmRec) : State × Bool :=
  let r := match alm with
    | none => (s, false)
    | some p => s.almAppend p rec
  let s := r.1
  let written := s.firmware && (s.fn f).noticeHold.isEmpty && (s.fn f).slotState (28 + (s.fn f).noticeNext) = 0
  let s := s.updFn f (fun n => 
    Fn.writeNotices (if s.firmware then 1 else 0) { n with noticeHold := n.noticeHold ++ [{ x with due := !s.firmware }] })
  (if written then s.irq f 0 1 else s, r.2)

/-- Firmware writes the first held notice once its slot is free, with the interrupt where that is still due; a notice that finds no
free slot is held and raises none (R358, R371). -/
def State.postHeld (s : State) (f : Nat) : State :=
  let n := s.fn f
  match n.noticeHold with
  | [] => s
  | x :: _ =>
    if n.slotState (28 + n.noticeNext) ≠ 0 then
      s.updFn f (fun n => { n with noticeHold := n.noticeHold.map (fun x => { x with due := false }) })
    else
      let s := s.updFn f (Fn.writeNotices 1)
      if x.due then s.irq f 0 1 else s

/-- Firmware, which was down, goes on with a function's held notices: it writes those for which slots are free (R548, R371). -/
def State.postAllHeld (s : State) (f : Nat) : State := (List.range 5).foldl (fun s _ => s.postHeld f) s

/-- The ALMANAC_WRAP notices of a partition (R375; log entry 21), recorded in the Almanac that has wrapped; a wrap that begins with one
of these records has notices of its own. -/
def State.wrapNotices : Nat → State → Nat → State
  | 0, s, _ => s
  | n + 1, s, p =>
    let x : Notice := ⟨0x0300, 0, stAlmanacWrap, leBytes 4 0 ++ leBytes 4 p ++ leBytes 8 (s.part p).alm.wrapped, false⟩
    let r : AlmRec := { type := 4, status := stAlmanacWrap, seq := p }
    let (s, first) := s.postNoticeRaw 0 (some p) x r
    let (s, next) := s.postNoticeRaw (1 + p) (some p) x r
    if first || next then State.wrapNotices n s p else s

/-- A wrap's notices, which are too few to fill the ring of 65,536 records or more (R377). -/
def State.wrapNotice (s : State) (p : Nat) : State := State.wrapNotices 2 s p

/-- Write a record of partition `p`, with the wrap notice where it is due (R372, R375). -/
def State.almRecord (s : State) (p : Nat) (r : AlmRec) : State :=
  match s.almAppend p r with
  | (s, first) => if first then s.wrapNotice p else s

/-- A record of a function's own traffic (R372, R373). -/
def State.almFn (s : State) (f : Nat) (r : AlmRec) : State :=
  match s.almOf f with
  | none => s
  | some p => s.almRecord p r

/-- An EVENT record that concerns the whole part (R373). -/
def State.almAll (s : State) (r : AlmRec) : State := (List.range 16).foldl (fun s p => s.almRecord p r) s

/-- Post an event notice that concerns partition `p` to a function (R371 to R373). -/
def State.notice (s : State) (f p status subject : Nat) (payload : List Byte) : State :=
  let x : Notice := ⟨0x0300, 0, status, leBytes 4 0 ++ payload, false⟩
  match s.postNoticeRaw f (some p) x { type := 4, status := status, seq := subject } with
  | (s, true) => s.wrapNotice p
  | (s, false) => s

/-! ### Requests -/

/-- A request as firmware reads it from a function's slots (R362). -/
structure Req where
  fn : Nat
  slot : Nat
  opcode : Nat
  version : Nat
  slots : Nat
  tag : Nat
  irq : Bool
  payload : List Byte
deriving DecidableEq, Repr

/-- The request in a slot. -/
def State.req (s : State) (f slot : Nat) : Req :=
  let bs := readBytes (s.fn f).mb (64 * slot) (64 * min 4 (28 - slot))
  { fn := f, slot := slot, opcode := fieldAt bs 0 2, version := fieldAt bs 2 1, slots := fieldAt bs 3 1 % 8, tag := fieldAt bs 4 2,
    irq := bitAt (fieldAt bs 8 1) 3,
    payload := (bs.drop 16).take (48 + 64 * (fieldAt bs 3 1 % 8 - 1)) }

/-- A payload field of `n` bytes (R362). -/
def Req.u (r : Req) (off n : Nat) : Nat := fieldAt r.payload off n

/-- The named payload bytes are all zero. -/
def Req.zeros (r : Req) (off n : Nat) : Bool := (((r.payload.drop off).take n).all (· = 0))

/-- A virtual function names something of another partition (R377, R402). -/
def Req.foreign (r : Req) (p : Nat) : Bool := r.fn ≠ 0 && r.fn ≠ 1 + p

/-- Write a response: payload, STATUS, DONE with ASYNC and IRQ, the interrupt and the CONTROL record (R363, R365, R372). -/
def State.respond (s : State) (r : Req) (status : Nat) (resp : List Byte) (async : Bool) : State :=
  let n := max 1 (min 4 (cdiv (16 + resp.length) 64))
  let state := 3 + (if async then 4 else 0) + (if r.irq then 8 else 0)
  let bs := mbHeader r.opcode r.version n r.tag status state ++ resp
  let s := s.updFn r.fn (fun f => { f with mb := writeBytes f.mb (64 * r.slot) (bs.take (64 * (28 - r.slot))), taken := f.taken.erase r.slot })
  let s := s.almFn r.fn { type := 3, status := status, seq := if async then leNat (resp.take 4) else 0,
                          parent := r.tag * 65536 + r.opcode }
  if r.irq then s.irq r.fn 0 0 else s

/-- What an opcode's action answers. -/
inductive Reply where
  /-- DONE with a status and response. -/
  | done (s : State) (status : Nat) (resp : List Byte)
  /-- An asynchronous operation: what it starts, given its OP_ID. -/
  | async (start : State → Nat → State)
  /-- The request stays RUNNING: its row is issued again. -/
  | wait (s : State)

/-- Operations of a function still under way (R365). -/
def Fn.running (n : Fn) : Nat := (n.ops.filter (fun o => !o.done)).length

/-- Opcodes that RECOVERY answers (R550). -/
def inRecovery (opcode : Nat) : Bool :=
  opcode = 0x0102 || opcode = 0x0104 || opcode = 0x0901 || opcode = 0x0903 || opcode = 0x0904

/-- Serve the request in a slot if it runs this opcode (R17, R18, R363 to R365): version, PF mark, then the action. -/
def State.serve (s : State) (f slot opcode : Nat) (pf : Bool) (act : Req → State → Reply) : State :=
  let r := s.req f slot
  if !s.firmware || !(s.fn f).serving slot || r.opcode ≠ opcode then s
  else if s.service.state = 4 && !inRecovery opcode then s.respond r stCapabilityMissing [] false
  else if r.slots = 0 || 4 < r.slots then s.respond r stBadPattern [] false
  else if r.version ≠ 1 then s.respond r stVersionRefused [] false
  else if pf && f ≠ 0 then s.respond r stProtection [] false
  else
    match act r s with
    | .done s status resp => s.respond r status resp false
    | .wait s => s
    | .async start =>
      if 64 ≤ (s.fn f).running then s.respond r stMailboxBusy [] false
      else
        let id := (s.fn f).nextOp
        let s := s.updFn f (fun n => { n with
          nextOp := (id + 1) % 2 ^ 32,
          ops := ⟨id, opcode, r.tag, r.irq, none, false, false, 0, []⟩ :: n.ops.filter (fun o => o.opId ≠ id) })
        let s := start s id
        s.respond r stOk (leBytes 4 id) true

/-- Refuse a request and change nothing. -/
def refuse (s : State) (status : Nat) : Reply := .done s status []

/-- The first failing check's status, else the action (R378, R403, R455). -/
def checks (s : State) : List (Bool × Nat) → Reply → Reply
  | [], k => k
  | (bad, status) :: cs, k => if bad then refuse s status else checks s cs k

/-- The work of an operation has ended: its response waits for ASYNC_OP_COMPLETE (R365). -/
def State.opEnd (s : State) (op : Option (Nat × Nat)) (status : Nat) (resp : List Byte) : State :=
  match op with
  | none => s
  | some (f, id) =>
    s.updFn f (fun n => { n with
      ops := n.ops.map (fun o => if o.opId = id && !o.done then { o with ready := true, status := status, resp := resp } else o) })

end Sys2Proof.Machine
end

