-- ==== Sys2Proof/Machine/Life.lean ====
section
/-! DEFINITION. The life of a command and of a context: fences and heads (R352 to R355), ending (R26, R330, R360), barriers kept
for them (R422, R423, R428), completion records (R356 to R358), readiness (R389), and teardown (R401). -/

namespace Sys2Proof.Machine

open Sys2Proof

/-- A field of a command's entry (R350). -/
def Cmd.u (c : Cmd) (off n : Nat) : Nat := fieldAt c.entry off n

abbrev kindStep : Nat := 1
abbrev kindJob : Nat := 2
abbrev kindUpdate : Nat := 3
abbrev kindMarker : Nat := 4

/-- Key of a command. -/
def Cmd.key (c : Cmd) : Nat := cmdKey c.queue c.seq

/-- Commands of a queue, in sequence order. -/
def State.queueCmds (s : State) (q : Nat) : List Cmd := (s.cmds.filter (fun e => e.1 / 2 ^ 48 = q)).map (·.2)

/-- Head of a queue: its first command that has not begun (R354). -/
def State.head? (s : State) (q : Nat) : Option Cmd := (s.queueCmds q).find? (fun c => c.phase = .waiting)

/-- Commands begun and not complete (R357). -/
def State.begun (s : State) (q : Nat) : Nat := ((s.queueCmds q).filter (fun c => c.phase ≠ .waiting)).length

/-- A valid fence word's queue and sequence (R352). -/
def fenceOf (w : Nat) : Option (Nat × Nat) := if bitAt w 15 then some (w % 1024, w >>> 16) else none

/-- A fence of a command is satisfied (R352); a queue destroyed since has completed every command (log entry 23). -/
def State.fenceMet (s : State) (c : Cmd) (w : Nat) : Bool :=
  match fenceOf w with
  | none => true
  | some (q, n) => (kfind c.fencesGone w).isSome || (s.queue q).state = 0 || n ≤ (s.queue q).done

/-- A satisfied fence with REQUIRE_OK names a command that did not complete OK (R353). -/
def State.fenceBroken (s : State) (c : Cmd) (w : Nat) : Bool :=
  match fenceOf w with
  | none => false
  | some (q, n) => bitAt w 14 && s.fenceMet c w && (kfind c.fencesGone w).getD (kget 0 (s.queue q).results n ≠ 0)

/-- The fences of a waiting command on a queue that is destroyed keep what the queue's results say of them (R353, R359). -/
def Cmd.keepFences (c : Cmd) (q : Nat) (results : KMap Nat) : Cmd :=
  [c.u 16 8, c.u 24 8].foldl (fun c w =>
    match fenceOf w with
    | some (q', n) =>
      if q' = q && (kfind c.fencesGone w).isNone then { c with fencesGone := kput c.fencesGone w (kget 0 results n ≠ 0) } else c
    | none => c) c

/-- Room for another record in the hold (R357). -/
def State.holdRoom (s : State) (q : Nat) : Bool := (s.queue q).held.length + s.begun q < 1024

/-- Fences met and, with ORDERED, every earlier command complete (R354). -/
def State.ordered (s : State) (c : Cmd) : Bool :=
  s.fenceMet c (c.u 16 8) && s.fenceMet c (c.u 24 8) && (!bitAt (c.u 1 1) 1 || c.seq ≤ (s.queue c.queue).done + 1)

/-- Queues of a context. -/
def State.ctxQueues (s : State) (x : Nat) : List Nat := (s.queues.filter (fun e => e.2.state ≠ 0 && e.2.ctx = x)).map (·.1)

/-- A context that holds a queue or a PASID (R536). -/
def State.hostFacing (s : State) (x : Nat) : Bool :=
  (s.ctx x).phase ≠ 0 && (!(s.ctxQueues x).isEmpty || (kfind s.xlt.ctxPasid x).isSome)

/-- A self-reset, or an FLR of its partition's function, is in progress: nothing of a host-facing context begins, and its records
go to the Almanac only (R536, R539). -/
def State.frozen (s : State) (x : Nat) : Bool :=
  s.hostFacing x && (s.link.resetAt.isSome || (kfind s.link.flrs (s.ctx x).part).isSome)

/-- The head may begin apart from admission (R354, R357, R536). -/
def State.ready (s : State) (c : Cmd) : Bool :=
  let q := s.queue c.queue
  (q.state = 1 || q.state = 2) && q.closing.isNone && s.ordered c && s.holdRoom c.queue && !s.frozen c.ctx

/-- A context has a ready STEP or JOB head (R389). -/
def State.ctxReady (s : State) (x : Nat) : Bool :=
  (s.ctxQueues x).any (fun q => match s.head? q with
    | none => false
    | some c => (c.kind = kindStep || c.kind = kindJob) && s.ready c)

/-- A context has commands outstanding. -/
def State.ctxBusy (s : State) (x : Nat) : Bool := s.cmds.any (fun e => e.2.ctx = x && e.2.phase ≠ .ended)

/-- Note which commands are heads, and which wait only for hold room (R357, R360). -/
def State.markHeads (s : State) : State :=
  s.queues.foldl (fun s e =>
    match s.head? e.1 with
    | none => s
    | some c =>
      let room := s.holdRoom e.1
      s.updCmd c.key (fun c =>
        let c := { c with headAt := some (c.headAt.getD s.refCount) }
        if s.ordered c && !room then { c with roomSince := some (c.roomSince.getD s.refCount) }
        else
          match c.roomSince with
          | none => c
          | some t => { c with headAt := c.headAt.map (· + (s.refCount - t)), roomSince := none })) s

/-- Phase transitions that follow from readiness (R389). -/
def Ctx.settle (c : Ctx) (ready busy : Bool) (now : Nat) : Ctx :=
  if c.phase = 1 || c.phase = 4 then (if ready then { c with phase := 2, readySince := now } else c)
  else if c.phase = 2 && !ready && c.running = 0 then { c with phase := if busy then 4 else 1, since := now }
  else if (c.phase = 3 || c.phase = 6) && c.running = 0 then
    (if ready then { c with phase := 2, readySince := now } else { c with phase := if busy then 4 else 1, since := now })
  else if c.phase = 5 then (if ready then { c with readySince := if c.readySince = 0 then now else c.readySince } else { c with readySince := 0 })
  else c

/-- Heads and phases after anything that may have changed them. -/
def State.settle (s : State) : State :=
  let s := s.markHeads
  s.ctxs.foldl (fun s e => s.updCtx e.1 (fun c => c.settle (s.ctxReady e.1) (s.ctxBusy e.1) s.refCount)) s

/-! ### Barriers (R420 to R428) -/

/-- A barrier's record as memory holds it (R420, R421). -/
def Barrier.bytes (b : Barrier) : List Byte :=
  leBytes 2 b.count ++ leBytes 1 b.part ++ leBytes 1 0 ++ leBytes 2 b.arrived ++ leBytes 2 b.held ++ leBytes 6 b.round ++
    leBytes 2 b.entries.length ++ leBytes 4 b.lastPid ++ leBytes 44 0 ++
    b.entries.flatMap (fun e => leBytes 6 e.lastGen ++ leBytes 1 (1 + (if e.hold then 2 else 0)) ++ leBytes 1 0 ++ leBytes 4 e.pid ++ leBytes 4 0)

/-- A barrier is active (R422). -/
def Barrier.active (b : Barrier) : Bool := b.arrived ≠ 0 || b.held ≠ 0 || !b.waiters.isEmpty

/-- Put a barrier back: in the table while it is active, else only in memory (R422). -/
def State.putBarrier (s : State) (b : Barrier) : State :=
  let others := s.barriers.filter (fun c => c.addr ≠ b.addr)
  if b.active then { s with barriers := others ++ [b] }
  else ({ s with barriers := others } : State).writePlain b.addr b.bytes

/-- Withdraw the held arrivals that satisfy `p` (R423). -/
def Barrier.withdrawHeld (b : Barrier) (p : Arrival → Bool) : Barrier :=
  let hit := fun (e : Participant) => e.hold && (match e.arrival with | some a => p a | none => false)
  { b with held := b.held - (b.entries.filter hit).length,
           entries := b.entries.map (fun e => if hit e then { e with hold := false, arrival := none } else e) }

/-- Withdraw counted arrivals of an incomplete round (R428). -/
def Barrier.withdrawCounted (b : Barrier) (p : Arrival → Bool) : Barrier :=
  let hit := fun (e : Participant) => e.lastGen = b.round + 1 && (match e.counted with | some a => p a | none => false)
  { b with arrived := b.arrived - (b.entries.filter hit).length,
           entries := b.entries.map (fun e => if hit e then { e with lastGen := b.round, counted := none } else e) }

/-- Change every active barrier and put each back. -/
def State.mapBarriers (s : State) (f : Barrier → Barrier) : State :=
  s.barriers.foldl (fun s b => s.putBarrier (f b)) s

/-- Withdraw a command's held arrivals, arrivals on their way and waits; with `counted`, its counted ones too (R423, R428). -/
def State.withdraw (s : State) (p : Arrival → Bool) (waits : Nat → Bool) (counted : Bool) : State :=
  ({ s with arrivals := s.arrivals.filter (fun a => !p a) } : State).mapBarriers (fun b =>
    let b := b.withdrawHeld p
    let b := { b with waiters := b.waiters.filter (fun c => !waits c) }
    if counted then b.withdrawCounted p else b)

/-! ### Ending work -/

/-- Remove the accesses of a command from the outstanding faults (R448). -/
def State.dropAccesses (s : State) (p : FaultAccess → Bool) : State :=
  { s with xlt := { s.xlt with faults := s.xlt.faults.map (fun f => { f with accesses := f.accesses.filter (fun a => !p a) }) } }

/-- Move the matrix operations that are in phase `a` to phase `b` (R423). -/
def Core.mxMove (k : Core) (a b : Nat) : Core :=
  { k with qMatrix := k.qMatrix.map (fun q => if q.phase = a then { q with phase := b } else q) }

/-! ### Duty, clocks and lost time (R501, R502, R505 to R508, R510, R514) -/

/-- CCLK of a point in MHz (R506). -/
def pointMHz (p : Nat) : Nat := nthD 1200 [1800, 1600, 1400, 1200] p

/-- A cluster's CCLK in MHz, stretching apart. -/
def State.clockOf (s : State) (k : Nat) : Nat := pointMHz (s.clusterPower k).point

/-- Nominal CCLK in MHz (R508). -/
def State.nominal (s : State) : Nat := if s.fullService then 1800 else 1200

/-- Thermal duty of a cluster's cores (R510). -/
def ClusterPower.thermalDuty (c : ClusterPower) : Nat := if c.row = 3 then 100 else c.derateDuty

/-- Duty of a core: the larger of power and thermal duty (R510). -/
def State.dutyOf (s : State) (c : Nat) : Nat := max (kget 0 s.power.duty c) (s.clusterPower (clusterOf c)).thermalDuty

/-- A core at 100 % duty executes no instruction, and every unit of it pauses (R234, R502, R503, R510). -/
def State.halted (s : State) (c : Nat) : Bool := 100 ≤ s.dutyOf c

/-- Add time that a core has lost to its command, in ps; PACED is the greatest loss in ticks (R508). -/
def State.lose (s : State) (c ps : Nat) : State :=
  match (s.core c).cmd with
  | none => s
  | some key => s.updCmd key (fun m =>
      let l := kput m.loss c (kget 0 m.loss c + ps)
      { m with loss := l, paced := min (2 ^ 32 - 1) (l.foldl (fun a e => max a e.2) 0 / 10000) })

/-- Add activity and time of a core to what its present command did in this millisecond (R514). -/
def State.use (s : State) (c act time : Nat) : State :=
  let k := s.core c
  let hit := fun (u : Usage) => u.core = c && u.cmd = k.cmd
  let l := s.power.usage
  let l := if l.any hit then l.map (fun u => if hit u then { u with act := u.act + act, time := u.time + time } else u)
    else l ++ [⟨c, k.cmd, k.ctx, act, time⟩]
  if act = 0 && time = 0 then s else { s with power := { s.power with usage := l } }

/-- What a core has lost and done since it was last counted, at its present duty, point and stretching (R508, R514, R520): a bubble
cycle counts its nominal period, and a longer cycle its excess. -/
def State.accrueCore (s : State) (c : Nat) : State :=
  let t : Nat := s.refCount - kget 0 s.power.lossAt c
  let k := clusterOf c
  let f : Nat := (if (s.clusterPower k).stretchAt.isSome then 1 else 2) * s.clockOf k
  let fn : Nat := 2 * s.nominal
  let d := s.dutyOf c
  let b := s.power.bubbleFrac + t * f * d
  let s := { s with power := { s.power with
    counters := if 20000 ≤ b then bump s.power.counters 0x210 (b / 20000) else s.power.counters, bubbleFrac := b % 20000,
    lossAt := kput s.power.lossAt c s.refCount } }
  (s.use c 0 (if (s.core c).cmd.isSome then t else 0)).lose c (t * 10000 * (d * f + 100 * (fn - f)) / (100 * fn))

/-- What every core has lost, and the ticks of a stall and of derating (R508, R520). -/
def State.accrue (s : State) : State :=
  let s := (List.range 128).foldl State.accrueCore s
  let t := s.refCount - s.power.ticksAt
  let cs := s.power.counters
  let cs := if s.power.stall then bump cs 0x220 t else cs
  let cs := if (List.range 16).any (fun k => 2 ≤ (s.clusterPower k).row) then bump cs 0x228 t else cs
  { s with power := { s.power with counters := cs, ticksAt := s.refCount } }

/-- A core whose work has stopped: sequencer, queues and engines are empty (R330). DESIGN CHOICE: a stopped matrix operation releases none
of its slots to SEM_PAIR (R248), and with the command's end on the core SLOT_HELD reads 0 (log entry 46). ENDED of CDW_SEQ_STAT stands until
the core runs a share again (R343). -/
def Core.stop (k : Core) : Core :=
  { k with rbuf := [], rpend := [], rfail := 0, moveSent := false, procRoom := [], procBegun := false, cmd := none,
                     seq := { ended := k.seq.ended }, qGather := [], qMove := [], qMatrix := [], qVector := [], gathers := [], vx := {},
                     mx := { k.mx with held := 0 }, wpend := 0, wqueue := [],
                     sync := k.sync.map (fun e => (e.1, { e.2 with waiters := [] })) }

/-- Release a core from its command: its flags go to the command (R65). -/
def State.releaseCore (s : State) (c : Nat) : State :=
  let k := s.core c
  match k.cmd with
  | none => s
  | some key =>
    let s := (s.accrueCore c).updCmd key (fun m => { m with cvt := m.cvt ||| k.cvt / 2 })
    let s := s.dropAccesses (fun a => a.core = c)
    ({ s with flows := s.flows.filter (fun f => f.src ≠ c && f.dst ≠ c) } : State).updCore c Core.stop

/-- The slot of the ring that comes next in a queue: the host's entries and the slots that ENQ reserved take them in one order (R340,
R347; DEDUCED, log entry 33). -/
def SQueue.nextSlot (u : SQueue) (i : Nat) : Nat := (u.commit + u.enqs + i) % 2 ^ u.sqLog2

/-- The slots of a queue that uncommitted ENQs hold (R340). -/
def State.heldSlots (s : State) (q : Nat) : List Nat :=
  s.cmds.flatMap (fun e => (e.2.enqs.filter (fun r => r.queue = q)).map (fun r => r.ringSlot))

/-- The next `d` slots of a queue are free (R340, R348). -/
def State.slotsFree (s : State) (q d : Nat) : Bool :=
  d + (s.queue q).reserved ≤ 2 ^ (s.queue q).sqLog2 &&
    (s.heldSlots q).all (fun h => (List.range d).all (fun i => (s.queue q).nextSlot i ≠ h))

/-- Cores in a partition's mask (R393). -/
def State.maskCount (s : State) (p : Nat) : Nat := popCount 128 (s.part p).mask

/-- Charge a command's run time to its context's turn, in core ticks: the charge divides by the partition's cores (R393). -/
def State.charge (s : State) (c : Cmd) : State :=
  let p := s.part c.part
  if p.turn = some c.ctx && !c.suspended then
    let t := s.refCount - max c.startedAt p.turnAt
    s.updPart c.part (fun q => { q with charge := q.charge + c.cores.length * t })
  else s

/-- The cores that a command runs on now: none while it is suspended. -/
def State.coresOn (s : State) (c : Cmd) : List Nat := c.cores.filter (fun k => (s.core k).cmd = some c.key)

/-- A STEP or JOB of a context has ended: a job that a suspension awaits has completed instead (R397). -/
def Ctx.ran (x : Ctx) (job : Bool) : Ctx :=
  { x with running := x.running - 1, suspending := x.suspending && !job, op := if x.suspending && job then none else x.op,
           resuming := x.resuming && !job, saved := if x.phase = 6 then [] else x.saved }

/-! ### Step boundaries of shares (R173) -/

/-- A step of a partition runs. -/
def State.stepRuns (s : State) (p : Nat) : Bool := s.cmds.any (fun e => e.2.part = p && e.2.kind = kindStep && e.2.phase = .running)

/-- Buckets of an account restart empty at every exchange unit and DRAM scheduler. -/
def State.emptyBuckets (s : State) (account : Nat) : State :=
  let others {α : Type} (m : KMap α) : KMap α := m.filter (fun t => t.1 / 4 ≠ account)
  { s with
    exchanges := s.exchanges.map (fun (e : Nat × Exchange) => (e.1, { e.2 with tokens := others e.2.tokens, frac := others e.2.frac })),
    dram := s.dram.map (fun (e : Nat × DramSched) => (e.1, { e.2 with tokens := others e.2.tokens, frac := others e.2.frac })) }

/-- A partition with what waits for its step boundary: its mask, a new split, a new service share (R173, R384). -/
def Partition.boundary (q : Partition) (share : Nat) : Partition :=
  let q' := { q with shareMask := q.mask, nextSplit := none, service := share }
  match q.nextSplit with
  | none => q'
  | some (a, b, c) => { q' with splitRead := a, splitWrite := b, splitRemote := c }

/-- A partition's step boundary: a new split, mask or service share takes effect at it, and its buckets restart empty (R173, R384).
DESIGN CHOICE: pool service's own share changes with the last partition's boundary (log entry 45). -/
def State.boundary (s : State) (p : Nat) : State :=
  let q := s.part p
  let share := match s.nextService with
    | some (a, _, _) => if s.serviceLeft.contains p then a else q.service
    | none => q.service
  let s := if q.nextSplit.isSome || q.shareMask ≠ q.mask || s.serviceLeft.contains p then
      (s.updPart p (fun q => q.boundary share)).emptyBuckets p
    else s
  let left := s.serviceLeft.filter (· ≠ p)
  match s.nextService with
  | none => s
  | some (share, r, w) =>
    if left.isEmpty then
      ({ s with nextService := none, serviceLeft := [], serviceShare := share, serviceRead := r, serviceWrite := w } : State).emptyBuckets 16
    else { s with serviceLeft := left }

/-- Take a pending change at once where no step of the partition runs. -/
def State.idleBoundary (s : State) (p : Nat) : State := if s.stepRuns p then s else s.boundary p

/-- Conversion flags that a suspended job's ranks have saved (R65, R427). -/
def Ctx.savedCvt (x : Ctx) : Nat := x.saved.foldl (fun a e => a ||| e.2.cvt / 2) 0

/-- The status with which a command ends: TIMEOUT once its timer has expired (R26, R360), TALLY_SATURATED in the place of OK where a
tally of it has saturated (R412), else the one at hand. -/
def Cmd.endStatus (c : Cmd) (status : Nat) : Nat :=
  if c.draining.isSome then stTimeout else if status = 0 && c.saturated then stTallySaturated else status

/-- End a begun or waiting command with a status: its cores are released and its timer stops. The first status stands (R330). -/
def State.endCmd (s : State) (key status : Nat) : State :=
  match s.cmd? key with
  | none => s
  | some c =>
    if c.phase = .ended then s
    else
      let status := c.endStatus status
      let saved := if c.suspended then (s.ctx c.ctx).savedCvt else 0
      let s := if c.phase = .running && (c.kind = kindStep || c.kind = kindJob) then s.charge c else s
      let on := s.coresOn c
      let s := on.foldl (fun s k => s.releaseCore k) s
      let s := s.dropAccesses (fun a => a.cmd = key)
      let s := s.withdraw (fun a => a.isLocal && a.cmd = key && a.cmd ≠ 0) (fun k => on.contains (k % 128)) false
      let job := c.kind = kindJob
      let s := if c.phase = .running && (c.kind = kindStep || job) then
          (if job && (s.ctx c.ctx).suspending then s.opEnd (s.ctx c.ctx).op stOk [] else s).updCtx c.ctx (fun x => x.ran job) else s
      let s := s.updCmd key (fun c => { c with
        phase := .ended, status := status, doneAt := s.refCount, replayDue := false, almOnly := s.frozen c.ctx, cvt := c.cvt ||| saved,
        noValues := c.noValues || status = stEpochClosed || status = stOffsetsInvalid || status = stIndexOutOfRange })
      let s := if c.kind = kindUpdate then { s with cores := kdel s.cores (256 + key) } else s
      (if c.kind = kindStep && c.phase = .running then s.boundary c.part else s).settle

/-- Statuses after which a step is replayed once (R26). -/
def replayable (status : Nat) : Bool :=
  status = stResidueMismatch || status = stLockstepMismatch || status = stSelvageMismatch || status = stCoreFenced

/-- A command fails on a core (R26, R330): a step whose failure calls for it waits for its one replay off that core, any other
command ends. A job that a fenced core held ends with CORE_FENCED (R475). A step that drains is not replayed (R360). DESIGN CHOICE: a
step one of whose cores is fenced during its replay ends with CORE_FENCED, as R26 names no status there (log entry 33). -/
def State.failCmd (s : State) (key core status : Nat) : State :=
  match s.cmd? key with
  | none => s
  | some c =>
    if c.phase ≠ .running then s
    else if c.kind = kindStep && replayable status && !c.replayed && !c.replayDue && c.draining.isNone then
      let on := s.coresOn c
      let s := on.foldl (fun s k => s.releaseCore k) s
      let s := s.withdraw (fun a => a.isLocal && a.cmd = key) (fun k => on.contains (k % 128)) false
      s.updCmd key (fun c => { c with cause := status, replayDue := true, badCores := c.badCores ||| 2 ^ core, status := status })
    else s.endCmd key status

/-- Fail the command that runs on a core. -/
def State.failCore (s : State) (c status : Nat) : State :=
  match (s.core c).cmd with
  | none => s
  | some key => s.failCmd key c status

/-- Run work of a core: what it did stands; a failure ends the command. -/
def runOn (s : State) (c : Nat) (m : CM Unit) : State :=
  match m.run s with
  | (.ok _, s) => s
  | (.error .wait, s) => s
  | (.error (.fail st), s) => s.failCore c st

/-! ### Completion records -/

/-- Byte 12 of a completion record (R356) without HELD. -/
def Cmd.flags12 (c : Cmd) (phase : Bool) : Nat :=
  b2n phase * 128 + b2n c.enq * 64 + b2n c.noValues * 32 + b2n c.drained * 16 + b2n c.ties * 4 + b2n c.replayed * 2

/-- The 64 bytes of a completion record (R356). -/
def Cmd.record (c : Cmd) (flags partId : Nat) : List Byte :=
  leBytes 8 c.seq ++ leBytes 2 c.queue ++ leBytes 2 c.status ++ leBytes 1 flags ++ leBytes 1 c.cvt ++ leBytes 2 c.detail ++
    leBytes 2 partId ++ leBytes 2 c.cores.length ++ leBytes 4 c.redirects ++ leBytes 8 c.accepted ++ leBytes 8 c.doneAt ++
    leBytes 4 c.paced ++ leBytes 4 c.energy ++ leBytes 5 c.epoch ++ leBytes 5 c.epochLast ++ leBytes 6 0

/-- PHASE of the record of a sequence (R356): 1 on the first pass. -/
def SQueue.phaseOf (q : SQueue) (seq : Nat) : Bool :=
  (q.ringCount + (seq - q.written - 1)) / 2 ^ q.cqLog2 % 2 = 0

/-- A record with its PHASE bit set to what its slot takes. -/
def setPhase (bs : List Byte) (ph : Bool) : List Byte :=
  setField bs 12 [BitVec.ofNat 8 ((fieldAt bs 12 1) % 128 + b2n ph * 128)]

/-- A record with HELD set. -/
def setHeld (bs : List Byte) : List Byte := setField bs 12 [BitVec.ofNat 8 (fieldAt bs 12 1 ||| 8)]

/-- An ACTIVE queue enters the completion-blocked state (R358, R359); a DEAD one goes on holding. -/
def State.block (s : State) (q : Nat) : State :=
  let u := s.queue q
  if u.state ≠ 1 then s
  else
  let first := (u.held.map (·.seq)).head?.getD 0
  let s := s.updQueue q (fun u => { u with state := 2, held := u.held.map (fun h => { h with bytes := setHeld h.bytes }) })
  s.notice u.fn (s.ctx u.ctx).part stCompletionBlocked q (leBytes 2 q ++ leBytes 2 0 ++ leBytes 8 first)

/-- Write held records in order while the ring has room, at most `n` (R356 to R358). -/
def State.flushRecords : Nat → State → Nat → State
  | 0, s, _ => s
  | n + 1, s, q =>
    let u := s.queue q
    match u.held with
    | [] => s
    | h :: rest =>
      if u.state = 2 || u.state = 0 || h.seq ≠ u.written + 1 then s
      else if 2 ^ u.cqLog2 ≤ (u.written % 2 ^ 32 + 2 ^ 32 - u.head) % 2 ^ 32 then s
      else
        let va := u.cqAddr + 64 * (u.ringCount % 2 ^ u.cqLog2)
        match s.xlateCp true u.fn va true false with
        | (s, .ok (.host hpa)) =>
          if !(s.fn u.fn).busMaster then s.block q
          else
            let ph := u.ringCount / 2 ^ u.cqLog2 % 2 = 0
            let s := s.writeHost hpa (setPhase h.bytes ph)
            let s := s.updQueue q (fun u => { u with held := rest, written := h.seq, ringCount := u.ringCount + 1 })
            let s := if h.irq then s.msix u.fn u.vector else s
            State.flushRecords n s q
        | (s, _) => s.block q

/-- Advance DONE over the completed commands (R352). -/
def advanceDone (r : KMap Nat) : Nat → Nat → Nat
  | 0, d => d
  | n + 1, d => if (kfind r (d + 1)).isSome then advanceDone r n (d + 1) else d

/-- Insert a held record in sequence order. -/
def insertHeld (h : HeldRec) : List HeldRec → List HeldRec
  | [] => [h]
  | g :: l => if h.seq < g.seq then h :: g :: l else g :: insertHeld h l

/-! ### Accepting entries (R347 to R351) -/

/-- Faults of an entry that R351 and R388 name; none lets it run. -/
def State.entryFault (s : State) (x : Nat) (e : List Byte) : Option Nat :=
  let kind := fieldAt e 0 1
  let fl := fieldAt e 1 1
  let t := fieldAt e 4 4
  let bad := kind = 0 || 4 < kind || 16 ≤ fl || fieldAt e 2 2 ≠ 0 || (t ≠ 0 && (t < 10 || 3600000000 < t)) ||
    2 ^ 52 ≤ fieldAt e 8 8 || 2 ^ 52 ≤ fieldAt e 48 8 || fieldAt e 57 1 ≠ 0 || fieldAt e 60 4 ≠ 0 ||
    ((bitAt fl 2 || bitAt fl 3) && kind ≠ kindStep) ||
    (bitAt fl 2 && (fieldAt e 56 1 = 0 || 64 < fieldAt e 56 1)) || (128 ≤ fieldAt e 56 1) ||
    (bitAt fl 3 && 255 < fieldAt e 58 1 + fieldAt e 59 1) ||
    (kind = kindMarker && fieldAt e 8 8 ≠ 0)
  let fence := fun (w : Nat) => bitAt w 15 && bitsOf w 13 10 ≠ 0
  let absent := fun (w : Nat) => bitAt w 15 && (s.queue (w % 1024)).state = 0
  let other := fun (w : Nat) => bitAt w 15 && (s.ctx (s.queue (w % 1024)).ctx).part ≠ (s.ctx x).part
  let f0 := fieldAt e 16 8
  let f1 := fieldAt e 24 8
  let job := (s.ctx x).job
  if bad || fence f0 || fence f1 || absent f0 || absent f1 then some stBadPattern
  else if (kind = kindStep && job) || (kind = kindJob && !job) then some stBadPattern
  else if other f0 || other f1 then some stProtection
  else if kind = kindUpdate && s.maskCount (s.ctx x).part = 0 then some stCapabilityMissing
  else none

/-- Accept one entry (R347): sequence number, ACCEPTED record, and at once its end where it is faulty (R351). A prefetch list
starts the prefetcher (R134). -/
def State.accept (s : State) (q : Nat) (e : List Byte) (parent : Option (Cmd)) (failed : Option Nat) : State :=
  let u := s.queue q
  let seq := u.seq + 1
  let x := u.ctx
  let p := (s.ctx x).part
  let depth := match parent with | none => 0 | some c => c.depth + 1
  let par := match parent with | none => 0 | some c => c.queue * 2 ^ 48 + c.seq
  let kind := fieldAt e 0 1
  let fault := if failed.isSome then failed else s.entryFault x e
  let prot := fault.isNone && kind = kindStep && bitAt (fieldAt e 1 1) 3
  let c : Cmd := { queue := q, seq := seq, ctx := x, part := p, kind := kind, entry := e, accepted := s.refCount,
                   enq := parent.isSome, depth := depth, parent := par,
                   phase := if fault.isSome then .ended else .waiting, status := fault.getD 0, doneAt := s.refCount,
                   protFirst := if prot then fieldAt e 58 1 else 0, protCount := if prot then fieldAt e 59 1 + 1 else 0 }
  let s := s.updQueue q (fun u => { u with seq := seq })
  let s := s.almRecord p { type := 1, queue := some q, ctx := some x, depth := depth, seq := seq, parent := par }
  let s := { s with cmds := kput s.cmds (cmdKey q seq) c }
  if fault.isNone && kind = kindStep && bitAt (fieldAt e 1 1) 2 then
    { s with prefetch := s.prefetch ++ [⟨cmdKey q seq, 0, 0, []⟩] }
  else s

/-! ### Teardown (R401) -/

/-- End every busy express slot of the channels that satisfy `p` with EXPRESS_UNBOUND (R370). -/
def Fn.unbind (n : Fn) (p : Nat → Channel → Bool) : Fn :=
  let hit := fun (k : Nat) =>
    let ch := (kget 0 n.mb (0x1000 + 256 * k)).toNat
    n.expBusy.testBit k && (match kfind n.chans ch with | some c => p ch c | none => false)
  let ks := (List.range 16).filter hit
  { n with expBusy := n.expBusy - bitMask ks,
           expResult := ks.foldl (fun r k => r - (r >>> (4 * k)) % 16 * 2 ^ (4 * k) + 2 ^ (4 * k)) n.expResult,
           chans := n.chans.filter (fun e => !p e.1 e.2) }

/-- Begin the teardown of a context with the status of the event that caused it: its running commands end with that status,
those not begun with CONTEXT_TORN_DOWN, its queues go DEAD, and its translations and faults go (R359, R370, R401, R442, R453). -/
def State.tear (s : State) (x status : Nat) : State :=
  let c := s.ctx x
  if c.phase = 0 || c.phase = 7 then s
  else
    let s := if c.suspending then s.opEnd c.op status [] else s
    let s := s.updCtx x (fun c => { c with phase := 7, tearStatus := status, suspending := false, resuming := false,
                                           op := if c.suspending then none else c.op })
    let s := (s.cmds.filter (fun e => e.2.ctx = x)).foldl (fun s e =>
      if e.2.phase = .waiting then s.endCmd e.1 stContextTornDown else s.endCmd e.1 status) s
    let s := (s.ctxQueues x).foldl (fun s q => s.updQueue q (fun u => { u with state := 3 })) s
    let s := s.fns.foldl (fun s e => s.updFn e.1 (fun n => n.unbind (fun _ ch => ch.ctx = x))) s
    let keep := fun (e : TlbEntry) => e.isFn || e.ctx ≠ x
    let s := ({ s with xlt := { s.xlt with
      coreTlb := s.xlt.coreTlb.map (fun (e : Nat × List TlbEntry) => (e.1, e.2.filter keep)),
      clusterTlb := s.xlt.clusterTlb.map (fun (e : Nat × List TlbEntry) => (e.1, e.2.filter keep)),
      devTlb := s.xlt.devTlb.map (fun (e : Nat × List TlbEntry) => (e.1, e.2.filter keep)),
      priFailed := s.xlt.priFailed.filter (fun e => e.1 ≠ x) } } : State).closeFaults (fun f => f.ctx = x)
    let s := s.withdraw (fun a => a.pid / 1024 % 256 = x && a.isLocal) (fun k => (s.core (k % 128)).ctx = x && (s.core (k % 128)).cmd.isSome) false
    s.almRecord c.part { type := 4, status := status, ctx := some x, seq := x }

end Sys2Proof.Machine
end

