-- ==== Sys2Proof/Machine/Operands.lean ====
section
/-! DEFINITION. Operand forms of the sequencer's instructions (R323 to R325) and of vector instructions (R267 to R269). -/

namespace Sys2Proof.Machine

open Sys2Proof

/-! ### Sequencer instructions (R324) -/

def insOp (w : Nat) : Nat := bitsOf w 63 56
def insD (w : Nat) : Nat := bitsOf w 55 52
def insA (w : Nat) : Nat := bitsOf w 51 48
def insB (w : Nat) : Nat := bitsOf w 47 44
def insBuf (w : Nat) : Bool := bitAt w 44
def insImm (w : Nat) : Nat := bitsOf w 31 0

/-- IMM sign-extended to 64 bits (R324). -/
def insSext (w : Nat) : Nat := unsign 64 (signed 32 (insImm w))

/-- Bits [55:0] that each opcode's Action names (R324, R325); none for a reserved OP. -/
def insMask (op : Nat) : Option Nat :=
  let d := 0xF * 2 ^ 52
  let a := 0xF * 2 ^ 48
  let b := 0xF * 2 ^ 44
  let buf := 2 ^ 44
  let imm := 0xFFFFFFFF
  match op with
  | 0x00 => some 0
  | 0x01 => some (d + imm)
  | 0x02 => some (d + imm)
  | 0x03 => some (d + a + b)
  | 0x04 => some (d + a + imm)
  | 0x05 => some (d + a + b)
  | 0x06 => some (d + a + b)
  | 0x07 => some (d + a + b)
  | 0x08 => some (d + a + b)
  | 0x09 => some (d + a + b)
  | 0x0A => some (d + a + b)
  | 0x0B => some (d + a + b)
  | 0x10 => some (a + b + imm)
  | 0x11 => some (a + b + imm)
  | 0x12 => some (a + b + imm)
  | 0x13 => some (a + b + imm)
  | 0x14 => some imm
  | 0x18 => some (d + a + imm)
  | 0x19 => some (a + b + imm)
  | 0x1A => some (d + imm)
  | 0x20 => some (a + buf + imm)
  | 0x21 => some (buf + 0x1F)
  | 0x22 => some a
  | 0x23 => some 0xF
  | 0x28 => some 0x3F
  | 0x29 => some 0x3F
  | 0x2A => some (a + 0xFF)
  | 0x2B => some (a + 0xFF)
  | 0x2C => some a
  | 0x2D => some a
  | 0x30 => some (a + 0x3FF)
  | 0x38 => some 0
  | 0x39 => some 0xFFFF
  | _ => none

/-- A word whose unused bits are zero (R324). -/
def insClean (w : Nat) : Bool :=
  match insMask (insOp w) with
  | none => false
  | some m => (w % 2 ^ 56) &&& m = w % 2 ^ 56

/-- Register gn of 64 bits: g0 reads as 0 (R323). -/
def Sequencer.g (q : Sequencer) (n : Nat) : Nat := if n = 0 then 0 else kget 0 q.regs n % 2 ^ 64

/-- Write gn modulo 2^64; g0 ignores writes (R323). -/
def Sequencer.setG (q : Sequencer) (n v : Nat) : Sequencer := if n = 0 then q else { q with regs := kput q.regs n (v % 2 ^ 64) }

/-- Go on to the next instruction; a wait is over. -/
def Sequencer.adv (q : Sequencer) : Sequencer := { q with pc := q.pc + 1, wait := 0, waitId := 0, target := 0 }

/-- Target of a branch, PC + sext(IMM) (R325); none outside the loaded code (R342). -/
def Sequencer.target? (q : Sequencer) (w : Nat) : Option Nat :=
  let t := (q.pc : Int) + signed 32 (insImm w)
  if t < 0 || (q.code.length : Int) ≤ t then none else some t.toNat

/-- Go to an instruction. -/
def Sequencer.goto (q : Sequencer) (pc : Nat) : Sequencer := { q with pc := pc, wait := 0, waitId := 0, target := 0 }

/-- Wait with a code and an id of R343. -/
def Sequencer.stall (q : Sequencer) (wait id : Nat) : Sequencer := { q with wait := wait, waitId := id }

/-- The instruction at the PC. -/
def Sequencer.ins? (q : Sequencer) : Option Nat := q.code[q.pc]?

end Sys2Proof.Machine
end

