-- ==== Sys2Proof/Machine/Sync.lean ====
section
/-! DEFINITION. Tallies and semaphore pairs (R408 to R419), and barrier records (R420 to R425). -/

namespace Sys2Proof.Machine

open Sys2Proof

/-- Largest tally value (R411). -/
abbrev tallyMax : Nat := 0xFFFFFFFFFFFF

/-- The set of a context on a core (R408). -/
def Core.set (k : Core) (x : Nat) : SyncSet := kget {} k.sync x

/-- Change the set of a context on a core. -/
def Core.updSet (k : Core) (x : Nat) (f : SyncSet → SyncSet) : Core := { k with sync := kmod {} k.sync x f }

/-- An add to a tally (R411, R412): sticks at the largest value. -/
def Tally.add (t : Tally) (amount src : Nat) : Tally :=
  if amount = 0 || t.sat then (if amount = 0 then t else { t with src := src })
  else if tallyMax ≤ t.value + amount then { value := tallyMax, sat := true, src := src }
  else { t with value := t.value + amount, src := src }

/-- Add to a tally of a context on a core; saturation is reported once, and marks the command that caused it (R412). -/
def State.tallyAdd (s : State) (c x idx amount src : Nat) (cmd : Option Nat) : State :=
  let old := kget {} ((s.core c).set x).tallies idx
  let new := old.add amount src
  let s := s.updCore c (fun k => k.updSet x (fun g => { g with tallies := kput g.tallies idx new }))
  if new.sat && !old.sat then
    let subject := c * 256 + idx
    let (q, n) := match cmd with | none => (0, 0) | some key => (key / 2 ^ 48, key % 2 ^ 48)
    let s := s.faultNotice x stTallySaturated subject q n
    let s := s.almRecord (s.ctx x).part { type := 4, status := stTallySaturated, ctx := some x, seq := subject }
    match cmd with
    | none => s
    | some key => s.updCmd key (fun m => { m with saturated := true })
  else s

/-- A give to the producer side (R415). -/
def Pair.giveProd (p : Pair) (src : Nat) : Pair :=
  if p.prod = 65535 then { p with sat := true, prodSrc := src } else { p with prod := p.prod + 1, prodSrc := src }

/-- A give to the consumer side (R415). -/
def Pair.giveCons (p : Pair) (src : Nat) : Pair :=
  if p.cons = 65535 then { p with sat := true, consSrc := src } else { p with cons := p.cons + 1, consSrc := src }

/-- Units on one side of a pair: 0 producer, 1 consumer. -/
def Pair.side (p : Pair) (side : Nat) : Nat := if side = 0 then p.prod else p.cons

/-- A take from one side (R415). -/
def Pair.take (p : Pair) (side : Nat) : Pair := if side = 0 then { p with prod := p.prod - 1 } else { p with cons := p.cons - 1 }

/-- A pair of a set. -/
def SyncSet.pair (g : SyncSet) (i : Nat) : Pair := kget {} g.pairs i

/-- Change a pair. -/
def SyncSet.updPair (g : SyncSet) (i : Nat) (f : Pair → Pair) : SyncSet := { g with pairs := kmod {} g.pairs i f }

/-- A give to the producer side of a pair of the running command's set. -/
def Core.giveProd (k : Core) (x i src : Nat) : Core := k.updSet x (fun g => g.updPair i (fun p => p.giveProd src))

/-- A give to the consumer side. -/
def Core.giveCons (k : Core) (x i src : Nat) : Core := k.updSet x (fun g => g.updPair i (fun p => p.giveCons src))

/-- A take may be served now: a unit is there and no earlier take waits on the side (R416). -/
def SyncSet.free (g : SyncSet) (i side : Nat) : Bool :=
  (g.pair i).side side ≠ 0 && !g.waiters.any (fun w => w.pair = i && w.side = side)

/-- A take by an engine: served, granted earlier, or queued to wait (R416). The flag says that it has its unit. -/
def SyncSet.engineTake (g : SyncSet) (w : SemWaiter) : SyncSet × Bool :=
  if g.grants.contains w then ({ g with grants := g.grants.erase w }, true)
  else if g.free w.pair w.side then (g.updPair w.pair (fun p => p.take w.side), true)
  else if g.waiters.contains w then (g, false)
  else ({ g with waiters := g.waiters ++ [w] }, false)

/-- An engine's take on a core. -/
def engineTake (c x : Nat) (w : SemWaiter) : CM Unit := do
  let s ← get
  let r := ((s.core c).set x).engineTake w
  set (s.updCore c (fun k => k.updSet x (fun _ => r.1)))
  if r.2 then return () else throw .wait

/-! ### Barriers -/

/-- PID of a participant (R421). -/
def pidOf (part ctx rank unit : Nat) : Nat := part + ctx * 2 ^ 10 + rank * 2 ^ 18 + unit * 2 ^ 25

/-- A barrier as memory holds it; none where its header is refused (R420, R425). -/
def State.loadBarrier (s : State) (a : Nat) : Option Barrier :=
  let h := s.devBytes a 64
  let count := fieldAt h 0 2
  let used := fieldAt h 14 2
  if count = 0 || 256 < count || 16 ≤ fieldAt h 2 1 || fieldAt h 3 1 ≠ 0 || 512 ≤ fieldAt h 4 2 || 512 ≤ fieldAt h 6 2 ||
      512 ≤ used || (h.drop 20).any (· ≠ 0) then none
  else
    let entry := fun (i : Nat) =>
      let e := s.devBytes (a + 64 + 16 * i) 16
      (⟨fieldAt e 8 4, fieldAt e 0 6, bitAt (fieldAt e 6 1) 1, none, none⟩ : Participant)
    some { addr := a, part := fieldAt h 2 1, count := count, arrived := fieldAt h 4 2, held := fieldAt h 6 2, round := fieldAt h 8 6,
           lastPid := fieldAt h 16 4, entries := (List.range (min used count)).map entry }

/-- The active barrier at an address, else the record in memory (R422). -/
def State.barrierAt (s : State) (a : Nat) : Option Barrier :=
  match s.barriers.find? (fun b => b.addr = a) with
  | some b => some b
  | none => s.loadBarrier a

/-- The record ends within a page of `room` bytes (R420). -/
def Barrier.fits (b : Barrier) (room : Nat) : Bool := 64 + 16 * b.count ≤ room

/-- Bytes from an address to the end of its page in a translation context; 0 where there is no leaf. -/
def State.roomIn (s : State) (w : Who) (va : Nat) : Nat :=
  match s.rootOf w.isFn w.ctx with
  | none => 0
  | some r =>
    match s.walkFrom va 2 r with
    | .leaf _ p size _ => p + size - va
    | _ => 0

/-- Where a barrier lies: its pool address, or BARRIER_MISUSE (R425). -/
def barrierPlace (w : Who) (va : Nat) : CM Nat := do
  if va % 64 ≠ 0 || 2 ^ 52 ≤ va then throw (.fail stBarrierMisuse)
  else
    match ← place w va true false with
    | .host _ => throw (.fail stBarrierMisuse)
    | .dev pa => return pa

end Sys2Proof.Machine
end

