-- ==== Sys2Proof/Machine/SeqRow.lean ====
section
/-! DEFINITION. How a sequencer runs the instruction at its PC (R323 to R325, R330, R342 to R344). -/

namespace Sys2Proof.Machine

open Sys2Proof

/-- Record a fault in CDW_SEQ_FAULT unless one is recorded (R344). -/
def Core.recordFault (k : Core) (status type slot : Nat) : Core :=
  if bitAt k.seqFault 0 then k
  else { k with seqFault := status * 2 ^ 48 + k.seq.pc % 2048 * 2 ^ 32 + type * 2 ^ 24 + slot * 2 ^ 16 + 1 }

/-- A sequencer fault (R342): recorded, and the command fails. -/
def State.seqFail (s : State) (c status type slot : Nat) : State :=
  (s.updCore c (fun k => k.recordFault status type slot)).failCore c status

/-- Run a sequencer's work; a failure is a fault of R342. -/
def State.seqRun (s : State) (c : Nat) (m : CM Unit) : State :=
  match m.run s with
  | (.ok _, s) => s
  | (.error .wait, s) => s
  | (.error (.fail st), s) => s.seqFail c st 0 0

/-- A sequencer runs instructions: its share is active, the core is not paced to a halt (R502), and its command is neither draining nor
being suspended (R323, R360, R397). -/
def State.seqRuns (s : State) (c : Nat) : Bool :=
  let k := s.core c
  match k.cmd with
  | none => false
  | some key =>
    k.seq.active && !s.halted c && (match s.cmd? key with | none => false | some m => m.draining.isNone && m.phase = .running) &&
      !(s.ctx k.ctx).suspending

/-- The step of an instruction row: the word at the PC, if it is this opcode and well formed, runs `act`; a PC outside the code,
a reserved OP or a non-zero unused bit faults (R342), as does a pattern whose CAP_LEVEL is below 0x0100, the level of every
instruction, descriptor and selector (R321, R322); any other instruction leaves the row without effect (log entry 2). -/
def State.seqRow (s : State) (c op : Nat) (act : Nat → State) : State :=
  if !s.seqRuns c then s
  else
    match (s.core c).seq.ins? with
    | none => s.seqFail c stBadPattern 0 0
    | some w =>
      if (insMask (insOp w)).isNone then s.seqFail c stBadPattern 0 0
      else if insOp w ≠ op then s
      else if !insClean w || (s.core c).seq.capLevel < 0x0100 then s.seqFail c stBadPattern 0 0
      else act w

/-- Change the sequencer of a core. -/
def State.updSeq (s : State) (c : Nat) (f : Sequencer → Sequencer) : State := s.updCore c (fun k => { k with seq := f k.seq })

/-- An instruction that only changes registers and the PC. -/
def State.seqPure (s : State) (c op : Nat) (f : Nat → Sequencer → Sequencer) : State := s.seqRow c op (fun w => s.updSeq c (f w))

/-- A branch that is taken: to its target, or a fault of the branch where that lies outside the code (R325, R342). -/
def State.seqJump (s : State) (c w : Nat) : State :=
  match (s.core c).seq.target? w with
  | none => s.seqFail c stBadPattern 0 0
  | some t => s.updSeq c (fun q => q.goto t)

/-- An instruction whose work may wait or fail. -/
def State.seqWork (s : State) (c op : Nat) (m : Nat → CM Unit) : State := s.seqRow c op (fun w => s.seqRun c (m w))

/-- The sequencer goes on. -/
def seqAdv (c : Nat) : CM Unit := modify (fun s => s.updSeq c Sequencer.adv)

/-- The sequencer waits with a code of R343, and its row is issued again. -/
def seqStall (c wait id : Nat) : CM Unit := do
  modify (fun s => s.updSeq c (fun q => q.stall wait id))
  throw .wait

/-- A part of a sequencer's work, whose wait is one of R343's codes. -/
def waitAs {α : Type} (c wait id : Nat) (m : CM α) : CM α :=
  tryCatch m (fun e => do
    if e = .wait then modify (fun s => s.updSeq c (fun q => q.stall wait id))
    throw e)

/-- The access of a core's sequencer. -/
def State.seqWho (s : State) (c : Nat) : Who := { core := c, unit := 0, cmd := (s.core c).cmd.getD 0, ctx := (s.core c).ctx }

/-- End the FETCH of a buffer that is in flight, or wait for its block (R318, R331); a failure is the FETCH's (R344). -/
def endFetch (c buf : Nat) : CM Unit := do
  let s ← get
  let k := s.core c
  match kfind k.seq.fetch buf with
  | none => return ()
  | some (va, pc) =>
    let (ws, _) ← tryCatch (readBlock (s.seqWho c) va 2048 (blockIdOf k.ctx va) false) (fun e => do
      if e ≠ .wait then modify (fun s => s.updSeq c (fun q => { q with pc := pc }))
      throw e)
    let bs := ws.flatMap (·.data)
    modify (fun s => s.updCore c (fun k =>
      let q := { k.seq with fetch := kdel k.seq.fetch buf }
      let q := if buf = 0 then { q with buf0 := bs, valid0 := true } else { q with buf1 := bs, valid1 := true }
      { k.endAccess 0 with seq := q, sawTies := k.sawTies || ws.any (·.ties) }))

/-- One read of an SRAM word of a core with so many wrong symbols (R459, R467): one or two are corrected and counted, three are
uncorrectable, counted and recorded (log entry 15). -/
def State.sramErr (s : State) (c unit : Nat) (errs : Fin 4) : State :=
  if errs = 0 then s
  else if errs = 3 then (s.rasCount 0x218 1).raise { event := 0x0005, severity := 0, unit := unit, core := c, cluster := clusterOf c }
  else (s.rasCount 0x210 1).raise { event := 0x0004, severity := 2, unit := unit, core := c, cluster := clusterOf c }

/-- An instruction that reads a sync store entry, with wrong symbols in it: an uncorrectable one tears the context down (R469). -/
def State.seqSync (s : State) (c op : Nat) (errs : Fin 4) (m : Nat → CM Unit) : State :=
  s.seqRow c op (fun w =>
    let s := s.sramErr c 0x05 errs
    if errs = 3 then
      let k := s.core c
      let key := k.cmd.getD 0
      (s.consume { event := 0, unit := 0x05, core := c, cluster := clusterOf c, ctx := k.ctx, queue := key / 2 ^ 48, seq := key % 2 ^ 48 }).tear
        k.ctx stPoisonConsumed
    else s.seqRun c (m w))

/-- The word of scratch at an offset of a core's window is read with wrong symbols: an uncorrectable one is poisoned (R467). -/
def State.scratchErr (s : State) (c a : Nat) (errs : Fin 4) : State :=
  let x := (s.core c).ctx
  let s := s.sramErr c 0x06 errs
  if errs = 3 then s.updCore c (fun k => { k with sflags := flagWin (s.ctx x).units k.sflags a 1 1 }) else s

/-- Words that an engine reads with wrong symbols (R459, R467). An uncorrectable way of a slice is `ways` of GATHER (R120). -/
def State.sramWords (s : State) (c unit : Nat) (es : List SramErr) : State :=
  es.foldl (fun s e => match e.place with
    | .scratch w => if 64 * w < s.winSize (s.core c).ctx then s.scratchErr c (64 * w) e.errs else s
    | .bobbin => if e.errs = 3 then s else s.sramErr c 0x07 e.errs
    | .engine => s.sramErr c unit e.errs) s

/-- One of the words is the engine's own, and uncorrectable. -/
def lostWord (es : List SramErr) : Bool := es.any (fun e => e.place = .engine && e.errs = 3)

/-- An engine consumes a poisoned word of its own: its command ends with POISON_CONSUMED (R469). -/
def State.loseWord (s : State) (c unit : Nat) : State :=
  let k := s.core c
  let key := k.cmd.getD 0
  (s.consume { event := 0, unit := unit, core := c, cluster := clusterOf c, ctx := k.ctx, queue := key / 2 ^ 48,
               seq := key % 2 ^ 48 }).failCore c stPoisonConsumed

/-- Scratch address of a sequencer access of `n` bytes, or BAD_PATTERN (R342, R386). -/
def scratchAddr (c addr n align : Nat) : CM Nat := do
  let s ← get
  let a := addr % 2 ^ 64
  if a % align ≠ 0 || s.winSize (s.core c).ctx < a + n then throw (.fail stBadPattern) else return a

/-- Bytes of scratch that a command reads: poison is consumed, and the rounding flag is noted (R465, R469). -/
def readScratch (c unit a n : Nat) : CM (List Byte) := do
  let s ← get
  let x := (s.core c).ctx
  let f := s.scrRangeFlags c x a n
  if bitAt f 0 then
    let key := (s.core c).cmd.getD 0
    set (s.consume { event := 0, unit := unit, core := c, cluster := clusterOf c, ctx := x, addr := a,
                     queue := key / 2 ^ 48, seq := key % 2 ^ 48 })
    throw (.fail stPoisonConsumed)
  else
    set (s.updCore c (fun k => { k with sawTies := k.sawTies || bitAt f 1 }))
    return s.scr c x a n

/-- Whether the command that runs on a core was dispatched under ties away (R59). -/
def State.coreTies (s : State) (c : Nat) : Bool :=
  match (s.core c).cmd.bind s.cmd? with
  | none => false
  | some m => m.ties

end Sys2Proof.Machine
end

