-- ==== Sys2Proof/Machine/Rows.lean ====
section
/-! DEFINITION. Tables and their rows: descriptors (R73), buckets (R75), row maps (R76), slots (R79 to R83), which slot serves a read
epoch (R205), and the row's encoding and widening (R80, R81, R103). -/

namespace Sys2Proof.Machine

open Sys2Proof

/-! ### Descriptor fields (R73) -/

def Table.u (t : Table) (off n : Nat) : Nat := fieldAt t.desc off n
def Table.kind (t : Table) : Nat := t.u 3 1 % 4
/-- Row length L. -/
def Table.len (t : Table) : Nat := 8 * (t.u 4 1 % 128 + 1)
def Table.elem (t : Table) : Fmt := (fmtOfCode (t.u 5 1 % 16)).getD .int8
def Table.oorSkip (t : Table) : Bool := bitAt (t.u 6 1) 7
def Table.adapt (t : Table) : Bool := bitAt (t.u 6 1) 6
def Table.defaultTier (t : Table) : Nat := bitsOf (t.u 6 1) 5 4
def Table.tierMask (t : Table) : Nat := t.u 6 1 % 16
def Table.rowCount (t : Table) : Nat := if t.u 8 5 = 0 then 2 ^ 40 else t.u 8 5
def Table.gen (t : Table) : Nat := t.u 24 4
/-- Unscaled integer tables pool in INT32; all others in FP32 (R103). -/
def Table.isInt (t : Table) : Bool := t.kind = 1

/-- Element format of a tier (R77). -/
def Table.fmt (t : Table) (tier : Nat) : Fmt :=
  if t.kind ≠ 0 then t.elem
  else if tier = 0 then .bf16 else if tier = 1 then .sx8 else if tier = 2 then .sx4 else .sx2

/-! ### Buckets, keys and shard maps (R75, R113, R150, R153) -/

def bucketOf (r : Nat) : Nat := bitsOf r 11 0 ^^^ bitsOf r 23 12
def localOf (r : Nat) : Nat := bitsOf r 39 12

/-- Row id of a bucket's local index. -/
def rowOf (bucket l : Nat) : Nat := l * 4096 + (bucket ^^^ (l % 4096))

/-- The key K of a row (R113). -/
def rowKey (t r : Nat) : Nat := t * 2 ^ 40 + r

/-- XOR fold of a key to `n` bits over its 56 bits (R113, R153, R204, R211). -/
def foldKey (n k : Nat) : Nat := (List.range (cdiv 56 n)).foldl (fun a i => a ^^^ (k % 2 ^ 56 >>> (n * i)) % 2 ^ n) 0

/-- Block id of a row (R82). -/
def rowBlockId (t gen r : Nat) : Nat := t * 2 ^ 48 + gen % 256 * 2 ^ 40 + r % 2 ^ 40

/-- Local shard-map entry of a bucket (R150). -/
def State.shard (s : State) (t b : Nat) : Nat := kget 0 (s.table t).shard b
def shOwner (e : Nat) : Nat := bitsOf e 9 0
def shNext (e : Nat) : Nat := bitsOf e 19 10
def shMigrating (e : Nat) : Bool := bitAt e 21
def shRowMap (e : Nat) : Nat := bitsOf e 79 32
def shEpoch (e : Nat) : Nat := bitsOf e 127 88

/-- An entry from its fields. -/
def shEntry (owner next : Nat) (migrating : Bool) (rowmap epoch : Nat) : Nat :=
  owner % 1024 + next % 1024 * 2 ^ 10 + b2n migrating * 2 ^ 21 + rowmap % 2 ^ 48 * 2 ^ 32 + epoch % 2 ^ 40 * 2 ^ 88

/-- Local indices of a bucket (R76). -/
def Table.bucketRows (t : Table) : Nat := cdiv t.rowCount 4096

/-! ### The table's reserved units (R86, R591) -/

/-- Device offset of a byte of the table's capacity. -/
def Table.phys (t : Table) (v : Nat) : Nat := nthD 0 t.units (v / 2 ^ 25) * 2 ^ 25 + v % 2 ^ 25

/-- The byte of the table's capacity at a device offset. -/
def Table.virt (t : Table) (a : Nat) : Nat := (t.units.findIdx? (fun u => u = a / 2 ^ 25)).getD 0 * 2 ^ 25 + a % 2 ^ 25

/-- Where `n` bytes that must lie together go, from byte `v` on: past a unit boundary between units that do not adjoin. -/
def Table.fit (t : Table) (v n : Nat) : Nat :=
  let u := v / 2 ^ 25
  if n ≤ 2 ^ 25 && 2 ^ 25 < v % 2 ^ 25 + n && nthD 0 t.units (u + 1) ≠ nthD 0 t.units u + 1 then (u + 1) * 2 ^ 25 else v

/-! ### Row maps (R76) -/

/-- Device offset of a row's row-map entry (R76). DESIGN CHOICE: an array that spans reserved units which do not adjoin goes on in the
table's next reserved unit; the shard map gives its start alone (log entry 43). -/
def State.rowMapAt (s : State) (t r : Nat) : Nat :=
  let base := match s.epochs.copies.find? (fun c => c.table = t && !c.isRow && c.bucket = bucketOf r) with
    | some c => c.rowMap
    | none => shRowMap (s.shard t (bucketOf r)) % devSize
  (s.table t).phys ((s.table t).virt base + 8 * localOf r)

/-- A row's row-map entry. -/
def State.rowEntry (s : State) (t r : Nat) : Nat := leNat (s.devBytes (s.rowMapAt t r) 8)

def rmTier (e : Nat) : Nat := bitsOf e 63 62
def rmValid (e : Nat) : Bool := bitAt e 61
def rmMoved (e : Nat) : Bool := bitAt e 60
def rmSnap (e : Nat) : Bool := bitAt e 59
def rmRetier (e : Nat) : Bool := bitAt e 58
def rmSlot (e : Nat) : Nat := bitsOf e 37 0

/-- A row-map entry from its fields. -/
def rmEntry (tier : Nat) (valid moved snap retier : Bool) (slot : Nat) : Nat :=
  tier % 4 * 2 ^ 62 + b2n valid * 2 ^ 61 + b2n moved * 2 ^ 60 + b2n snap * 2 ^ 59 + b2n retier * 2 ^ 58 + slot % 2 ^ 38

/-- Write a row-map entry, charged to pool service WRITE (R171). -/
def State.setRowEntry (s : State) (t r e : Nat) : State :=
  let a := s.rowMapAt t r
  (s.dramCharge (bucketKey 16 1) a 8).writePlain a (leBytes 8 e)

/-! ### Slots (R79 to R83) -/

/-- Payload bytes of a row (R80). -/
def Table.payload (t : Table) (tier : Nat) : Nat :=
  let l := t.len
  let w := fmtWidth (t.fmt tier)
  if t.kind = 0 then (if tier = 0 then 2 * l else cdiv l 32 + l * w / 8)
  else if t.kind = 1 then l * w / 8
  else 8 + l * w / 8

def Table.accOff (t : Table) (tier : Nat) : Nat := cdiv (t.payload tier) 4 * 4
def Table.tagOff (t : Table) (tier : Nat) : Nat := t.accOff tier + (if t.adapt then 4 else 0)
def Table.slotSize (t : Table) (tier : Nat) : Nat := cdiv (t.tagOff tier + 4) 16 * 16

/-- A slot's bytes from its payload and accumulator (R79, R82). -/
def Table.slotBytes (t : Table) (id r tier : Nat) (payload : List Byte) (acc : Nat) : List Byte :=
  let body := payload ++ leBytes (t.accOff tier - payload.length) 0 ++ (if t.adapt then leBytes 4 acc else [])
  body ++ leBytes 4 (selvage body (rowBlockId id t.gen r)) ++ leBytes (t.slotSize tier - t.tagOff tier - 4) 0

/-- The tag of a slot matches its bytes (R82). -/
def Table.tagOk (t : Table) (id r tier : Nat) (slot : List Byte) : Bool :=
  fieldAt slot (t.tagOff tier) 4 = selvage (slot.take (t.tagOff tier)) (rowBlockId id t.gen r)

/-- Element codes of a row's slot, in element order (R41, R80). -/
def Table.codes (t : Table) (tier : Nat) (slot : List Byte) : List Nat :=
  let w := fmtWidth (t.fmt tier)
  let off := if t.kind = 2 then 8 else if t.kind = 0 && tier ≠ 0 then cdiv t.len 32 else 0
  let bits := leNat ((slot.drop off).take (t.len * w / 8))
  (List.range t.len).map (fun i => (bits >>> (w * i)) % 2 ^ w)

/-- Pack codes of `w` bits (R41). -/
def packCodes (w : Nat) (cs : List Nat) : List Byte :=
  leBytes (cs.length * w / 8) (((List.range cs.length).zip cs).foldl (fun a e => a + (e.2 % 2 ^ w) <<< (w * e.1)) 0)

/-- The exact value of a scaled element; NaN where the scale or the bias is NaN or infinite (R81). -/
def scaledVal (scale bias code : FVal) : FVal :=
  match scale, bias with
  | .fin .., .fin .. => fvAdd (fvMul code scale) bias
  | _, _ => .nan

/-- Exact values of a row's elements (R56, R57, R81). -/
def Table.values (t : Table) (tier : Nat) (slot : List Byte) : List FVal :=
  let f := t.fmt tier
  let cs := t.codes tier slot
  if t.kind = 2 then
    cs.map (fun c => scaledVal (f32 (fieldAt slot 0 4)) (f32 (fieldAt slot 4 4)) (decodeElem f 0 c))
  else
    ((List.range cs.length).zip cs).map (fun (i, c) =>
      decodeElem f (if fmtIsSx f then shiftOfField (fieldAt slot (i / 32) 1 % 64) else 0) c)

/-- A row widened to the pooling width: INT32 for an unscaled integer table, else FP32 (R103). -/
def Table.widen (t : Table) (away : Bool) (tier : Nat) (slot : List Byte) : List (Nat × CvtFlags) :=
  if t.isInt then (t.codes tier slot).map (fun c => (unsign 32 (signed (fmtWidth t.elem) c), 0))
  else (t.values tier slot).map (fun v => floatEncode (floatSpec .fp32) away v)

/-- Accumulator of a slot (R79). -/
def Table.accOf (t : Table) (tier : Nat) (slot : List Byte) : Nat := if t.adapt then fieldAt slot (t.accOff tier) 4 else 0

/-- Payload of a tiered row quantised with ties to even (R51, R52, R58). -/
def tierPayload (f : Fmt) (vs : List FVal) : List Byte :=
  if fmtIsSx f then
    let blocks := (List.range (cdiv vs.length 32)).map (fun q => sxBlock f false ((vs.drop (32 * q)).take 32))
    blocks.flatMap (fun b => leBytes 1 (fieldOfShift b.1)) ++ packCodes (fmtWidth f) (blocks.flatMap (·.2.1))
  else packCodes (fmtWidth f) (vs.map (fun v => (convert f false v).1))

/-! ### Allocation (R83, R86; log entry 8) -/

/-- Round up to a codeword. -/
def up64 (a : Nat) : Nat := cdiv a 64 * 64

/-- A fresh slot of a size in codewords of its tier, or none where the capacity is exhausted. -/
def Table.alloc (t : Table) (tier : Nat) : Option (Nat × Table) :=
  let size := t.slotSize tier
  match t.freeSlots.find? (fun f => f.2.1 = size && f.2.2 = tier) with
  | some f => some (f.1, { t with freeSlots := t.freeSlots.erase f, used := t.used + size })
  | none =>
    let o := kget 0 t.openCw tier
    if size ≤ 64 && o % 64 ≠ 0 && o % 64 + size ≤ 64 then
      some (o, { t with openCw := kput t.openCw tier (o + size), used := t.used + size })
    else
      let v := t.fit (up64 t.slotNext) (up64 size)
      if t.capacity < v + up64 size then none
      else some (t.phys v, { t with slotNext := v + up64 size, used := t.used + size,
                                    openCw := if size ≤ 64 then kput t.openCw tier (t.phys v + size) else t.openCw })

/-- Give a slot back. -/
def Table.free (t : Table) (a tier : Nat) : Table :=
  { t with freeSlots := t.freeSlots ++ [(a, t.slotSize tier, tier)], used := t.used - t.slotSize tier }

/-- Write a slot and its codewords' metadata (R82, R461), charged to pool service WRITE (R171). -/
def State.writeSlot (s : State) (a tier : Nat) (bs : List Byte) : State :=
  (s.dramCharge (bucketKey 16 1) a bs.length).writeDev a bs (fun w old =>
    { kind := 2, tier := tier, poison := old.poison && !(decide (a ≤ 64 * w) && decide (64 * w + 64 ≤ a + bs.length)) })

/-! ### Reading a row as of an epoch (R100, R164, R205, R206, R211, R212) -/

/-- What a part answers to a lookup: a reply entry, or the holder to which it sends the lookup on (R155). -/
inductive RowRes where
  | reply (e : ReplyEntry)
  | forward (holder : Nat)
deriving DecidableEq, Repr

/-- Read a slot from device memory for an account's bucket (R171); `bad` says that the row-map codeword was poisoned (R103). -/
def State.readSlot (s : State) (key : Nat) (t : Table) (tier a : Nat) (bad : Bool) : State × ReplyEntry :=
  let size := t.slotSize tier
  let s := (s.dramCharge key a size).touch a size
  let p := bad || s.poisoned a size
  (s, { tier := tier, slot16 := size / 16, estatus := if p then 5 else 0, slot := s.devBytes a size, poison := p,
        ties := s.flagged a size,
        badMeta := (codewords a size).any (fun w => (s.lineMeta w).kind ≠ 2 || (s.lineMeta w).tier ≠ tier) })

/-- Snapshot entries of a row (R204). -/
def Epochs.snapsOf (e : Epochs) (t r : Nat) : List Snap :=
  (kget [] e.snaps (foldKey e.stageRows (rowKey t r)) ++ e.overflow).filter (fun n => n.table = t && n.row = r)

/-- The fence epoch that an SEPOCH names beside local epoch `le` (R205). -/
def fenceEpoch (le sepoch : Nat) : Nat :=
  if (le + 1) % 256 = sepoch then le + 1 else if le % 256 = sepoch then le else le - 1

/-- The snapshot that serves a read epoch: the smallest fence epoch above it (R205). -/
def Epochs.snapFor (e : Epochs) (t r epoch : Nat) : Option Snap :=
  (e.snapsOf t r).foldl (fun best n =>
    let f := fenceEpoch e.epoch n.sepoch
    if f ≤ epoch then best
    else
      match best with
      | none => some n
      | some b => if f < fenceEpoch e.epoch b.sepoch then some n else best) none

/-- A reply without a slot. -/
def bareReply (estatus holder : Nat) : ReplyEntry := { estatus := estatus, holder := holder }

/-- The slot that serves a read epoch, given the row's present slot (R205, R206). -/
def State.rowAsOf (s : State) (key id r epoch : Nat) (valid snap : Bool) (tier slot : Nat) (bad : Bool) : State × ReplyEntry :=
  let t := s.table id
  if s.epochs.lostSnaps.any (fun l => l.1 = id && l.2.1 = r && epoch < l.2.2) then (s, bareReply 3 0)
  else
    match if snap then s.epochs.snapFor id r epoch else none with
    | some n => if n.zero then (s, bareReply 1 0) else s.readSlot key t n.tier n.slot bad
    | none =>
      if bad then (s, { bareReply 5 0 with poison := true })
      else if !valid then (s, bareReply 1 0)
      else s.readSlot key t tier slot bad

/-- The directory entry of a row (R153, R154). -/
def State.dirEntry (s : State) (t r : Nat) : Option DirEntry :=
  (kget [] s.directory (foldKey 18 (rowKey t r))).find? (fun d => d.table = t && d.row = r)

/-- The migration in state CUT that a lookup of a row or its bucket falls under (R212). -/
def State.cutOf (s : State) (t r : Nat) : Option Migration :=
  s.epochs.migrations.find? (fun m => m.table = t && m.state = 4 && (if m.isRow then m.row = r else m.bucket = bucketOf r))

/-- This part owns a row's bucket and has not moved the row. -/
def State.ownsRow (s : State) (t r : Nat) : Bool := shOwner (s.shard t (bucketOf r)) = s.pool.partId && !rmMoved (s.rowEntry t r)

/-- This part counts the row as locally owned (R121, R210): its owner without MOVED, or a copied or held row it has. -/
def State.locallyOwned (s : State) (t r : Nat) : Bool :=
  s.ownsRow t r ||
    s.epochs.held.any (fun h => h.table = t && h.row = r && h.gone = 0) ||
    s.epochs.copies.any (fun c => c.table = t && (if c.isRow then c.row = r else c.bucket = bucketOf r) && (c.complete || c.rows.contains r))

/-- The fence being applied cuts the row's bucket, or the row, over to this part (R209, R212). -/
def State.cutsHere (s : State) (t r : Nat) (isRow : Bool) : Bool :=
  s.epochs.phase = 3 && s.epochs.applying.any (fun c =>
    c.kind = 2 && c.table = t && c.bucket = bucketOf r && c.next = s.pool.partId && c.row = (if isRow then some r else none))

/-- This part has a whole copy of the row or of its bucket: the held-row entry, or the bucket's row map. -/
def State.copyWhole (s : State) (t r : Nat) (isRow : Bool) : Bool :=
  s.epochs.copies.any (fun c => c.table = t && c.isRow = isRow && (if isRow then c.row = r else c.bucket = bucketOf r) && c.complete)

/-- Before its own part of the cut-over is done, this part serves the copy for read epochs from the local one on: parts that have applied the
fence already send their lookups here (R212). -/
def State.copyServes (s : State) (t r epoch : Nat) (isRow : Bool) : Bool :=
  s.cutsHere t r isRow && s.copyWhole t r isRow && s.epochs.epoch ≤ epoch

/-- This part has answered FENCE_CLOSE and does not know yet whether the fence cuts the row's copy over to it: a lookup of the row waits for
FENCE_APPLY (R212; log entry 24). -/
def State.copyPending (s : State) (t r epoch : Nat) : Bool :=
  s.epochs.phase = 2 && s.epochs.epoch ≤ epoch && shOwner (s.shard t (bucketOf r)) ≠ s.pool.partId &&
    (s.copyWhole t r true || s.copyWhole t r false)

/-- The held row by which this part answers a lookup at a read epoch (R211, R212); a holder that a fence has cut off still serves the epochs
before it (log entry 24). -/
def State.heldFor (s : State) (id r epoch : Nat) : Option HeldRow :=
  s.epochs.held.find? (fun h => h.table = id && h.row = r && (h.active || (h.gone = 0 && s.copyServes id r epoch true) || epoch < h.gone))

/-- What this part answers by the row map that it has of the row's bucket (R155, R205). -/
def State.mappedRow (s : State) (key id r epoch : Nat) : State × RowRes :=
  let a := s.rowMapAt id r
  let s := (s.dramCharge key a 8).touch a 8
  let bad := s.poisoned a 8
  let e := s.rowEntry id r
  if rmMoved e && !bad then
    match s.dirEntry id r with
    | none => (s.logEvent 8, .reply (bareReply 4 0))
    | some d =>
      if d.forward || (s.cutOf id r).isSome then (s, .forward d.holder) else (s, .reply (bareReply 2 d.holder))
  else
    let x := s.rowAsOf key id r epoch (rmValid e) (rmSnap e) (rmTier e) (rmSlot e) bad
    (x.1, .reply x.2)

/-- What this part answers to a lookup of a row at a read epoch, as its holder or owner, or as a part that has handed it over (R155, R164,
R205, R211, R212). Its reads are charged to the bucket `key` of the DRAM schedulers (R171). -/
def State.ownerRow (s : State) (key id r epoch : Nat) : State × RowRes :=
  if epoch + 1 < s.epochs.epoch then (s, .reply (bareReply 3 0))
  else
    match s.heldFor id r epoch with
    | some h =>
      let x := s.rowAsOf key id r epoch h.filled h.snap h.tier h.slot false
      (x.1, .reply x.2)
    | none =>
      if shOwner (s.shard id (bucketOf r)) = s.pool.partId || s.copyServes id r epoch false then s.mappedRow key id r epoch
      else
        match s.cutOf id r, s.epochs.moved.find? (fun m => m.1 = id && m.2.1 = bucketOf r) with
        | some m, _ => (s, .forward m.target)
        | none, some m => (s, .reply (bareReply 2 m.2.2))
        | none, none => (s, .reply (bareReply 4 0))

/-- Tier and slot that serve a read epoch, given the row's present slot (R205). -/
def State.slotAsOf (s : State) (id r epoch : Nat) (valid snap : Bool) (tier slot : Nat) : Option (Nat × Nat) :=
  match if snap then s.epochs.snapFor id r epoch else none with
  | some n => if n.zero then none else some (n.tier, n.slot)
  | none => if valid then some (tier, slot) else none

/-- Tier and slot from which this part serves a row at a read epoch (R155, R205, R211). -/
def State.slotFor (s : State) (id r epoch : Nat) : Option (Nat × Nat) :=
  match s.heldFor id r epoch with
  | some h => s.slotAsOf id r epoch h.filled h.snap h.tier h.slot
  | none =>
    let e := s.rowEntry id r
    if (shOwner (s.shard id (bucketOf r)) = s.pool.partId || s.copyServes id r epoch false) && !rmMoved e then
      s.slotAsOf id r epoch (rmValid e) (rmSnap e) (rmTier e) (rmSlot e)
    else none

/-- Pool address of the slot from which this part serves a row; 0, none, for a row of another part (R486). -/
def State.rowAddr (s : State) (id r epoch : Nat) : Nat :=
  match s.slotFor id r epoch with
  | some (_, a) => s.pool.partId * devSize + a
  | none => 0

/-- Count a demand lookup entry served as owner (R207). -/
def State.skewLookup (s : State) (t r : Nat) : State :=
  { s with epochs := { s.epochs with watches := s.epochs.watches.map (fun (i, w) =>
      if w.table = t then (i, { w with counts := kmod {} w.counts (bucketOf r) (fun c => { c with lookups := satAdd 32 c.lookups 1 }) })
      else (i, w)) } }

end Sys2Proof.Machine
end

