-- ==== Sys2Proof/Machine/Bobbin.lean ====
section
/-! DEFINITION. Bobbin slices: lookups and hits (R113 to R118), the miss table (R119), fills and replacement (R121 to R123), aging
(R125), hot-row notices (R126, R207). -/

namespace Sys2Proof.Machine

open Sys2Proof

/-- Set of a row (R113). -/
def bobSet (t r : Nat) : Nat := foldKey 12 (rowKey t r)

/-- Valid tags of a set: way and tag, lowest way first. -/
def Slice.ways (sl : Slice) (set : Nat) : List (Nat × BobTag) :=
  (sl.tags.filter (fun e => e.1 / 16 = set)).map (fun e => (e.1 % 16, e.2))

/-- The epoch a tag serves (R116). -/
def Slice.recorded (sl : Slice) (g : BobTag) : Nat := if g.isLocal then max g.epoch sl.epoch else g.epoch

/-- A dead tag (R130). -/
def Slice.dead (sl : Slice) (g : BobTag) : Bool := !g.isLocal && g.epoch + 1 < sl.epoch

/-- The way that holds a row. -/
def Slice.find (sl : Slice) (t r : Nat) : Option (Nat × BobTag) := (sl.ways (bobSet t r)).find? (fun e => e.2.table = t && e.2.row = r)

/-- The tag a lookup hits (R116, R141). -/
def Slice.hit (sl : Slice) (t r epoch : Nat) : Option (Nat × BobTag) :=
  if !sl.enable then none
  else (sl.find t r).filter (fun e => sl.recorded e.2 = epoch && !sl.dead e.2)

/-- Effect of a hit on its tag (R118). -/
def BobTag.touch (g : BobTag) (demand : Bool) : BobTag :=
  if demand then { g with freq := min (g.freq + 1) 15, age := 0, pref := false } else g

/-- A demand or prefetch lookup's effect on the slice: tag, counters, lookups (R116 to R118, R125, R144). A match except in the epoch is an
epoch miss; a dead tag of the same epoch gives a plain miss. -/
def Slice.look (sl : Slice) (t r epoch : Nat) (demand : Bool) : Slice :=
  let sl := { sl with lookups := sl.lookups + 1 }
  match sl.hit t r epoch with
  | some (w, g) =>
    let c := if demand then bump sl.counters 0x40 1 else sl.counters
    let c := if demand && g.pref then bump c 0x68 1 else c
    { sl with counters := c, tags := kput sl.tags (bobSet t r * 16 + w) (g.touch demand) }
  | none =>
    if !demand then sl
    else
      let c := bump sl.counters 0x48 1
      let other := sl.enable && (sl.find t r).any (fun e => sl.recorded e.2 ≠ epoch)
      { sl with counters := if other then bump c 0x50 1 else c }

/-- Enter a hot-row notice in the skew monitor (R126, R207). -/
def hotAdd (l : List HotRow) (t r k : Nat) : List HotRow :=
  match l.findIdx? (fun h => h.table = t && h.row = r) with
  | some i => (List.range l.length).zip l |>.map (fun (j, h) =>
      if j = i then { h with notices := satAdd 16 h.notices 1, clusters := h.clusters ||| 2 ^ k } else h)
  | none =>
    let n : HotRow := ⟨t, r, 1, 2 ^ k⟩
    if l.length < 256 then l ++ [n]
    else
      let least := l.foldl (fun m h => min m h.notices) 65535
      match l.findIdx? (fun h => h.notices = least) with
      | none => l
      | some i => (List.range l.length).zip l |>.map (fun (j, h) => if j = i then n else h)

/-- Send the notice that a tag owes once FREQ is 15 (R126). -/
def State.hotNotice (s : State) (k t r : Nat) : State :=
  match (s.slice k).find t r with
  | some (w, g) =>
    if g.freq = 15 && !g.noticed then
      let s := s.updSlice k (fun sl => { sl with tags := kput sl.tags (bobSet t r * 16 + w) { g with noticed := true } })
      { s with epochs := { s.epochs with hot := hotAdd s.epochs.hot t r k } }
    else s
  | none => s

/-- A lookup at a slice: the row where it hits. -/
def State.bobLookup (s : State) (k t r epoch : Nat) (demand : Bool) : State × Option ReplyEntry :=
  let sl := s.slice k
  let res := (sl.hit t r epoch).map (fun e =>
    ({ tier := e.2.tier, slot16 := e.2.slot.length / 16, estatus := 0, slot := e.2.slot, ties := e.2.ties } : ReplyEntry))
  let s := s.updSlice k (fun sl => sl.look t r epoch demand)
  (if res.isSome && demand then s.hotNotice k t r else s, res)

/-! ### Fills (R121 to R123) -/

/-- Units a slot takes (R114). -/
def slotUnits (n : Nat) : Nat := cdiv n 64

/-- The next victim of a set: a dead tag, else the lowest FREQ, the highest AGE, the lowest way (R122). -/
def Slice.victim (sl : Slice) (ws : List (Nat × BobTag)) : Option (Nat × BobTag) :=
  match ws.find? (fun e => sl.dead e.2) with
  | some e => some e
  | none => ws.foldl (fun best e =>
      match best with
      | none => some e
      | some b => if e.2.freq < b.2.freq || (e.2.freq = b.2.freq && b.2.age < e.2.age) then some e else best) none

/-- Free ways until one way and `u` units are free: what remains and what was freed (R122). -/
def Slice.makeRoom (sl : Slice) (u : Nat) : Nat → List (Nat × BobTag) → List (Nat × BobTag) → List (Nat × BobTag) × List (Nat × BobTag)
  | 0, ws, freed => (ws, freed)
  | n + 1, ws, freed =>
    let used := (ws.map (·.2.units)).sum
    if ws.length < 16 && used + u ≤ 32 then (ws, freed)
    else
      match sl.victim ws with
      | none => (ws, freed)
      | some v => sl.makeRoom u n (ws.erase v) (freed ++ [v])

/-- Pack the units of a set's ways in ascending way order from unit 0 (R122). -/
def packWays : Nat → List (Nat × BobTag) → List (Nat × BobTag)
  | _, [] => []
  | f, (w, g) :: ws => (w, { g with first := f }) :: packWays (f + g.units) ws

/-- Insert a way in way order. -/
def insertWay (e : Nat × BobTag) : List (Nat × BobTag) → List (Nat × BobTag)
  | [] => [e]
  | x :: xs => if e.1 < x.1 then e :: x :: xs else x :: insertWay e xs

/-- Install a tag in its set, or refuse a prefetch fill (R121 to R123). -/
def Slice.install (sl : Slice) (g : BobTag) : Slice :=
  let set := bobSet g.table g.row
  let all := sl.ways set
  let old := all.filter (fun e => e.2.table = g.table && e.2.row = g.row)
  let r := sl.makeRoom g.units 17 (all.filter (fun e => !(e.2.table = g.table && e.2.row = g.row))) []
  if g.pref && r.2.any (fun v => sl.prefEvictMax < v.2.freq) then { sl with counters := bump sl.counters 0x78 1 }
  else
    let way := (leastBelow 16 (fun w => !r.1.any (fun e => e.1 = w))).getD 0
    let now := packWays 0 (insertWay (way, g) r.1)
    let unused := ((old ++ r.2).filter (fun e => e.2.pref)).length
    let tags := now.foldl (fun m e => kput m (set * 16 + e.1) e.2) (sl.tags.filter (fun e => e.1 / 16 ≠ set))
    { sl with tags := tags, counters := bump (bump sl.counters (if g.pref then 0x60 else 0x58) 1) 0x70 unused }

/-- A row arrives at a slice, from another part where `far` holds: installed, unless a condition of R121 holds. -/
def State.bobFill (s : State) (k t r epoch : Nat) (e : ReplyEntry) (prefetch far : Bool) : State :=
  let sl := s.slice k
  let tab := s.table t
  let mine := s.locallyOwned t r
  let u := slotUnits e.slot.length
  let later := match sl.find t r with | none => false | some x => epoch < sl.recorded x.2
  if !sl.enable then s
  else if e.estatus ≠ 0 then s
  else if tab.state ≠ 2 then s
  else if e.badMeta || !tab.tagOk t r e.tier e.slot then s
  else if 16 < u then s.updSlice k (fun sl => { sl with counters := bump sl.counters 0x80 1 })
  else if later || (mine && !sl.applying && epoch < sl.epoch) then s
  else
    s.updSlice k (fun sl => sl.install
      { isLocal := mine && !sl.applying && !far, pref := prefetch, tier := e.tier, units := u, first := 0, freq := if prefetch then 0 else 1,
        age := 0, row := r, table := t, epoch := epoch, slot := e.slot, noticed := false, ties := e.ties })

/-- Drop the tags that `p` selects; unused prefetches among them are counted (R144). -/
def Slice.dropTags (sl : Slice) (p : Nat × BobTag → Bool) : Slice :=
  { sl with tags := sl.tags.filter (fun g => !p g), counters := bump sl.counters 0x70 (sl.tags.filter (fun g => p g && g.2.pref)).length }

/-- Ways, by set × 16 + way, in whose tag or units the code has found an uncorrectable error: each is dropped, counted and recorded
(R120, R467, R495; log entry 15). -/
def State.dropWays (s : State) (k : Nat) (ways : List Nat) : State :=
  ways.foldl (fun s i =>
    match kfind (s.slice k).tags i with
    | none => s
    | some g => ((s.updSlice k (fun sl => sl.dropTags (fun e => e.1 = i))).rasCount 0x218 1).raise
        { event := 0x0005, severity := 0, unit := 0x07, cluster := k, blockId := rowBlockId g.table (s.table g.table).gen g.row }) s

/-! ### The miss table (R119) -/

/-- An open miss that a lookup joins. -/
def Miss.joins (m : Miss) (t r epoch : Nat) : Bool := m.merge && m.table = t && m.row = r && m.epoch = epoch

/-- A miss that a lookup of a key would join is open. -/
def Slice.joinable (sl : Slice) (t r epoch : Nat) : Bool := sl.misses.any (fun m => m.joins t r epoch)

/-- A lookup that misses joins an open miss, or opens one; the flag says that it joined (R119, R139). -/
def Slice.miss (sl : Slice) (t r epoch : Nat) (prefetch : Bool) (w : MissWaiter) : Slice × Bool :=
  if sl.joinable t r epoch then
    ({ sl with misses := sl.misses.map (fun m => if m.joins t r epoch then
        { m with waiters := m.waiters ++ [w], prefetch := m.prefetch && prefetch } else m) }, true)
  else
    ({ sl with misses := sl.misses ++ [{ table := t, row := r, epoch := epoch, prefetch := prefetch,
                                         merge := (sl.misses.filter (·.merge)).length < 256, waiters := [w] }] }, false)

/-- Prefetch lookups outstanding at a slice (R134). -/
def Slice.prefetching (sl : Slice) : Nat := ((sl.misses.map (fun m => (m.waiters.filter (fun w => w.kind = 2)).length))).sum

end Sys2Proof.Machine
end

