-- ==== Sys2Proof/Machine/Exchange.lean ====
section
/-! DEFINITION. Exchange units: owner resolution and acceptance (R152, R156 to R158, R166), and what an answer does to the lookups that
wait on it (R100, R103, R119, R163). -/

namespace Sys2Proof.Machine

open Sys2Proof

/-- BATCH_MAX, BATCH_AGE and REPLY_TIMEOUT as they act (R183). -/
def Exchange.cap (x : Exchange) : Nat := if x.batchMax = 0 || 64 < x.batchMax then 64 else x.batchMax
def Exchange.age (x : Exchange) : Nat := max 1 x.batchAge
def Exchange.timeout (x : Exchange) : Nat := max 1 x.replyTimeout

/-- Open batches an exchange unit holds: a closed batch keeps its slot until it is sent (R158). A batch that goes out again holds none. -/
def Exchange.openCount (x : Exchange) : Nat := ((x.openB ++ x.closed ++ x.round).filter (fun b => !b.resent)).length

/-- Owner-cache set of a line (R152). -/
def ownerSet (t line : Nat) : Nat := ((t % 256) ^^^ (line % 128) ^^^ (t / 256 % 256)) % 256

/-- Resolve an owner through the owner cache: a miss reads the owner array and replaces the least recently used line (R152). -/
def Exchange.touchOwner (x : Exchange) (t b : Nat) : Exchange :=
  let line := b / 32
  let set := ownerSet t line
  let l := kget [] x.ownerCache set
  { x with ownerCache := kput x.ownerCache set (((t, line) :: l.erase (t, line)).take 8),
           counters := if l.contains (t, line) then x.counters else bump x.counters 0x170 1 }

/-- The hint for a row and read epoch (R166). -/
def Exchange.hint (x : Exchange) (t r epoch : Nat) : Option Nat :=
  (x.hints.find? (fun h => h.table = t && h.row = r && h.epoch = epoch)).map (·.holder)

/-- An entry of the compact owner array (R152): OWNER in bits [9:0], MIGRATING in bit 15. The array follows the local shard map, so that
the model reads it from there. -/
def State.ownerEntry (s : State) (t b : Nat) : Nat := shOwner (s.shard t b) + b2n (shMigrating (s.shard t b)) * 2 ^ 15

/-- Part to which a unit sends a lookup, and whether it goes there under a hint (R151, R152, R166). -/
def State.lookupTarget (s : State) (k t r epoch : Nat) : Nat × Bool :=
  match (s.exch k).hint t r epoch with
  | some h => (h, true)
  | none => (s.ownerEntry t (bucketOf r) % 1024, false)

/-- A batch has the key of R156. -/
def Batch.isFor (b : Batch) (owner part epoch : Nat) (prefetch redirected : Bool) : Bool :=
  b.owner = owner && b.part = part && b.epoch = epoch && b.prefetch = prefetch && b.redirected = redirected

/-- The unit can take an entry of this key now (R157). -/
def Exchange.accepts (x : Exchange) (owner part epoch : Nat) (prefetch redirected : Bool) : Bool :=
  x.openB.any (fun b => b.isFor owner part epoch prefetch redirected) || x.openCount < 1024

/-- Take an entry into the open batch of its key; a full batch closes (R156, R158). -/
def Exchange.take (x : Exchange) (now owner part epoch : Nat) (prefetch redirected : Bool) (e : XchgEntry) : Exchange :=
  match x.openB.find? (fun b => b.isFor owner part epoch prefetch redirected) with
  | some b =>
    let b' := { b with entries := b.entries ++ [e] }
    if b.cap ≤ b'.entries.length then { x with openB := x.openB.erase b, closed := x.closed ++ [b'] }
    else { x with openB := x.openB.map (fun c => if c = b then b' else c) }
  | none =>
    let b : Batch := { owner := owner, part := part, epoch := epoch, prefetch := prefetch, redirected := redirected, entries := [e],
                       opened := now, cap := x.cap, age := x.age, timeout := x.timeout }
    if b.cap ≤ 1 then { x with closed := x.closed ++ [b] } else { x with openB := x.openB ++ [b] }

/-- A lookup that goes out again: into a batch, or it waits until one can be made (R156, R157, R166). -/
def Exchange.offer (x : Exchange) (now : Nat) (a : Reissue) : Exchange :=
  if x.again.isEmpty && x.accepts a.owner a.part a.epoch a.entry.prefetch a.redirected then
    x.take now a.owner a.part a.epoch a.entry.prefetch a.redirected a.entry
  else { x with again := x.again ++ [a] }

/-- Waiting lookups enter batches in order while one can be made. -/
def Exchange.offerAgain (x : Exchange) (now : Nat) : Exchange :=
  x.again.foldl (fun x a => x.offer now a) { x with again := [] }

/-- Close the open batches that satisfy `p` (R158). -/
def Exchange.close (x : Exchange) (p : Batch → Bool) : Exchange :=
  { x with openB := x.openB.filter (fun b => !p b), closed := x.closed ++ x.openB.filter p }

/-! ### Answers to ring entries (R100, R102, R103) -/

/-- Change a gather in progress on a core. -/
def Core.updRun (k : Core) (gid : Nat) (f : GatherRun → GatherRun) : Core :=
  { k with gathers := k.gathers.map (fun g => if g.gid = gid then f g else g) }

/-- A gather in progress on a core. -/
def Core.run? (k : Core) (gid : Nat) : Option GatherRun := k.gathers.find? (fun g => g.gid = gid)

/-- The gather descriptor's fields (R98). -/
def GatherRun.u (g : GatherRun) (off n : Nat) : Nat := fieldAt g.desc off n
def GatherRun.table (g : GatherRun) : Nat := g.u 2 2
def GatherRun.mode (g : GatherRun) : Nat := g.u 4 1 % 8
def GatherRun.wfmt (g : GatherRun) : Nat := bitsOf (g.u 4 1) 5 4
def GatherRun.outFmt (g : GatherRun) : Nat := bitsOf (g.u 4 1) 7 6
def GatherRun.count (g : GatherRun) : Nat := g.u 8 4
def GatherRun.bags (g : GatherRun) : Nat := g.u 12 4
def GatherRun.ring (g : GatherRun) : Nat := g.u 40 3 % 2 ^ 21
def GatherRun.ringSize (g : GatherRun) : Nat := 2 ^ (g.u 43 1 % 16)
def GatherRun.pair (g : GatherRun) : Nat := g.u 50 1 % 64

/-- Entry with an absolute number, while it is reserved. -/
def GatherRun.entry? (g : GatherRun) (n : Nat) : Option RingEntry := if n < g.first then none else g.entries[n - g.first]?

/-- Change an entry. -/
def GatherRun.setEntry (g : GatherRun) (n : Nat) (e : RingEntry) : GatherRun :=
  if n < g.first then g else { g with entries := g.entries.set (n - g.first) e }

/-- Hand ready entries to the vector engine in ring order, one producer unit each, at most `fuel` (R102). -/
def handOver (k : Core) (gid : Nat) : Nat → Core
  | 0 => k
  | fuel + 1 =>
    match k.run? gid with
    | none => k
    | some g =>
      match g.entry? g.handed with
      | some e =>
        if e.ready then handOver ((k.updRun gid (fun g => { g with handed := g.handed + 1 })).giveProd k.ctx g.pair 2) gid fuel
        else k
      | none => k

/-- An entry is ready; entries are handed over (R102). -/
def State.entryReady (s : State) (c gid n : Nat) (e : RingEntry) : State :=
  s.updCore c (fun k => handOver (k.updRun gid (fun g => g.setEntry n { e with ready := true, source := 0 })) gid 4097)

/-- Row area of an entry in the staging ring (R104). -/
def GatherRun.rowArea (g : GatherRun) (l n : Nat) : Nat := g.ring + 4 * l * (n % g.ringSize)

/-- Sideband of an entry (R104). -/
def GatherRun.sideArea (g : GatherRun) (l n : Nat) : Nat := g.ring + 4 * l * g.ringSize + 8 * (n % g.ringSize)

/-- A poisoned entry other than `n` stands in the 64-byte word of scratch that holds window offset `a`. -/
def GatherRun.poisonAt (g : GatherRun) (l n a : Nat) : Bool :=
  ((List.range g.entries.length).zip g.entries).any (fun (i, e) =>
    g.first + i ≠ n && e.poison && meet (a / 64 * 64, a / 64 * 64 + 64) (g.rowArea l (g.first + i), g.rowArea l (g.first + i) + 4 * l))

/-- The words that an entry's row shares with other entries lose the poison of rows that have left them (log entry 43). -/
def State.healWords (s : State) (c : Nat) (g : GatherRun) (l n : Nat) : State :=
  let u := (s.ctx (s.core c).ctx).units
  [g.rowArea l n, g.rowArea l n + 4 * l - 1].foldl (fun s a =>
    if g.poisonAt l n a then s
    else s.updCore c (fun k => { k with sflags := kset 0 k.sflags (winAddr u a / 64) (kget 0 k.sflags (winAddr u a / 64) &&& 2) })) s

/-- Write a row of elements to an entry's area, its words flagged POISON where `poison` holds (R103, R469). -/
def State.writeRow (s : State) (c : Nat) (g : GatherRun) (l n : Nat) (vs : List Nat) (poison : Bool) : State :=
  (s.healWords c g l n).writeScr c (s.core c).ctx (g.rowArea l n) (vs.flatMap (leBytes 4)) (s.tieFlag c (s.coreTies c) ||| b2n poison)

/-- A reply reaches a ring entry that waits: delivered, zeroed, poisoned, or the end of the step (R78, R100, R103, R163, R464). DESIGN
CHOICE: the words of a poisoned entry hold zeros (log entry 43). -/
def State.deliverRing (s : State) (c gid n : Nat) (r : ReplyEntry) : State :=
  match (s.core c).run? gid with
  | none => s
  | some g =>
    match g.entry? n with
    | none => s
    | some e =>
      if e.ready then s
      else
        let t := s.table g.table
        if r.estatus = 1 then (s.writeRow c g t.len n (List.replicate t.len 0) false).entryReady c gid n e
        else if r.estatus = 3 then s.failCore c stEpochClosed
        else if r.poison || r.estatus = 5 then
          (s.writeRow c g t.len n (List.replicate t.len 0) true).entryReady c gid n { e with poison := true }
        else if r.estatus = 0 then
          if r.badMeta || !t.tagOk g.table e.row r.tier r.slot then s.failCore c stSelvageMismatch
          else
            let vs := t.widen (s.coreTies c) r.tier r.slot
            let s := s.updCore c (fun k => { k with sawTies := k.sawTies || r.ties, cvt := k.cvt ||| vs.foldl (fun a v => a ||| v.2) 0 })
            (s.writeRow c g t.len n (vs.map (·.1)) false).entryReady c gid n e
        else s.failCore c stTableUnavailable

/-- A mismatch found in a row that has reached its reader: counted, and the slot is to be read again from storage, in this part or another
(R464, R466). -/
def State.replyCheck (s : State) (t r epoch : Nat) (e : ReplyEntry) (q seq : Nat) : State :=
  let tab := s.table t
  if e.estatus = 0 && !e.poison && (e.badMeta || !tab.tagOk t r e.tier e.slot) then
    let again : Reread := { addr := 0, size := tab.slotSize e.tier, blockId := rowBlockId t tab.gen r, isRow := true, tier := e.tier,
                            queue := q, seq := seq, epoch := epoch }
    match s.slotFor t r epoch with
    | some (tier, a) => s.mismatch { again with addr := a, tier := tier, size := tab.slotSize tier }
    | none => s.mismatch { again with far := true }
  else s

/-- Change one batch that a unit serves. -/
def State.updServing (s : State) (k sid : Nat) (f : Serving → Serving) : State :=
  s.updExch k (fun x => { x with serving := x.serving.map (fun v => if v.sid = sid then f v else v) })

/-- Answer an entry of a served batch (R164). -/
def State.setReply (s : State) (k sid i : Nat) (r : ReplyEntry) : State :=
  s.updServing k sid (fun v => { v with entries := (List.range v.entries.length).zip v.entries |>.map (fun (j, e) =>
    if j = i && e.reply.isNone then { e with reply := some r } else e) })

/-- Deliver a reply to a lookup's waiter: a ring entry, or an entry that unit `k` serves (R119). -/
def State.deliver1 (s : State) (k : Nat) (w : MissWaiter) (r : ReplyEntry) : State :=
  if w.kind = 0 then s.deliverRing w.core w.gid w.entry r
  else if w.kind = 1 then s.setReply k w.gid w.entry r
  else s

/-- A ring entry that a waiter names still waits: its step has neither ended nor gone to replay (R167). -/
def State.ringWaits (s : State) (w : MissWaiter) : Bool :=
  w.kind = 0 && (((s.core w.core).run? w.gid).bind (fun g => g.entry? w.entry)).any (fun e => !e.ready)

/-- A waiter of slice `k` to which an answer would go. -/
def State.waits (s : State) (k : Nat) (w : MissWaiter) : Bool :=
  s.ringWaits w || w.kind = 2 || (w.kind = 1 && (s.exch k).serving.any (fun v => v.sid = w.gid))

/-- A miss's row arrives at slice `k`, from another part where `far` holds: delivered to every lookup that waits on it, and installed
(R119, R121, R139). -/
def State.answer (s : State) (k : Nat) (m : Miss) (r : ReplyEntry) (far : Bool) : State :=
  let s := s.updSlice k (fun sl => { sl with misses := sl.misses.erase m })
  let first := m.waiters.find? (fun w => w.kind = 0)
  let key := match first with | none => 0 | some w => ((s.core w.core).cmd.getD 0)
  let s := s.replyCheck m.table m.row m.epoch r (key / 2 ^ 48) (key % 2 ^ 48)
  let s := m.waiters.foldl (fun s w => s.deliver1 k w r) s
  s.bobFill k m.table m.row m.epoch r m.prefetch far

/-- The open miss that a waiter stands in. -/
def Slice.missOf (sl : Slice) (t r epoch : Nat) (w : MissWaiter) : Option Miss :=
  sl.misses.find? (fun m => m.table = t && m.row = r && m.epoch = epoch && m.waiters.contains w)

/-- The waiter of a batch entry. -/
def XchgEntry.waiter (e : XchgEntry) : MissWaiter :=
  if e.prefetch then { kind := 2, core := e.core, gid := e.gid } else { kind := 0, core := e.core, gid := e.gid, entry := e.entry }

end Sys2Proof.Machine
end

