-- ==== Sys2Proof/Machine/Lanes.lean ====
section
/-! DEFINITION. One vector instruction on one element (R260, R267 to R275), and the rows that run one. The VECTOR row runs whole
programs with the same functions. -/

namespace Sys2Proof.Machine

open Sys2Proof

/-! ### Fields and operands (R267, R268) -/

def vxOpc (w : Nat) : Nat := bitsOf w 31 26
def vxDst (w : Nat) : Nat := bitsOf w 25 23
def vxA (w : Nat) : Nat := bitsOf w 22 18
def vxB (w : Nat) : Nat := bitsOf w 17 13
def vxC (w : Nat) : Nat := bitsOf w 12 8
def vxSeg (w : Nat) : Nat := bitsOf w 6 5
def vxBit4 (w : Nat) : Bool := bitAt w 4
def vxBit7 (w : Nat) : Bool := bitAt w 7

/-- The 32-bit value an operand code names for the element at hand (R268); reserved codes read as zero and are refused (R285). -/
def VxState.operand (st : VxState) (code : Nat) : Nat :=
  (if code < 8 then nthD 0 st.v code
  else if code < 16 then nthD 0 st.p (code - 8)
  else if code < 22 then nthD 0 st.s (code - 16)
  else
    match code with
    | 22 => st.idx
    | 23 => st.row
    | 24 => st.col
    | 26 => 0x3F800000
    | 27 => st.weight
    | 28 => b2n st.start
    | 29 => b2n st.contrib
    | _ => 0) % 2 ^ 32

/-- Neither +0 nor -0, as SEL and segment flags judge (R269, R273). -/
def truthy (x : Nat) : Bool := x ≠ 0 && x ≠ 0x80000000

/-! ### Arithmetic (R269 to R271) -/

/-- INT32 arithmetic, saturating (R270). -/
def isat (i : Int) : Nat × CvtFlags := clampInt 32 i

/-- The canonical NaN in place of any NaN, else the pattern with its sign set to `neg` (R270). -/
def setSign (x : Nat) (neg : Bool) : Nat := if fvIsNan (f32 x) then nan32 else x % 2 ^ 31 + zero32 neg

/-- Result and flags of the opcodes that keep no carry (R269). -/
def vxAlu (ties : Bool) (op a b c : Nat) : Nat × CvtFlags :=
  match op with
  | 0x01 => (a, 0)
  | 0x02 => fadd32 ties a b
  | 0x03 => arith32 ties (fvAdd (f32 a) (fvNeg (f32 b)))
  | 0x04 => fmul32 ties a b
  | 0x05 => ffma32 ties a b c
  | 0x06 => (fmin32 a b, 0)
  | 0x07 => (fmax32 a b, 0)
  | 0x08 => (setSign a false, 0)
  | 0x09 => (setSign a (!a.testBit 31), 0)
  | 0x0A => fdiv32 ties a b
  | 0x0B => fsqrt32 ties a
  | 0x0C => frsqrt32 ties a
  | 0x0D => fexp32 ties a
  | 0x0E => flog32 ties a
  | 0x0F => ftanh32 ties a
  | 0x10 => fsigm32 ties a
  | 0x11 => (b2n (fvLt (f32 a) (f32 b)), 0)
  | 0x12 => (b2n (fvLt (f32 a) (f32 b) || fvEq (f32 a) (f32 b)), 0)
  | 0x13 => (b2n (fvEq (f32 a) (f32 b)), 0)
  | 0x14 => (if truthy a then b else c, 0)
  | 0x15 => arith32 ties (intVal (signed 32 a))
  | 0x16 => intEncode 32 ties (f32 a)
  | 0x17 => (fmin32 (fmax32 a b) c, 0)
  | 0x18 => isat (signed 32 a + signed 32 b)
  | 0x19 => isat (signed 32 a - signed 32 b)
  | 0x1A => isat (signed 32 a * signed 32 b)
  | 0x1B => (if signed 32 a ≤ signed 32 b then a else b, 0)
  | 0x1C => (if signed 32 b ≤ signed 32 a then a else b, 0)
  | 0x1D => (a &&& b, 0)
  | 0x1E => (a ||| b, 0)
  | 0x1F => (a ^^^ b, 0)
  | 0x20 => ((a <<< (b % 32)) % 2 ^ 32, 0)
  | 0x21 => (unsign 32 (signed 32 a >>> (b % 32)), 0)
  | 0x22 => (a >>> (b % 32), 0)
  | 0x23 => (b2n (signed 32 a < signed 32 b), 0)
  | 0x24 => (b2n (a = b), 0)
  | _ => (0, 0)

/-- Write a destination register and collect flags. -/
def VxState.put (st : VxState) (dst : Nat) (r : Nat × CvtFlags) : VxState :=
  { st with v := st.v.set dst r.1, flags := st.flags ||| r.2 }

/-! ### Scans (R272, R273) -/

/-- A carry after an update; an empty carry takes the value itself (R272). -/
def scanStep (ties : Bool) (op : Nat) (carry : Option Nat) (a b : Nat) : Nat × CvtFlags :=
  match carry with
  | none => if op = 0x2B then fmul32 ties a b else (a, 0)
  | some k =>
    match op with
    | 0x28 => fadd32 ties k a
    | 0x29 => (fmax32 k a, 0)
    | 0x2A => (fmin32 k a, 0)
    | 0x2B => ffma32 ties a b k
    | 0x2C => isat (signed 32 k + signed 32 a)
    | 0x2D => (if signed 32 a ≤ signed 32 k then k else a, 0)
    | _ => (if signed 32 k ≤ signed 32 a then k else a, 0)

/-- The element starts a segment under a scan's or store's own source (R273). -/
def VxState.starts (st : VxState) (w : Nat) : Bool :=
  st.row = 0 || (vxSeg w = 1 && truthy (st.operand (vxC w))) || (vxSeg w = 2 && st.start)

/-- A scan instruction (R272). -/
def VxState.scanOp (st : VxState) (w : Nat) : VxState :=
  let key := st.scan * 4096 + st.col
  let before := if st.starts w then none else kfind st.carry key
  let step := scanStep st.ties (vxOpc w) before (st.operand (vxA w)) (st.operand (vxB w))
  let idle := vxBit7 w && !st.contrib
  let after := if idle then before else some step.1
  let carry := match after with | none => kdel st.carry key | some k => kput st.carry key k
  let res := if vxBit4 w then before.getD 0 else after.getD 0
  { (st.put (vxDst w) (res, if idle then 0 else step.2)) with carry := carry, scan := st.scan + 1 }

/-- ST (R269, R274): a SEGEND store writes at its segment's ordinal, and only at the segment's end. -/
def VxState.store (st : VxState) (w : Nat) : VxState :=
  if vxBit4 w && !st.segEnd then st
  else
    let key := st.idx * 2 ^ 48 + (if vxBit4 w then st.segOrd else st.row) * 4096 + st.col
    let val := (st.operand (vxA w), vxBit7 w)
    if bitAt w 23 then { st with d1 := kput st.d1 key val } else { st with d0 := kput st.d0 key val }

/-- One instruction on the element at hand. -/
def VxState.step (st : VxState) (w : Nat) : VxState :=
  let op := vxOpc w
  if op = 0 then st
  else if op = 0x30 then st.store w
  else if 0x28 ≤ op && op ≤ 0x2E then st.scanOp w
  else if op ≤ 0x24 then st.put (vxDst w) (vxAlu st.ties op (st.operand (vxA w)) (st.operand (vxB w)) (st.operand (vxC w)))
  else st

/-- The row of a vector instruction: a word of that opcode acts on the element state of the core's engine. -/
def State.vxRow (s : State) (c op w : Nat) : State :=
  if vxOpc w = op then s.updCore c (fun k => { k with vx := { k.vx with elem := k.vx.elem.step w } }) else s

/-- NOP (R269). -/
def execVxNop (c : CoreId) (w : BitVec 32) (s : State) : Host.Outcome State Fault Refusal :=
  .next (s.vxRow c 0x00 w.toNat)

/-- MOV (R269). -/
def execVxMov (c : CoreId) (w : BitVec 32) (s : State) : Host.Outcome State Fault Refusal :=
  .next (s.vxRow c 0x01 w.toNat)

/-- FADD (R269). -/
def execVxFadd (c : CoreId) (w : BitVec 32) (s : State) : Host.Outcome State Fault Refusal :=
  .next (s.vxRow c 0x02 w.toNat)

/-- FSUB (R269). -/
def execVxFsub (c : CoreId) (w : BitVec 32) (s : State) : Host.Outcome State Fault Refusal :=
  .next (s.vxRow c 0x03 w.toNat)

/-- FMUL (R269). -/
def execVxFmul (c : CoreId) (w : BitVec 32) (s : State) : Host.Outcome State Fault Refusal :=
  .next (s.vxRow c 0x04 w.toNat)

/-- FFMA (R269). -/
def execVxFfma (c : CoreId) (w : BitVec 32) (s : State) : Host.Outcome State Fault Refusal :=
  .next (s.vxRow c 0x05 w.toNat)

/-- FMIN (R269). -/
def execVxFmin (c : CoreId) (w : BitVec 32) (s : State) : Host.Outcome State Fault Refusal :=
  .next (s.vxRow c 0x06 w.toNat)

/-- FMAX (R269). -/
def execVxFmax (c : CoreId) (w : BitVec 32) (s : State) : Host.Outcome State Fault Refusal :=
  .next (s.vxRow c 0x07 w.toNat)

/-- FABS (R269). -/
def execVxFabs (c : CoreId) (w : BitVec 32) (s : State) : Host.Outcome State Fault Refusal :=
  .next (s.vxRow c 0x08 w.toNat)

/-- FNEG (R269). -/
def execVxFneg (c : CoreId) (w : BitVec 32) (s : State) : Host.Outcome State Fault Refusal :=
  .next (s.vxRow c 0x09 w.toNat)

/-- FDIV (R269). -/
def execVxFdiv (c : CoreId) (w : BitVec 32) (s : State) : Host.Outcome State Fault Refusal :=
  .next (s.vxRow c 0x0A w.toNat)

/-- FSQRT (R269). -/
def execVxFsqrt (c : CoreId) (w : BitVec 32) (s : State) : Host.Outcome State Fault Refusal :=
  .next (s.vxRow c 0x0B w.toNat)

/-- FRSQRT (R269). -/
def execVxFrsqrt (c : CoreId) (w : BitVec 32) (s : State) : Host.Outcome State Fault Refusal :=
  .next (s.vxRow c 0x0C w.toNat)

/-- FEXP (R269). -/
def execVxFexp (c : CoreId) (w : BitVec 32) (s : State) : Host.Outcome State Fault Refusal :=
  .next (s.vxRow c 0x0D w.toNat)

/-- FLOG (R269). -/
def execVxFlog (c : CoreId) (w : BitVec 32) (s : State) : Host.Outcome State Fault Refusal :=
  .next (s.vxRow c 0x0E w.toNat)

/-- FTANH (R269). -/
def execVxFtanh (c : CoreId) (w : BitVec 32) (s : State) : Host.Outcome State Fault Refusal :=
  .next (s.vxRow c 0x0F w.toNat)

/-- FSIGM (R269). -/
def execVxFsigm (c : CoreId) (w : BitVec 32) (s : State) : Host.Outcome State Fault Refusal :=
  .next (s.vxRow c 0x10 w.toNat)

/-- FCLT (R269). -/
def execVxFclt (c : CoreId) (w : BitVec 32) (s : State) : Host.Outcome State Fault Refusal :=
  .next (s.vxRow c 0x11 w.toNat)

/-- FCLE (R269). -/
def execVxFcle (c : CoreId) (w : BitVec 32) (s : State) : Host.Outcome State Fault Refusal :=
  .next (s.vxRow c 0x12 w.toNat)

/-- FCEQ (R269). -/
def execVxFceq (c : CoreId) (w : BitVec 32) (s : State) : Host.Outcome State Fault Refusal :=
  .next (s.vxRow c 0x13 w.toNat)

/-- SEL (R269). -/
def execVxSel (c : CoreId) (w : BitVec 32) (s : State) : Host.Outcome State Fault Refusal :=
  .next (s.vxRow c 0x14 w.toNat)

/-- CVTIF (R269). -/
def execVxCvtif (c : CoreId) (w : BitVec 32) (s : State) : Host.Outcome State Fault Refusal :=
  .next (s.vxRow c 0x15 w.toNat)

/-- CVTFI (R269). -/
def execVxCvtfi (c : CoreId) (w : BitVec 32) (s : State) : Host.Outcome State Fault Refusal :=
  .next (s.vxRow c 0x16 w.toNat)

/-- FCLAMP (R269). -/
def execVxFclamp (c : CoreId) (w : BitVec 32) (s : State) : Host.Outcome State Fault Refusal :=
  .next (s.vxRow c 0x17 w.toNat)

/-- IADD (R269). -/
def execVxIadd (c : CoreId) (w : BitVec 32) (s : State) : Host.Outcome State Fault Refusal :=
  .next (s.vxRow c 0x18 w.toNat)

/-- ISUB (R269). -/
def execVxIsub (c : CoreId) (w : BitVec 32) (s : State) : Host.Outcome State Fault Refusal :=
  .next (s.vxRow c 0x19 w.toNat)

/-- IMUL (R269). -/
def execVxImul (c : CoreId) (w : BitVec 32) (s : State) : Host.Outcome State Fault Refusal :=
  .next (s.vxRow c 0x1A w.toNat)

/-- IMIN (R269). -/
def execVxImin (c : CoreId) (w : BitVec 32) (s : State) : Host.Outcome State Fault Refusal :=
  .next (s.vxRow c 0x1B w.toNat)

/-- IMAX (R269). -/
def execVxImax (c : CoreId) (w : BitVec 32) (s : State) : Host.Outcome State Fault Refusal :=
  .next (s.vxRow c 0x1C w.toNat)

/-- AND (R269). -/
def execVxAnd (c : CoreId) (w : BitVec 32) (s : State) : Host.Outcome State Fault Refusal :=
  .next (s.vxRow c 0x1D w.toNat)

/-- OR (R269). -/
def execVxOr (c : CoreId) (w : BitVec 32) (s : State) : Host.Outcome State Fault Refusal :=
  .next (s.vxRow c 0x1E w.toNat)

/-- XOR (R269). -/
def execVxXor (c : CoreId) (w : BitVec 32) (s : State) : Host.Outcome State Fault Refusal :=
  .next (s.vxRow c 0x1F w.toNat)

/-- SHL (R269). -/
def execVxShl (c : CoreId) (w : BitVec 32) (s : State) : Host.Outcome State Fault Refusal :=
  .next (s.vxRow c 0x20 w.toNat)

/-- SHRA (R269). -/
def execVxShra (c : CoreId) (w : BitVec 32) (s : State) : Host.Outcome State Fault Refusal :=
  .next (s.vxRow c 0x21 w.toNat)

/-- SHRL (R269). -/
def execVxShrl (c : CoreId) (w : BitVec 32) (s : State) : Host.Outcome State Fault Refusal :=
  .next (s.vxRow c 0x22 w.toNat)

/-- ICLT (R269). -/
def execVxIclt (c : CoreId) (w : BitVec 32) (s : State) : Host.Outcome State Fault Refusal :=
  .next (s.vxRow c 0x23 w.toNat)

/-- ICEQ (R269). -/
def execVxIceq (c : CoreId) (w : BitVec 32) (s : State) : Host.Outcome State Fault Refusal :=
  .next (s.vxRow c 0x24 w.toNat)

/-- SCAN_FADD (R269). -/
def execVxScanFadd (c : CoreId) (w : BitVec 32) (s : State) : Host.Outcome State Fault Refusal :=
  .next (s.vxRow c 0x28 w.toNat)

/-- SCAN_FMAX (R269). -/
def execVxScanFmax (c : CoreId) (w : BitVec 32) (s : State) : Host.Outcome State Fault Refusal :=
  .next (s.vxRow c 0x29 w.toNat)

/-- SCAN_FMIN (R269). -/
def execVxScanFmin (c : CoreId) (w : BitVec 32) (s : State) : Host.Outcome State Fault Refusal :=
  .next (s.vxRow c 0x2A w.toNat)

/-- SCAN_FFMA (R269). -/
def execVxScanFfma (c : CoreId) (w : BitVec 32) (s : State) : Host.Outcome State Fault Refusal :=
  .next (s.vxRow c 0x2B w.toNat)

/-- SCAN_IADD (R269). -/
def execVxScanIadd (c : CoreId) (w : BitVec 32) (s : State) : Host.Outcome State Fault Refusal :=
  .next (s.vxRow c 0x2C w.toNat)

/-- SCAN_IMAX (R269). -/
def execVxScanImax (c : CoreId) (w : BitVec 32) (s : State) : Host.Outcome State Fault Refusal :=
  .next (s.vxRow c 0x2D w.toNat)

/-- SCAN_IMIN (R269). -/
def execVxScanImin (c : CoreId) (w : BitVec 32) (s : State) : Host.Outcome State Fault Refusal :=
  .next (s.vxRow c 0x2E w.toNat)

/-- ST (R269). -/
def execVxSt (c : CoreId) (w : BitVec 32) (s : State) : Host.Outcome State Fault Refusal :=
  .next (s.vxRow c 0x30 w.toNat)

end Sys2Proof.Machine
end

