-- ==== Sys2Proof/Machine/Quarantine.lean ====
section
/-! DEFINITION. What a detected arithmetic fault does at once (R248, R256, R470, R471, R474). -/

namespace Sys2Proof.Machine

open Sys2Proof

/-- CDW_MX_RESIDUE after a residue mismatch (R256): counted, and recorded unless one is. -/
def residueAfter (r : Nat) (float : Bool) (f : MxFault) : Nat :=
  let n := satAdd 16 (bitsOf r 47 32) 1
  if bitAt r 0 then r - bitsOf r 47 32 * 2 ^ 32 + n * 2 ^ 32
  else n * 2 ^ 32 + f.group % 4096 * 2 ^ 20 + f.slot % 16 * 2 ^ 16 + f.column % 64 * 2 ^ 8 + b2n float * 2 + 1

/-- A residue or lockstep mismatch on a core (R470, R471, R474): counted, the core is quarantined, its descriptor and scratch go
to a free capture slot, and its command's work ends. -/
def State.arithFault (s : State) (c unit : Nat) (float : Bool) (f : MxFault) (desc : List Byte) : State :=
  let k := s.core c
  let key := k.cmd.getD 0
  let st := (s.rasOf c).state
  let s := s.rasCount (if f.lockstep then 0x230 else 0x228) 1
  let s := if f.lockstep then s else s.updCore c (fun k => { k with mx := { k.mx with residue := residueAfter k.mx.residue float f } })
  let ties := (s.cmd? key).any (·.ties)
  let slot := leastBelow 8 (fun i => (kfind s.ras.captures i).isNone)
  let s := if st = 0 || st = 3 then
      let s := s.updRas c (fun r => { r with state := 1, faultUnit := unit, faultLock := f.lockstep })
      let s := match slot with
        | none => s
        | some i => { s with ras := { s.ras with captures := kput s.ras.captures i ⟨c, desc, key, ties, k.scratch, false⟩ } }
      let g : Classify := { core := c, capture := slot, neighbour := none, second := false, start := s.refCount,
                            queue := key / 2 ^ 48, seq := key % 2 ^ 48, lockstep := f.lockstep }
      { s with ras := { s.ras with classify := s.ras.classify ++ [g] } }
    else s
  let status := if f.lockstep then stLockstepMismatch else stResidueMismatch
  if unit = 1 then s.seqFail c status 0 0 else s.failCore c status

end Sys2Proof.Machine
end

