-- ==== Sys2Proof/Machine/VecDesc.lean ====
section
/-! DEFINITION. Vector descriptors, stream records and programs, and what refuses them (R261 to R263, R267, R275, R276, R282, R285,
R335, R336). -/

namespace Sys2Proof.Machine

open Sys2Proof

/-- A stream record (R336). -/
structure Stream where
  kind : Nat
  fmtCode : Nat
  picot : Nat
  es : Nat
  rs : Nat
  base : Nat
  sbase : Nat
  sb : Nat
  sr : Nat
  mag : Nat
  list : Nat
  val : Nat
  chan0 : Nat
  pk : Nat
  prows : Nat
  row0 : Nat
  pn : Nat
  /-- PICOT_N is 0: the length stands before the list (R336). -/
  stored : Bool
  clean : Bool
deriving DecidableEq, Repr

/-- Parse a stream record (R336). -/
def parseStream (b : List Byte) : Stream :=
  let b0 := fieldAt b 0 1
  let k := fieldAt b 44 2
  { kind := b0 % 4, picot := bitsOf b0 3 2, fmtCode := bitsOf b0 7 4, es := fieldAt b 2 2, rs := fieldAt b 4 3,
    base := fieldAt b 8 8, sbase := fieldAt b 16 8, sb := fieldAt b 24 2, sr := fieldAt b 26 4, mag := fieldAt b 32 3,
    list := fieldAt b 35 3, val := fieldAt b 38 3, chan0 := fieldAt b 42 2, pk := if k = 0 then 65536 else k,
    prows := fieldAt b 46 2, row0 := fieldAt b 48 2, pn := fieldAt b 50 2,
    stored := fieldAt b 50 2 = 0,
    clean := fieldAt b 1 1 = 0 && fieldAt b 7 1 = 0 && fieldAt b 14 2 < 16 && fieldAt b 22 2 < 16 && fieldAt b 30 2 = 0 &&
      fieldAt b 41 1 = 0 && (b.drop 52).all (· = 0) &&
      fieldAt b 26 4 < 2 ^ 24 && fieldAt b 32 3 < 2 ^ 21 && fieldAt b 35 3 < 2 ^ 21 && fieldAt b 38 3 < 2 ^ 21 }

/-- Format of a stream. -/
def Stream.fmt (t : Stream) : Option Fmt := fmtOfCode t.fmtCode

/-- Element width in bits. -/
def Stream.width (t : Stream) : Nat := match t.fmt with | some f => fmtWidth f | none => 32

/-- Bit position of an element (R262). -/
def Stream.bit (t : Stream) (r c : Nat) : Nat := 8 * t.base + (c * t.es + r * t.rs) * t.width

/-- Address of the shift byte of a column's block (R263). -/
def Stream.shiftAt (t : Stream) (r c : Nat) : Nat := t.sbase + c / 32 * t.sb + r * t.sr

/-- The program parameters of a VECTOR descriptor (R335). -/
structure VecProg where
  progBase : Nat
  progLen : Nat
  paramBase : Nat
  count : Nat
  rowLen : Nat
  semTake : Bool
  semPair : Nat
  signal : Bool
  signalPair : Nat
  builtin : Nat
  picotP : Nat
  streams : Nat
  clean : Bool
deriving DecidableEq, Repr

/-- Parse a VECTOR descriptor (R335). -/
def parseVec (b : List Byte) : VecProg :=
  let t := fieldAt b 14 1
  let g := fieldAt b 15 1
  { progBase := fieldAt b 2 3, progLen := fieldAt b 5 1, paramBase := fieldAt b 6 3, streams := fieldAt b 9 1, count := fieldAt b 10 2,
    rowLen := fieldAt b 12 2, semTake := bitAt t 7, semPair := t % 64, signal := bitAt g 7, signalPair := g % 64,
    builtin := fieldAt b 16 1, picotP := fieldAt b 17 2,
    clean := !bitAt t 6 && !bitAt g 6 && (b.drop 19).all (· = 0) && fieldAt b 2 3 < 2 ^ 21 && fieldAt b 6 3 < 2 ^ 21 }

/-- Streams present, by number 0 to 7 (R335). -/
def streamsOf (d : VecProg) (recs : List (List Byte)) : List (Nat × Stream) :=
  (bitList 8 d.streams).zip (recs.map parseStream)

/-- Rows of a program, and elements of its last row (R259). -/
def progRows (count rowLen : Nat) : Nat := cdiv count rowLen
def lastRow (count rowLen : Nat) : Nat := count - (progRows count rowLen - 1) * rowLen

/-- Byte areas of a stream: data, and shift bytes of an SX format (R262, R263). -/
def Stream.areas (t : Stream) (count rowLen : Nat) : List (Nat × Nat) :=
  let nr := progRows count rowLen
  let nc := min rowLen count
  let p := max ((nc - 1) * t.es + (nr - 2) * t.rs) ((lastRow count rowLen - 1) * t.es + (nr - 1) * t.rs)
  (t.base, t.base + cdiv ((p + 1) * t.width) 8) ::
    (match t.fmt with
     | some f =>
       if fmtIsSx f then
         [(t.sbase, max (t.shiftAt (nr - 2) (nc - 1)) (t.shiftAt (nr - 1) (lastRow count rowLen - 1)) + 1)]
       else []
     | none => [])

/-- Scratch areas that a stream's Picot mode writes: magnitudes, or values (R282). -/
def Stream.picotPuts (t : Stream) (count rowLen : Nat) : List (Nat × Nat) :=
  if t.picot = 1 then [(t.mag + 4 * t.chan0, t.mag + 4 * (t.chan0 + min rowLen count))]
  else if t.picot = 2 && t.pn ≠ 0 then
    [(t.val + 2 * t.row0, t.val + 2 * ((t.pn - 1) * t.prows + t.row0 + progRows count rowLen))]
  else []

/-- Scratch areas that a stream's Picot mode reads: the index list, and the length before it where PICOT_N is 0 (R282, R336). -/
def Stream.picotGets (t : Stream) : List (Nat × Nat) := 
  if t.picot = 2 then [(if t.stored then t.list - 2 else t.list, t.list + 2 * t.pn)] else []

/-- Streams read and written in place (R266). -/
def Stream.same (a b : Stream) : Bool :=
  a.kind = b.kind && a.base = b.base && a.fmtCode = b.fmtCode && a.es = b.es && a.rs = b.rs && a.sbase = b.sbase && a.sb = b.sb &&
    a.sr = b.sr

/-- Overlaps that R266 forbids: of an output's data, magnitudes or Picot values with what the program reads, or with each other. -/
def overlapBad (count rowLen : Nat) (ts : List (Nat × Stream)) : Bool :=
  let data := fun (t : Stream) => if t.picot = 1 then [] else (t.areas count rowLen).map (fun a => (t.kind, a))
  let side := fun (t : Stream) => (t.picotPuts count rowLen).map (fun a => (1, a))
  let gets := fun (t : Stream) => t.picotGets.map (fun a => (1, a))
  let hit := fun (a b : List (Nat × Nat × Nat)) => a.any (fun x => b.any (fun y => x.1 = y.1 && meet x.2 y.2))
  let outs := (ts.filter (fun e => 6 ≤ e.1)).map (·.2)
  let ins := (ts.filter (fun e => e.1 < 6 && e.2.kind = 1)).map (·.2)
  outs.any (fun o => ins.any (fun i => (hit (data o) (data i) && !o.same i) || hit (side o) (data i))) ||
    outs.any (fun o => hit (data o) (side o) || outs.any (fun p => hit (data o ++ side o) (gets p))) ||
    (outs.zip (outs.drop 1)).any (fun (a, b) => hit (data a ++ side a) (data b ++ side b))

/-- A stream refused by R261, R264, R276, R282 or R285; `size` is the window. DESIGN CHOICE: of a slot stream only KIND, the placement and
ROW_LEN are tested, as R336 ignores its other fields: its FMT may hold any code, a reserved one of R40 too (log entry 41). -/
def streamBad (count rowLen size : Nat) (e : Nat × Stream) : Bool :=
  let t := e.2
  let out := 6 ≤ e.1
  if !t.clean || t.kind = 0 || t.kind = (if out then 2 else 3) || t.picot = 3 || (!out && t.picot ≠ 0) then true
  else if t.kind = 2 then
    64 < rowLen || 15 < t.base % 16 + (progRows count rowLen - 1) / 64
  else
    match t.fmt with
    | none => true
    | some f =>
      !fmtVector f || (t.picot = 2 && (!(f = .sx8 || f = .sx4) || (t.stored && t.list < 2))) ||
        (t.areas count rowLen).any (fun a => (if t.kind = 1 then size else 2 ^ 52) < a.2) ||
        (t.picotPuts count rowLen ++ t.picotGets).any (fun a => size < a.2)

/-! ### Programs (R267, R275, R285) -/

/-- Operand fields an opcode names: A, B, C; none for a reserved OP (R269). -/
def vxUses (op : Nat) : Option (Bool × Bool × Bool) :=
  let one := [0x01, 0x08, 0x09, 0x0B, 0x0C, 0x0D, 0x0E, 0x0F, 0x10, 0x15, 0x16, 0x28, 0x29, 0x2A, 0x2C, 0x2D, 0x2E, 0x30]
  let three := [0x05, 0x14, 0x17]
  if op = 0 then some (false, false, false)
  else if one.contains op then some (true, false, false)
  else if three.contains op then some (true, true, true)
  else if op ≤ 0x24 || op = 0x2B then some (true, true, false)
  else none

def isScan (w : Nat) : Bool := 0x28 ≤ vxOpc w && vxOpc w ≤ 0x2E
def isStore (w : Nat) : Bool := vxOpc w = 0x30

/-- An operand code that the streams do not carry (R268, R285); `ring` allows the ring operands. -/
def operandBad (ring : Bool) (streams code : Nat) : Bool :=
  if code < 16 then false
  else if code < 22 then !streams.testBit (code - 16)
  else if 30 ≤ code then true
  else if 27 ≤ code then !ring
  else false

/-- A word refused under R285. -/
def wordBad (ring : Bool) (streams w : Nat) : Bool :=
  match vxUses (vxOpc w) with
  | none => true
  | some (a, b, c) =>
    let c := c || ((isScan w || isStore w) && vxSeg w = 1)
    let field := fun (used : Bool) (code : Nat) => if used then operandBad ring streams code else code ≠ 0
    w % 16 ≠ 0 || field a (vxA w) || field b (vxB w) || field c (vxC w) ||
      (vxOpc w = 0 && vxDst w ≠ 0) || (isStore w && (2 ≤ vxDst w || !streams.testBit (6 + vxDst w % 2))) ||
      (if isScan w || isStore w then
        vxSeg w = 3 || (!ring && (vxSeg w = 2 || (isScan w && vxBit7 w)))
       else bitsOf w 7 4 ≠ 0)

/-- Index just after the last scan: 0 where there is none (R275). -/
def cutOf (ws : List Nat) : Nat := ((List.range ws.length).filter (fun i => isScan (nthD 0 ws i))).foldl (fun _ i => i + 1) 0

/-- A breach of R275. -/
def storesBad (ws : List Nat) : Bool :=
  let cut := cutOf ws
  ws.any (fun w => isStore w && vxBit4 w) &&
    ((ws.take cut).any (fun w => isStore w && vxBit4 w) || (ws.drop cut).any (fun w => isStore w && !vxBit4 w))

/-- A program refused under R285. -/
def progBad (ring : Bool) (streams : Nat) (ws : List Nat) : Bool :=
  ws.any (wordBad ring streams) || 4 < (ws.filter isScan).length || storesBad ws

/-- The words of a program in a core's window. -/
def State.progWords (s : State) (c x base len : Nat) : List Nat := (List.range len).map (fun i => s.scrNat c x (base + 4 * i) 4)

/-- A Picot list refused under R67. -/
def picotListBad (k : Nat) (l : List Nat) : Bool :=
  k / 32 < l.length || l.any (fun x => k ≤ x) || !(l.zip (l.drop 1)).all (fun (a, b) => a < b)

/-- Length of a stream's Picot list: PICOT_N, or the length stored before the list (R336). -/
def State.picotLen (s : State) (c x : Nat) (t : Stream) : Nat := if t.pn = 0 then s.scrNat c x (t.list - 2) 2 else t.pn

/-- The Picot list of an apply stream. -/
def State.picotList (s : State) (c x : Nat) (t : Stream) : List Nat :=
  (List.range (s.picotLen c x t)).map (fun i => s.scrNat c x (t.list + 2 * i) 2)

/-- The D0 record of PICOT_PICK refused under R285, R335 or R336: a reserved KIND, FMT or PICOT_MODE, an area beyond scratch, or a list that
overlaps the magnitudes it is chosen from (R266). -/
def pickBad (p size : Nat) (t : Stream) : Bool :=
  !t.clean || t.kind = 0 || t.kind = 2 || t.picot = 3 || !t.fmt.any fmtVector || size < t.mag + 4 * t.pk || t.list < 2 ||
    size < t.list + 2 * min p t.pk || meet (t.list - 2, t.list + 2 * min p t.pk) (t.mag, t.mag + 4 * t.pk)

/-- A VECTOR descriptor with its records that the sequencer refuses with BAD_PATTERN (R285, R335). -/
def State.vecBad (s : State) (c x : Nat) (b : List Byte) (recs : List (List Byte)) : Bool :=
  let d := parseVec b
  let size := s.winSize x
  let ts := (streamsOf d recs).map (fun e => (e.1, if e.2.picot = 2 then { e.2 with pn := s.picotLen c x e.2 } else e.2))
  if !d.clean || 1 < d.builtin then true
  else if d.builtin = 1 then
    d.streams ≠ 0x40 || (match ts with
      | [(_, t)] => pickBad d.picotP size t
      | _ => true)
  else
    d.progLen = 0 || 32 < d.progLen || d.progBase % 128 ≠ 0 || d.paramBase % 32 ≠ 0 || d.count = 0 || 4096 < d.count ||
      d.rowLen = 0 || 4096 < d.rowLen || size < d.progBase + 4 * d.progLen || size < d.paramBase + 32 ||
      ts.any (streamBad d.count d.rowLen size) || overlapBad d.count d.rowLen ts ||
      progBad false d.streams (s.progWords c x d.progBase d.progLen) ||
      ts.any (fun e => e.2.picot = 2 && picotListBad e.2.pk (s.picotList c x e.2))

end Sys2Proof.Machine
end

