-- ==== Sys2Proof/Machine/MxDesc.lean ====
section
/-! DEFINITION. Matrix descriptors (R228, R334), operand pairs (R224), operand areas (R225, R226, R242), and what refuses them (R229,
R251). -/

namespace Sys2Proof.Machine

open Sys2Proof

/-- How a pair accumulates (R224). -/
inductive MxMode where
  | int | sx | float | fp32 | digits
deriving DecidableEq, Repr

/-- A pair of R224: mode, chunk depth, steps in two cycles. -/
structure MxPair where
  mode : MxMode
  depth : Nat
  rate2 : Nat
deriving DecidableEq, Repr

def isNarrow (f : Fmt) : Bool := f = .int8 || f = .int4
def isSxOp (f : Fmt) : Bool := f = .sx8 || f = .sx4
def isFp8 (f : Fmt) : Bool := f = .e4m3 || f = .e5m2
def isF16 (f : Fmt) : Bool := f = .bf16 || f = .fp16
def is4Bit (f : Fmt) : Bool := f = .int4 || f = .sx4

/-- The pair of two formats, in either order (R224). -/
def mxPair (x w : Fmt) : Option MxPair :=
  let narrow := fun (f : Fmt) => isNarrow f || isSxOp f
  if narrow x && narrow w then
    let mode := if isSxOp x || isSxOp w then MxMode.sx else MxMode.int
    some (if is4Bit x && is4Bit w then ⟨mode, 128, 4⟩ else ⟨mode, 64, 2⟩)
  else if isFp8 x && isFp8 w then some ⟨.float, 64, 2⟩
  else if (isF16 x && (isF16 w || isFp8 w)) || (isF16 w && isFp8 x) then some ⟨.float, 32, 1⟩
  else if (x = .fp32 && (w = .fp32 || isF16 w || isFp8 w)) || (w = .fp32 && (isF16 x || isFp8 x)) then some ⟨.fp32, 32, 1⟩
  else if (x = .int16 && (w = .int16 || isNarrow w)) || (w = .int16 && isNarrow x) then some ⟨.digits, 64, 2⟩
  else none

/-- Slot type that a mode leaves: 1 INT32, 2 FP32 (R224). -/
def MxMode.slotKind : MxMode → Nat
  | .int => 1
  | .digits => 1
  | .sx => 2
  | .float => 2
  | .fp32 => 2

/-- A MATRIX descriptor (R334). -/
structure MxDesc where
  xFmt : Nat
  wFmt : Nat
  xPicot : Bool
  wPicot : Bool
  stat : Nat
  statAcc : Bool
  accInit : Bool
  complex : Bool
  m : Nat
  n : Nat
  k : Nat
  acc : Nat
  sem : Nat
  xBase : Nat
  wBase : Nat
  xsBase : Nat
  wsBase : Nat
  picotBuf : Nat
  statBase : Nat
  index : Nat
  count : Nat
  depth : Nat
  xList : Nat
  xVal : Nat
  wList : Nat
  wVal : Nat
  partAddr : Nat
  barrier : Nat
  /-- Reserved bits outside the split fields are zero; reserved bits of the split fields are. -/
  clean : Bool
  splitClean : Bool
deriving DecidableEq, Repr

/-- Parse a MATRIX descriptor (R334). -/
def parseMx (b : List Byte) : MxDesc :=
  let u := fun o n => fieldAt b o n
  { xFmt := u 2 1 % 16, wFmt := u 2 1 / 16, wPicot := bitAt (u 3 1) 7, xPicot := bitAt (u 3 1) 6, stat := bitsOf (u 3 1) 5 3,
    statAcc := bitAt (u 3 1) 2, accInit := bitAt (u 3 1) 1, complex := bitAt (u 3 1) 0, m := u 4 2 % 2048, n := u 6 1 % 128,
    acc := u 7 1 % 16, k := u 8 3 % 2 ^ 17, sem := u 11 1 % 64, xBase := u 12 3 % 2 ^ 21, wBase := u 15 3 % 2 ^ 21,
    xsBase := u 18 3 % 2 ^ 21, wsBase := u 21 3 % 2 ^ 21, picotBuf := u 24 3 % 2 ^ 21, statBase := u 27 3 % 2 ^ 21,
    index := u 30 1 / 16, count := u 30 1 % 16 + 1, depth := 128 * (u 32 2 % 1024), xList := u 34 3 % 2 ^ 21,
    xVal := u 37 3 % 2 ^ 21, wList := u 40 3 % 2 ^ 21, wVal := u 43 3 % 2 ^ 21, partAddr := u 48 8 % 2 ^ 52,
    barrier := u 56 8 % 2 ^ 52,
    clean := u 4 2 < 2 ^ 11 && u 6 1 < 128 && u 7 1 < 16 && u 8 3 < 2 ^ 17 && u 11 1 < 64 && u 31 1 = 0 && u 46 2 = 0 &&
      [12, 15, 18, 21, 24, 27, 34, 37, 40, 43].all (fun o => u o 3 < 2 ^ 21),
    splitClean := u 32 2 < 1024 && u 48 8 < 2 ^ 52 && u 56 8 < 2 ^ 52 }

/-- Row blocks B, chunks C, slots, and operand planes of an operation. -/
def MxDesc.blocks (d : MxDesc) : Nat := cdiv d.m 64
def MxDesc.chunks (d : MxDesc) (p : MxPair) : Nat := cdiv d.k p.depth
def MxDesc.slots (d : MxDesc) : Nat := if d.complex then 2 * d.blocks else d.blocks
def MxDesc.planes (d : MxDesc) : Nat := if d.complex then 2 else 1

/-- Picot sets count only where the split does not ignore them (R251). -/
def MxDesc.picots (d : MxDesc) : Bool := (d.xPicot || d.wPicot) && d.index = 0

/-- The k positions an operation covers (R251). -/
def MxDesc.from (d : MxDesc) : Nat := if d.count = 1 then 0 else d.index * d.depth
def MxDesc.upto (d : MxDesc) : Nat := if d.count = 1 then d.k else min d.k ((d.index + 1) * d.depth)

/-- Length of a Picot list, stored before it (R334). -/
def State.listLen (s : State) (c x list : Nat) : Nat := s.scrNat c x (list - 2) 2

/-- Channels of a Picot list. -/
def State.listAt (s : State) (c x list : Nat) : List Nat :=
  (List.range (s.listLen c x list)).map (fun i => s.scrNat c x (list + 2 * i) 2)

/-- Operand areas: data and shift bytes (R225, R226, R242). -/
def MxDesc.opAreas (d : MxDesc) (p : MxPair) (xf wf : Fmt) : List (Nat × Nat) :=
  let xt := d.planes * d.chunks p * d.blocks
  let wt := d.planes * d.chunks p
  [(d.xBase, d.xBase + xt * p.depth * 8 * fmtWidth xf), (d.wBase, d.wBase + wt * p.depth * 8 * fmtWidth wf)] ++
    (if isSxOp xf then [(d.xsBase, d.xsBase + xt * (p.depth / 32) * 64)] else []) ++
    (if isSxOp wf then [(d.wsBase, d.wsBase + wt * (p.depth / 32) * 64)] else [])

/-- Picot areas read: lists and values (R67, R334). -/
def MxDesc.setAreas (d : MxDesc) (s : State) (c x : Nat) : List (Nat × Nat) :=
  let one := fun (list val dim : Nat) =>
    let n := s.listLen c x list
    [(list - 2, list + 2 * n), (val, val + 2 * n * dim)]
  (if d.picots && d.xPicot then one d.xList d.xVal d.m else []) ++ (if d.picots && d.wPicot then one d.wList d.wVal d.n else [])

/-- Areas written: Picot sums and statistics (R243, R249). -/
def MxDesc.outAreas (d : MxDesc) : List (Nat × Nat) :=
  (if d.picots then [(d.picotBuf, d.picotBuf + 16384 * d.blocks)] else []) ++
    (if d.stat ≠ 0 then [(d.statBase, d.statBase + 16 * d.m)] else [])

/-- The Picot sums and the statistics records overlap: the merge reads the sums, and STAT_ACC the records (R229, R244, R250). -/
def MxDesc.outsMeet (d : MxDesc) : Bool :=
  match d.outAreas with
  | [a, b] => meet a b
  | _ => false

/-- A misaligned offset among those the operation uses (R228, R334). -/
def MxDesc.misaligned (d : MxDesc) (xf wf : Fmt) : Bool :=
  d.xBase % 256 ≠ 0 || d.wBase % 256 ≠ 0 || (isSxOp xf && d.xsBase % 256 ≠ 0) || (isSxOp wf && d.wsBase % 256 ≠ 0) ||
    (d.picots && d.picotBuf % 256 ≠ 0) || (d.stat ≠ 0 && d.statBase % 256 ≠ 0) ||
    (d.picots && d.xPicot && (d.xList % 2 ≠ 0 || d.xVal % 2 ≠ 0 || d.xList < 2)) ||
    (d.picots && d.wPicot && (d.wList % 2 ≠ 0 || d.wVal % 2 ≠ 0 || d.wList < 2))

/-- Split parameters that break R251 or R334. -/
def MxDesc.splitBad (d : MxDesc) : Bool :=
  if d.count = 1 then d.index ≠ 0
  else
    !d.splitClean || d.count ≤ d.index || d.depth = 0 || 512 * 128 < d.depth || d.k ≤ (d.count - 1) * d.depth ||
      d.count * d.depth < d.k || d.partAddr % 16384 ≠ 0 || d.barrier % 64 ≠ 0 || (d.index ≠ 0 && (d.accInit || d.stat ≠ 0))

/-- A Picot list that R67 refuses. -/
def MxDesc.listsBad (d : MxDesc) (s : State) (c x : Nat) : Bool :=
  (d.picots && d.xPicot && picotListBad d.k (s.listAt c x d.xList)) || (d.picots && d.wPicot && picotListBad d.k (s.listAt c x d.wList))

/-- Type that slot `i` has once the operations issued before have run (R229). -/
def Core.kindAfter (k : Core) (i : Nat) : Nat :=
  k.qMatrix.foldl (fun t q =>
    let d := parseMx q.bytes
    match fmtOfCode d.xFmt, fmtOfCode d.wFmt with
    | some xf, some wf =>
      (match mxPair xf wf with
       | some p => if d.acc ≤ i && i < d.acc + d.slots then p.mode.slotKind else t
       | none => t)
    | _, _ => t) (kget {} k.mx.slots i).kind

/-- A MATRIX descriptor that the sequencer refuses with BAD_PATTERN (R229, R334). -/
def State.mxBad (s : State) (c x : Nat) (b : List Byte) : Bool :=
  let d := parseMx b
  let size := s.winSize x
  match fmtOfCode d.xFmt, fmtOfCode d.wFmt with
  | some xf, some wf =>
    (match mxPair xf wf with
     | none => true
     | some p =>
       let wide := fun (f : Fmt) => f = .fp32 || f = .int16
       let plain := fun (f : Fmt) => isNarrow f || f = .int16
       !d.clean || d.m = 0 || 1024 < d.m || d.n = 0 || 64 < d.n || d.k = 0 || 65536 < d.k || 16 < d.acc + d.slots ||
         (d.complex && (wide xf || wide wf)) || d.misaligned xf wf || d.splitBad ||
         (d.xPicot && (plain xf || d.complex)) || (d.wPicot && (plain wf || d.complex)) ||
         (d.opAreas p xf wf ++ d.setAreas s c x ++ d.outAreas).any (fun a => size < a.2) ||
         d.outAreas.any (fun o => (d.opAreas p xf wf ++ d.setAreas s c x).any (meet o)) || d.outsMeet ||
         d.listsBad s c x ||
         (d.accInit && (List.range d.slots).any (fun i =>
           let t := (s.core c).kindAfter (d.acc + i)
           t ≠ 0 && t ≠ p.mode.slotKind)))
  | _, _ => true

end Sys2Proof.Machine
end

