-- ==== Sys2Proof/Machine/Sequencer.lean ====
section
/-! DEFINITION. The sequencer's instructions but ISSUE and ISSUEX (R325, R326, R329, R331, R339, R340, R413, R417, R423, R424). -/

namespace Sys2Proof.Machine

open Sys2Proof

/-- The sequencer is at an instruction other than NOP. -/
def State.atOther (s : State) (c : Nat) : Bool :=
  s.seqRuns c && (match (s.core c).seq.ins? with | none => false | some w => insOp w ≠ 0 && (insMask (insOp w)).isSome)

/-- NOP (R325). It is the row by which a wrong word of the instruction buffer enters, whatever instruction the word holds: an
uncorrectable word is read again from the image, and where that fails too the fault is SELVAGE_MISMATCH (R459; log entry 15). -/
def execSeqNop (c : CoreId) (s : State) (errs : Fin 4 := 0) (again : Bool := false) : Host.Outcome State Fault Refusal :=
  if errs ≠ 0 && s.atOther c then
    .next (if errs = 3 && again then (s.sramErr c 0x01 errs).seqFail c stSelvageMismatch 0 0 else s.sramErr c 0x01 errs)
  else
  .next (s.seqRow c 0x00 (fun _ =>
    let s := s.sramErr c 0x01 errs
    if errs = 3 && again then s.seqFail c stSelvageMismatch 0 0 else s.updSeq c Sequencer.adv))

/-- LI (R325). -/
def execSeqLi (c : CoreId) (s : State) : Host.Outcome State Fault Refusal :=
  .next (s.seqPure c 0x01 (fun w q => (q.setG (insD w) (insSext w)).adv))

/-- LUI (R325). -/
def execSeqLui (c : CoreId) (s : State) : Host.Outcome State Fault Refusal :=
  .next (s.seqPure c 0x02 (fun w q => (q.setG (insD w) (q.g (insD w) % 2 ^ 32 + insImm w * 2 ^ 32)).adv))

/-- An instruction of the sequencer's datapath, which writes its result to gD (R325); where the duplicated datapaths disagree, the fault
is LOCKSTEP_MISMATCH (R459, R470). -/
def State.seqData (s : State) (c op : Nat) (lockstep : Bool) (f : Nat → Sequencer → Nat) : State :=
  if lockstep then s.seqRow c op (fun w => s.arithFault c 1 false ⟨true, 0, 0, 0⟩ (leBytes 8 w))
  else s.seqPure c op (fun w q => (q.setG (insD w) (f w q)).adv)

/-- A register operation on gA and gB (R325). -/
def State.seqAlu (s : State) (c op : Nat) (lockstep : Bool) (f : Nat → Nat → Nat) : State :=
  s.seqData c op lockstep (fun w q => f (q.g (insA w)) (q.g (insB w)))

/-- ADD (R325). -/
def execSeqAdd (c : CoreId) (s : State) (lockstep : Bool := false) : Host.Outcome State Fault Refusal := .next (s.seqAlu c 0x03 lockstep (fun a b => a + b))

/-- ADDI (R325). -/
def execSeqAddi (c : CoreId) (s : State) (lockstep : Bool := false) : Host.Outcome State Fault Refusal :=
  .next (s.seqData c 0x04 lockstep (fun w q => q.g (insA w) + insSext w))

/-- SUB (R325). -/
def execSeqSub (c : CoreId) (s : State) (lockstep : Bool := false) : Host.Outcome State Fault Refusal :=
  .next (s.seqAlu c 0x05 lockstep (fun a b => a + (2 ^ 64 - b)))

/-- MUL (R325). -/
def execSeqMul (c : CoreId) (s : State) (lockstep : Bool := false) : Host.Outcome State Fault Refusal := .next (s.seqAlu c 0x06 lockstep (fun a b => a * b))

/-- AND (R325). -/
def execSeqAnd (c : CoreId) (s : State) (lockstep : Bool := false) : Host.Outcome State Fault Refusal := .next (s.seqAlu c 0x07 lockstep (fun a b => a &&& b))

/-- OR (R325). -/
def execSeqOr (c : CoreId) (s : State) (lockstep : Bool := false) : Host.Outcome State Fault Refusal := .next (s.seqAlu c 0x08 lockstep (fun a b => a ||| b))

/-- XOR (R325). -/
def execSeqXor (c : CoreId) (s : State) (lockstep : Bool := false) : Host.Outcome State Fault Refusal := .next (s.seqAlu c 0x09 lockstep (fun a b => a ^^^ b))

/-- SHL (R325). -/
def execSeqShl (c : CoreId) (s : State) (lockstep : Bool := false) : Host.Outcome State Fault Refusal :=
  .next (s.seqAlu c 0x0A lockstep (fun a b => a <<< (b % 64)))

/-- SHR, logical (R325). -/
def execSeqShr (c : CoreId) (s : State) (lockstep : Bool := false) : Host.Outcome State Fault Refusal :=
  .next (s.seqAlu c 0x0B lockstep (fun a b => a >>> (b % 64)))

/-- A conditional branch (R325). -/
def State.seqBranch (s : State) (c op : Nat) (p : Nat → Nat → Bool) : State :=
  s.seqRow c op (fun w =>
    let q := (s.core c).seq
    if p (q.g (insA w)) (q.g (insB w)) then s.seqJump c w else s.updSeq c Sequencer.adv)

/-- BEQ (R325). -/
def execSeqBeq (c : CoreId) (s : State) : Host.Outcome State Fault Refusal := .next (s.seqBranch c 0x10 (fun a b => a = b))

/-- BNE (R325). -/
def execSeqBne (c : CoreId) (s : State) : Host.Outcome State Fault Refusal := .next (s.seqBranch c 0x11 (fun a b => a ≠ b))

/-- BLT, signed (R325). -/
def execSeqBlt (c : CoreId) (s : State) : Host.Outcome State Fault Refusal :=
  .next (s.seqBranch c 0x12 (fun a b => signed 64 a < signed 64 b))

/-- BGE, signed (R325). -/
def execSeqBge (c : CoreId) (s : State) : Host.Outcome State Fault Refusal :=
  .next (s.seqBranch c 0x13 (fun a b => signed 64 b ≤ signed 64 a))

/-- JMP (R325). -/
def execSeqJmp (c : CoreId) (s : State) : Host.Outcome State Fault Refusal := .next (s.seqRow c 0x14 (fun w => s.seqJump c w))

/-! ### Scratch and selectors -/

/-- LDS (R325, R342). -/
def execSeqLds (c : CoreId) (s : State) (errs : Fin 4 := 0) : Host.Outcome State Fault Refusal :=
  .next (s.seqWork c 0x18 (fun w => do
    let q := ((← get).core c).seq
    let a ← scratchAddr c (q.g (insA w) + insSext w) 8 8
    modify (fun s => s.scratchErr c a errs)
    let bs ← readScratch c 1 a 8
    modify (fun s => s.updSeq c (fun q => (q.setG (insD w) (leNat bs)).adv))))

/-- STS (R325, R342). -/
def execSeqSts (c : CoreId) (s : State) : Host.Outcome State Fault Refusal :=
  .next (s.seqWork c 0x19 (fun w => do
    let q := ((← get).core c).seq
    let a ← scratchAddr c (q.g (insA w) + insSext w) 8 8
    modify (fun s => s.writeScr c (s.core c).ctx a (leBytes 8 (q.g (insB w))) (s.tieFlag c (s.coreTies c)))
    seqAdv c))

/-- The value a GETS selector names (R326); none for any other selector. -/
def State.getsValue (s : State) (c sel : Nat) : Option Nat :=
  let k := s.core c
  match k.cmd.bind s.cmd? with
  | none => none
  | some m =>
    match sel with
    | 0 => some k.rank
    | 1 => some m.cores.length
    | 2 => some c
    | 3 => some (clusterOf c)
    | 4 => some s.pool.partId
    | 5 => some (if m.kind = kindStep then m.epoch else s.epochs.epoch)
    | 6 => some k.ctx
    | 7 => some m.part
    | 8 => some (m.u 32 4)
    | 9 => some (m.u 36 4)
    | 10 => some (m.u 40 4)
    | 11 => some (m.u 44 4)
    | 12 => some s.refCount
    | 13 => some s.service.capLevel
    | 14 => some (b2n m.ties)
    | _ => none

/-- GETS (R326, R342). -/
def execSeqGets (c : CoreId) (s : State) : Host.Outcome State Fault Refusal :=
  .next (s.seqWork c 0x1A (fun w => do
    match (← get).getsValue c (insImm w) with
    | none => throw (.fail stBadPattern)
    | some v => modify (fun s => s.updSeq c (fun q => (q.setG (insD w) v).adv))))

/-! ### Batches and waits -/

/-- FETCH (R318, R331, R342): one 2 KiB block of the descriptor table into a buffer. The sequencer goes on while it is in flight; an
earlier FETCH of the same buffer ends first. -/
def execSeqFetch (c : CoreId) (s : State) : Host.Outcome State Fault Refusal :=
  .next (s.seqWork c 0x20 (fun w => do
    let k := (← get).core c
    let n := (k.seq.g (insA w) + insImm w) % 2 ^ 64
    if k.seq.descCount ≤ n then throw (.fail stBadPattern)
    else
      modify (fun s => s.updSeq c (fun q => q.stall 6 0))
      endFetch c (b2n (insBuf w))
      modify (fun s => s.updSeq c (fun q =>
        { q.adv with fetch := kput q.fetch (b2n (insBuf w)) (k.seq.descVa + 2048 * n, q.pc) }))
      endFetch c (b2n (insBuf w))))

/-- Queues of a WAITE mask are empty: every descriptor issued to them has ended (R328, R329). -/
def Core.drained (k : Core) (mask : Nat) : Bool :=
  (!mask.testBit 0 || k.qGather.isEmpty) && (!mask.testBit 1 || k.qMove.isEmpty) &&
    (!mask.testBit 2 || k.qMatrix.isEmpty) && (!mask.testBit 3 || k.qVector.isEmpty)

/-- WAITE (R329, R342). -/
def execSeqWaite (c : CoreId) (s : State) : Host.Outcome State Fault Refusal :=
  .next (s.seqWork c 0x23 (fun w => do
    if insImm w = 0 then throw (.fail stBadPattern)
    else if ((← get).core c).drained (insImm w) then seqAdv c
    else seqStall c 1 (insImm w)))

/-- SEMTAKE (R325, R416, R417): served at once or queued. -/
def execSeqSemtake (c : CoreId) (s : State) (errs : Fin 4 := 0) : Host.Outcome State Fault Refusal :=
  .next (s.seqSync c 0x28 errs (fun w => do
    let s ← get
    let k := s.core c
    let i := insImm w
    let g := k.set k.ctx
    let me : SemWaiter := ⟨i, 0, 0⟩
    if g.free i 0 then
      set (s.updCore c (fun k => k.updSet k.ctx (fun g => g.updPair i (fun p => { p.take 0 with held := min 65535 (p.held + 1) }))))
      seqAdv c
    else
      if g.waiters.contains me then pure ()
      else set (s.updCore c (fun k => k.updSet k.ctx (fun g => { g with waiters := g.waiters ++ [me] })))
      seqStall c 2 i))

/-- SEMGIVE (R417): with nothing held the command ends with SEM_UNDERFLOW. -/
def execSeqSemgive (c : CoreId) (s : State) (errs : Fin 4 := 0) : Host.Outcome State Fault Refusal :=
  .next (s.seqSync c 0x29 errs (fun w => do
    let k := (← get).core c
    let i := insImm w
    if ((k.set k.ctx).pair i).held = 0 then throw (.fail stSemUnderflow)
    else
      modify (fun s => s.updCore c (fun k => k.updSet k.ctx (fun g =>
        g.updPair i (fun p => { p.giveCons 1 with held := p.held - 1 }))))
      seqAdv c))

/-- TADD (R411, R412). -/
def execSeqTadd (c : CoreId) (s : State) (errs : Fin 4 := 0) : Host.Outcome State Fault Refusal :=
  .next (s.seqSync c 0x2A errs (fun w => do
    let k := (← get).core c
    modify (fun s => s.tallyAdd c k.ctx (insImm w) (k.seq.g (insA w)) 1 k.cmd)
    seqAdv c))

/-- TWAIT (R413). -/
def execSeqTwait (c : CoreId) (s : State) (errs : Fin 4 := 0) : Host.Outcome State Fault Refusal :=
  .next (s.seqSync c 0x2B errs (fun w => do
    let k := (← get).core c
    let target := k.seq.g (insA w)
    if tallyMax < target then throw (.fail stBadPattern)
    else if target ≤ (kget {} (k.set k.ctx).tallies (insImm w)).value then seqAdv c
    else
      modify (fun s => s.updSeq c (fun q => { q.stall 3 (insImm w) with target := target }))
      throw .wait))

/-- Every write that the core issued before is visible (R178). -/
def State.visible (s : State) (c : Nat) : Bool :=
  let k := s.core c
  k.qGather.isEmpty && k.qMove.isEmpty && k.qVector.isEmpty && k.qMatrix.isEmpty && k.wpend = 0 &&
    !s.link.pendingInv.any (fun b => some b.cmd = k.cmd)

/-- An arrival of a core (R423, R425): to the barrier unit of this part, or as ARRIVE to the part that holds the barrier. -/
def arriveAt (c : Nat) (w : Who) (va unit : Nat) : CM Unit := do
  let pa ← barrierPlace w va
  let s ← get
  let k := s.core c
  let pid := pidOf s.pool.partId k.ctx k.rank unit
  if pa / devSize = s.pool.partId then
    let a := pa % devSize
    match s.barrierAt a with
    | none => throw (.fail stBarrierMisuse)
    | some b =>
      if !b.fits (s.roomIn w va) then throw (.fail stBarrierMisuse)
      else
        let arr : Arrival := ⟨a, pid, (s.ctx k.ctx).part, w.cmd, c, true, none⟩
        set { s with arrivals := s.arrivals ++ [arr] }
  else if !s.member (pa / devSize) then throw (.fail stPartLeftPool)
  else
    match s.request w 3 (pa / devSize) pa unit (fun h => .arrive h pa pid) with
    | .error e => throw e
    | .ok s => set s

/-- BARRIVE (R178, R325, R423): the core stalls until its arrival is counted. -/
def execSeqBarrive (c : CoreId) (s : State) : Host.Outcome State Fault Refusal :=
  .next (s.seqWork c 0x2C (fun w => do
    let s ← get
    let k := s.core c
    if k.seq.arrHeld then throw .wait
    else if !s.visible c then seqStall c 4 0
    else
      waitAs c 4 0 (arriveAt c (s.seqWho c) (k.seq.g (insA w)) 0)
      modify (fun s => s.updSeq c (fun q => { q.stall 4 0 with arrHeld := true }))))

/-- BWAIT (R424, R425). -/
def execSeqBwait (c : CoreId) (s : State) : Host.Outcome State Fault Refusal :=
  .next (s.seqWork c 0x2D (fun w => do
    let s ← get
    let k := s.core c
    let who := s.seqWho c
    let va := k.seq.g (insA w)
    let pa ← waitAs c 4 0 (barrierPlace who va)
    let s ← get
    if pa / devSize ≠ s.pool.partId then throw (.fail stBarrierMisuse)
    else
      match s.barrierAt (pa % devSize) with
      | none => throw (.fail stBarrierMisuse)
      | some b =>
        match b.entries.find? (fun e => e.pid = pidOf s.pool.partId k.ctx k.rank 0) with
        | none => throw (.fail stBarrierMisuse)
        | some e =>
          if !b.fits (s.roomIn who va) then throw (.fail stBarrierMisuse)
          else if e.lastGen ≤ b.round then seqAdv c
          else
            set (s.putBarrier { b with waiters := if b.waiters.contains c.val then b.waiters else b.waiters ++ [c.val] })
            seqStall c 4 0))

/-! ### Enqueue and end -/

/-- ENQ (R339, R340, R342): a reservation in the target queue, with the next slot of its ring (log entry 33); in a replay the next
reservation of the rank is filled. -/
def execSeqEnq (c : CoreId) (s : State) : Host.Outcome State Fault Refusal :=
  .next (s.seqWork c 0x30 (fun w => do
    let s ← get
    let k := s.core c
    let q := insImm w
    let a ← scratchAddr c (k.seq.g (insA w)) 64 64
    match k.cmd.bind s.cmd? with
    | none => throw .wait
    | some m =>
      if (s.queue q).state = 0 || (s.queue q).ctx ≠ k.ctx then throw (.fail stProtection)
      else if 7 ≤ m.depth || 16 ≤ k.seq.enqs then throw (.fail stEnqueueRefused)
      else
        let mine := (m.enqs.filter (fun r => r.rank = k.rank))[k.seq.enqs]?
        match mine with
        | some r =>
          let bs ← readScratch c 1 a 64
          modify (fun s => s.updCmd m.key (fun m => { m with
            enqs := m.enqs.map (fun e => if e.rank = k.rank && e.slot = r.slot && e.queue = r.queue
              then { e with entry := bs, filled := true } else e) }))
          modify (fun s => s.updSeq c (fun q => { q.adv with enqs := q.enqs + 1 }))
        | none =>
          if !s.slotsFree q 1 then seqStall c 7 (q % 256)
          else
            let bs ← readScratch c 1 a 64
            let u := s.queue q
            let r : EnqRes := ⟨q, m.enqs.length, bs, k.rank, true, u.nextSlot 0⟩
            modify (fun s => (s.updCmd m.key (fun m => { m with enqs := m.enqs ++ [r] })).updQueue q
              (fun u => { u with reserved := u.reserved + 1, enqs := u.enqs + 1 }))
            modify (fun s => s.updSeq c (fun q => { q.adv with enqs := q.enqs + 1 }))))

/-- END (R325, R330): the share ends once every descriptor and FETCH has; the command completes when every core has run END. -/
def execSeqEnd (c : CoreId) (s : State) : Host.Outcome State Fault Refusal :=
  .next (s.seqWork c 0x38 (fun _ => do
    waitAs c 6 0 (endFetch c 0)
    waitAs c 6 0 (endFetch c 1)
    let s ← get
    if !(s.core c).drained 0xF || (s.core c).wpend ≠ 0 then seqStall c 1 0xF
    else
      let s := s.updSeq c (fun q => { q.adv with ended := true, active := false })
      let s := match (s.core c).cmd with
        | none => s
        | some key =>
          let s := s.updCmd key (fun m => { m with endedCores := m.endedCores + 1 })
          match s.cmd? key with
          | none => s
          | some m => if m.endedCores = m.cores.length then s.endCmd key stOk else s
      set s))

/-- FAIL (R325). -/
def execSeqFail (c : CoreId) (s : State) : Host.Outcome State Fault Refusal :=
  .next (s.seqWork c 0x39 (fun w => do
    match ((← get).core c).cmd with
    | none => throw .wait
    | some key =>
      modify (fun s => s.updCmd key (fun m => { m with detail := insImm w }))
      throw (.fail stPatternFailed)))

/-- A take that waits is served: the first waiter of a side that holds a unit (R416). -/
def execSemTakeServed (c : CoreId) (pair : Fin 64) (s : State) : Host.Outcome State Fault Refusal :=
  let k := s.core c
  let g := k.set k.ctx
  let first := fun (side : Nat) => g.waiters.find? (fun w => w.pair = pair.val && w.side = side && (g.pair pair).side side ≠ 0)
  match (first 0).or (first 1) with
  | none => .next s
  | some w =>
    if w.unit = 0 then
      .next (s.updCore c (fun k =>
        let k := k.updSet k.ctx (fun g =>
          { g.updPair pair (fun p => { p.take 0 with held := min 65535 (p.held + 1) }) with waiters := g.waiters.erase w })
        { k with seq := k.seq.adv }))
    else
      .next (s.updCore c (fun k => k.updSet k.ctx (fun g =>
        { g.updPair pair (fun p => p.take w.side) with waiters := g.waiters.erase w, grants := g.grants ++ [w] })))

/-- A TWAIT whose tally has reached its target ends (R413, R414). -/
def execTallyWaitSatisfied (c : CoreId) (s : State) : Host.Outcome State Fault Refusal :=
  let k := s.core c
  if k.seq.wait = 3 && s.seqRuns c && k.seq.target ≤ (kget {} (k.set k.ctx).tallies k.seq.waitId).value then
    .next (s.updSeq c Sequencer.adv)
  else .next s

end Sys2Proof.Machine
end

