-- ==== Sys2Proof/Machine/Vector.lean ====
section
/-! DEFINITION. The vector engine's programs: VECTOR and PICOT_PICK (R258 to R266, R274 to R277, R282, R283, R286). -/

namespace Sys2Proof.Machine

open Sys2Proof

/-! ### Running a program -/

/-- What one element reads (R259, R264, R268). -/
structure ElemIn where
  idx : Nat
  row : Nat
  col : Nat
  s : List Nat
deriving DecidableEq, Repr

/-- Set up the element state of R260 for an element. -/
def VxState.start' (st : VxState) (e : ElemIn) : VxState :=
  { st with v := [0, 0, 0, 0, 0, 0, 0, 0], s := e.s, idx := e.idx, row := e.row, col := e.col, scan := 0 }

/-- Every element through the given instructions, in order. `feed` gives what an element reads after the stores of the elements before it
(R260). -/
def progRun (feed : VxState → ElemIn → ElemIn) (ws : List Nat) : VxState → List ElemIn → VxState
  | st, [] => st
  | st, e :: es => progRun feed ws (ws.foldl VxState.step (st.start' (feed st e))) es

/-- For every element, whether it starts a segment for each later store (R274). -/
def progStarts (feed : VxState → ElemIn → ElemIn) (pre post : List Nat) : VxState → List ElemIn → List (List Bool)
  | _, [] => []
  | st, e :: es =>
    let st := pre.foldl VxState.step (st.start' (feed st e))
    post.map st.starts :: progStarts feed pre post st es

/-- Run the instructions after the last scan for one element, with each store's segment end and ordinal (R274, R275). -/
def progTail (st : VxState) : List Nat → List Bool → List Nat → VxState
  | w :: ws, e :: es, o :: os => progTail ({ st with segEnd := e, segOrd := o }.step w) ws es os
  | _, _, _ => st

/-- The elements of a program with SEGEND stores, one at a time in order, the instructions after the last scan only for those that some
store writes (R260, R275). `ords` counts each column's segments so far, per instruction. -/
def progEnds (feed : VxState → ElemIn → ElemIn) (pre post : List Nat) (rowLen : Nat) :
    VxState → KMap (List Nat) → List (ElemIn × List Bool) → VxState
  | st, _, [] => st
  | st, ords, (e, segs) :: rest =>
    let st := pre.foldl VxState.step (st.start' (feed st e))
    let old := kget (post.map (fun _ => 0)) ords e.col
    let now := (old.zip segs).map (fun (n, b) => n + b2n b)
    let ends := match rest[rowLen - 1]? with
      | none => post.map (fun _ => true)
      | some (_, next) => next
    let st :=
      if (post.zip ends).any (fun (w, b) => isStore w && b) then
        progTail { st with tails := st.tails + 1 } post ends (now.map (· - 1))
      else st
    progEnds feed pre post rowLen st (kput ords e.col now) rest

/-- A whole program over its elements (R260, R272 to R275). DEDUCED: whether an element ends a segment is judged ahead, with the inputs of
an in-place stream as they stood before the program's SEGEND stores (log entry 41). -/
def runProgram (feed : VxState → ElemIn → ElemIn) (ws : List Nat) (rowLen : Nat) (st : VxState) (es : List ElemIn) : VxState :=
  if ws.any (fun w => isStore w && vxBit4 w) then
    let pre := ws.take (cutOf ws)
    let post := ws.drop (cutOf ws)
    progEnds feed pre post rowLen st [] (es.zip (progStarts feed pre post st es))
  else progRun feed ws st es

/-- Issue cycles of an instruction (R269). -/
def issueOf (w : Nat) : Nat := if isStore w then 0 else if 0x0A ≤ vxOpc w && vxOpc w ≤ 0x10 then 4 else 1

/-- Issue cycles of a program over `count` elements, `tails` of which end a segment (R269, R275). -/
def issueCycles (ws : List Nat) (count tails : Nat) : Nat :=
  let cut := if ws.any (fun w => isStore w && vxBit4 w) then cutOf ws else ws.length
  cdiv count 64 * max 1 ((ws.take cut).map issueOf).sum + tails * ((ws.drop cut).map issueOf).sum

/-- What a program stored to an output, in element order: row, column, pattern, and whether it is INT32 (R269, R274). -/
def storesOf (d : KMap (Nat × Bool)) : List (Nat × Nat × Nat × Bool) :=
  d.map (fun e => (e.1 % 2 ^ 48 / 4096, e.1 % 4096, e.2.1, e.2.2))

/-! ### Input streams (R262 to R264, R276) -/

/-- Bits of a packed element (R41, R262). -/
def bitsAt (rd : Nat → Nat → List Byte) (bit w : Nat) : Nat :=
  (leNat (rd (bit / 8) (cdiv (bit % 8 + w) 8)) >>> (bit % 8)) % 2 ^ w

/-- An element widened to 32 bits (R264). -/
def widenElem (f : Fmt) (shift : Int) (w : Nat) : Nat :=
  if fmtIsInt f then unsign 32 (signed (fmtWidth f) w)
  else if f = .fp32 then w
  else (floatEncode (floatSpec .fp32) false (decodeElem f shift w)).1

/-- The value a stream gives an element. -/
def Stream.load (t : Stream) (rd : Nat → Nat → List Byte) (acc : Nat → Nat → Nat) (r c : Nat) : Nat :=
  if t.kind = 2 then acc (t.base % 16 + r / 64) (r % 64 * 64 + c)
  else
    match t.fmt with
    | none => 0
    | some f =>
      let shift := if fmtIsSx f then shiftOfField (leNat (rd (t.shiftAt r c) 1) % 64) else 0
      widenElem f shift (bitsAt rd (t.bit r c) t.width)

/-- Byte ranges an input stream reads for an element. -/
def Stream.touches (t : Stream) (r c : Nat) : List (Nat × Nat) :=
  if t.kind ≠ 1 then []
  else
    let b := t.bit r c
    (b / 8, cdiv (b % 8 + t.width) 8) ::
      (match t.fmt with | some f => if fmtIsSx f then [(t.shiftAt r c, 1)] else [] | none => [])

/-! ### Output streams (R262 to R266, R282) -/

/-- The exact value of a stored pattern. -/
def storedVal (bits : Nat) (isInt : Bool) : FVal := if isInt then intVal (signed 32 bits) else f32 bits

/-- Write the low `w` bits of a code at a bit position of a byte map over `rd` (R41, R265). -/
def putBits (rd : Nat → Byte) (m : KMap Byte) (bit w code : Nat) : KMap Byte :=
  (List.range (cdiv (bit % 8 + w) 8)).foldl (fun m i =>
    let a := bit / 8 + i
    let old := ((kfind m a).getD (rd a)).toNat
    let lo := if i = 0 then bit % 8 else 0
    let hi := min 8 (bit % 8 + w - 8 * i)
    let part := (code <<< (bit % 8) >>> (8 * i)) % 256 / 2 ^ lo % 2 ^ (hi - lo)
    kput m a (BitVec.ofNat 8 (old - old / 2 ^ lo % 2 ^ (hi - lo) * 2 ^ lo + part * 2 ^ lo))) m

/-- Blocks of an SX output: row and block number, in order of first store (R263, R265). -/
def sxBlocksOf (es : List (Nat × Nat × Nat × Bool)) : List (Nat × Nat) := (es.map (fun e => (e.1, e.2.1 / 32))).eraseDups

/-- Columns of a block of a row of `len` elements (R48, R263). -/
def blockCols (len q : Nat) : List Nat := (List.range 32).filterMap (fun j => if 32 * q + j < len then some (32 * q + j) else none)

/-- The last value stored to a row and column. -/
def lastStore (es : List (Nat × Nat × Nat × Bool)) (r c : Nat) : Option FVal :=
  (es.filter (fun e => e.1 = r && e.2.1 = c)).getLast?.map (fun e => storedVal e.2.2.1 e.2.2.2)

/-- The bytes an output stream writes over what stands there, and its flags. `len r` is the length of row `r`. -/
def Stream.render (t : Stream) (ties : Bool) (len : Nat → Nat) (zero : Nat → Bool) (rd : Nat → Byte)
    (es : List (Nat × Nat × Nat × Bool)) : KMap Byte × CvtFlags :=
  match t.fmt with
  | none => ([], 0)
  | some f =>
    if fmtIsSx f then
      (sxBlocksOf es).foldl (fun (m, fl) (r, q) =>
        let look := fun (a : Nat) => (kfind m a).getD (rd a)
        let cols := blockCols (len r) q
        let old := shiftOfField ((look (t.shiftAt r (32 * q))).toNat % 64)
        let vals := cols.map (fun c =>
          match lastStore es r c with
          | some v => if zero c then FVal.fin false 0 0 else v
          | none => decodeElem f old (bitsAt (fun a n => (List.range n).map (fun i => look (a + i))) (t.bit r c) t.width))
        let (sh, codes, g) := sxBlock f ties vals
        let m := (cols.zip codes).foldl (fun m (c, code) => putBits rd m (t.bit r c) t.width code) m
        (kput m (t.shiftAt r (32 * q)) (BitVec.ofNat 8 (fieldOfShift sh)), fl ||| g)) ([], 0)
    else
      es.foldl (fun (m, fl) e =>
        let (code, g) := convert f ties (storedVal e.2.2.1 e.2.2.2)
        (putBits rd m (t.bit e.1 e.2.1) t.width code, fl ||| g)) ([], 0)

/-- Bits of each byte that written elements cover; a shift byte counts only where its whole block is written (R265). -/
def Stream.cover (t : Stream) (len : Nat → Nat) (es : List (Nat × Nat × Nat × Bool)) : KMap Byte :=
  let ones := fun (m : KMap Byte) (r c : Nat) => putBits (fun _ => 0) m (t.bit r c) t.width (2 ^ t.width - 1)
  match t.fmt with
  | none => []
  | some f =>
    if fmtIsSx f then
      (sxBlocksOf es).foldl (fun m (r, q) =>
        let cols := blockCols (len r) q
        let full := cols.all (fun c => (lastStore es r c).isSome)
        let m := cols.foldl (fun m c => if (lastStore es r c).isSome && full then ones m r c
          else kmod 0 m (t.bit r c / 8) id) m
        kmod 0 m (t.shiftAt r (32 * q)) (fun b => if full then 255 else b)) []
    else es.foldl (fun m e => ones m e.1 e.2.1) []

/-- Bytes of an SX output that the choice of a partly written block's shift reads (R265). -/
def Stream.reads (t : Stream) (len : Nat → Nat) (es : List (Nat × Nat × Nat × Bool)) : List (Nat × Nat) :=
  match t.fmt with
  | none => []
  | some f =>
    if !fmtIsSx f then []
    else (sxBlocksOf es).flatMap (fun (r, q) =>
      let rest := (blockCols (len r) q).filter (fun c => (lastStore es r c).isNone)
      if rest.isEmpty then []
      else (t.shiftAt r (32 * q), 1) :: rest.map (fun c => (t.bit r c / 8, cdiv (t.bit r c % 8 + t.width) 8)))

/-- The stores of an output that have reached scratch: all of a plain format, and those of an SX block once every element of the block has
been stored (R265). -/
def Stream.landed (t : Stream) (len : Nat → Nat) (es : List (Nat × Nat × Nat × Bool)) : List (Nat × Nat × Nat × Bool) :=
  match t.fmt with
  | none => []
  | some f =>
    if fmtIsSx f then
      es.filter (fun e => (blockCols (len e.1) (e.2.1 / 32)).all (fun c => (lastStore es e.1 c).isSome))
    else es

/-- An element's inputs after the stores of the elements before it, where an output writes in place the stream that it reads (R260, R266;
log entry 41). -/
def feedBack (ts : List (Nat × Stream)) (len : Nat → Nat) (zero : Stream → Nat → Bool) (rd : Nat → Nat → List Byte) (st : VxState)
    (e : ElemIn) : ElemIn :=
  { e with s := (List.range 6).map (fun j =>
      let old := nthD 0 e.s j
      match ts.find? (fun x => x.1 = j && x.2.kind = 1) with
      | none => old
      | some (_, t) =>
        match ts.find? (fun x => 6 ≤ x.1 && x.2.kind = 1 && x.2.picot ≠ 1 && x.2.same t) with
        | none => old
        | some (o, out) =>
          let es := out.landed len (storesOf (if o = 6 then st.d0 else st.d1))
          let m := (out.render st.ties len (zero out) (fun a => (rd a 1).headD 0) es).1
          t.load (fun a n => (List.range n).map (fun i => (kfind m (a + i)).getD ((rd (a + i) 1).headD 0))) (fun _ _ => 0) e.row e.col) }

/-- Maximal runs of consecutive bytes. -/
def runsOf : KMap Byte → List (Nat × List Byte)
  | [] => []
  | (a, b) :: m =>
    match runsOf m with
    | (a', bs) :: rest => if a' = a + 1 then (a, b :: bs) :: rest else (a, [b]) :: (a', bs) :: rest
    | [] => [(a, [b])]

/-- Write a byte map into the window of a core. -/
def State.writeRuns (s : State) (c x : Nat) (m : KMap Byte) (flags : Nat) : State :=
  (runsOf m).foldl (fun s (a, bs) => s.writeScr c x a bs flags) s

/-- The words of a block that are not wholly overwritten; read and checked (R463, R594). Where a word that is to be overwritten is poisoned
the block has no tag to check, and its other words stand as they are read (R338). -/
def readRest (w : Who) (va size blockId : Nat) (covered : Nat → Bool) : CM (List WireWord) := do
  let xs ← readLines w false va (size / 64)
  let ws := xs.map (·.1)
  let rest := ((List.range ws.length).zip ws).filter (fun e => !covered e.1)
  if rest.any (·.2.poison) then
    modify (fun s => s.consume (w.consumed va blockId))
    throw (.fail stPoisonConsumed)
  else if xs.any (·.2) then return ws
  else if rest.all (fun e => e.2.kind = 0) then return ws.map (fun v => { v with data := List.replicate 64 0 })
  else if ws.any (·.poison) || checkWords ws blockId = 0 then return ws
  else
    modify (fun s => s.rereadBlock w va size blockId)
    throw (.fail stSelvageMismatch)

/-- A block to be written: its address, image, the words wholly overwritten, and the flags the old words carried. -/
structure BlockImg where
  va : Nat
  bytes : List Byte
  covered : List Bool
  oldTies : List Bool
deriving DecidableEq, Repr

/-- Fetch a block's image for a write that covers `cov` (R463): zeros where all of it is overwritten. -/
def fetchImg (w : Who) (size blockId va : Nat) (cov : KMap Byte) : CM BlockImg := do
  let covered := (List.range (size / 64)).map (fun i => (List.range 64).all (fun j => kget 0 cov (va + 64 * i + j) = 255))
  if covered.all id then return ⟨va, List.replicate size 0, covered, covered.map (fun _ => false)⟩
  else
    let ws ← readRest w va size blockId (fun i => nthD false covered i)
    if (covered.zip ws).any (fun e => !e.1 && e.2.ties) then modify (fun s => s.updCore w.core (fun k => { k with sawTies := true }))
    return ⟨va, ws.flatMap (·.data), covered, ws.map (·.ties)⟩

/-- Words of a finished block with tags and rounding flags (R463, R465). -/
def BlockImg.words (b : BlockImg) (blockId : Nat) (ties : Bool) : List WireWord :=
  blockWords b.bytes blockId (fun i => ties || (nthD false b.oldTies i && !nthD false b.covered i))

/-- Overwrite the bytes of an image. -/
def BlockImg.patch (b : BlockImg) (m : KMap Byte) : BlockImg :=
  { b with bytes := (List.range b.bytes.length).zip b.bytes |>.map (fun (i, old) => (kfind m (b.va + i)).getD old) }

/-- Write all blocks of a descriptor (R148, R258): each is placed before any is written. -/
def writeImgs (w : Who) (imgs : List BlockImg) (idOf : Nat → Nat) (ties : Bool) : CM Unit := do
  let ps ← imgs.mapM (fun b => place w b.va true false)
  (imgs.zip ps).forM (fun e => writeWords { w with va := e.1.va } e.2 (e.1.words (idOf e.1.va) ties))

/-! ### The VECTOR row -/

/-- The access of a core's vector engine. -/
def State.vecWho (s : State) (c : Nat) : Who := { core := c, unit := 2, cmd := (s.core c).cmd.getD 0, ctx := (s.core c).ctx, lane := 2 }

/-- The descriptor at the head of the vector queue has ended (R261, R329). -/
def State.vecEnd (s : State) (c : Nat) (d : VecProg) : State :=
  s.updCore c (fun k =>
    let k := if d.signal then k.giveProd k.ctx d.signalPair 4 else k
    { k.endAccess 2 with qVector := k.qVector.drop 1, vx := {} })

/-- Slots the ACC streams read, ascending (R276, R277). -/
def accSlots (ts : List (Nat × Stream)) (d : VecProg) : List Nat :=
  (List.range 16).filter (fun q => ts.any (fun e => e.2.kind = 2 && e.2.base % 16 ≤ q &&
    q < e.2.base % 16 + cdiv (progRows d.count d.rowLen) 64))

/-- Read one slot: take its unit, wait while it is held, read it whole, and end its read with a unit on the consumer side (R233, R277). -/
def takeSlot (c : Nat) (d : VecProg) (q : Nat) : CM Unit := do
  modify (fun s => s.updCore c (fun k => { k with vx := { k.vx with slot := q } }))
  let k := (← get).core c
  if d.semTake && !k.vx.unit then
    engineTake c k.ctx ⟨d.semPair, 0, 2⟩
    modify (fun s => s.updCore c (fun k => { k with vx := { k.vx with unit := true } }))
  if k.mx.held.testBit q then
    modify (fun s => s.updCore c (fun k => { k with vx := { k.vx with waitSlot := true } }))
    throw .wait
  else
    modify (fun s => s.updCore c (fun k =>
      { k.giveCons k.ctx d.semPair 4 with
        vx := { k.vx with read := kput k.vx.read q (kget {} k.mx.slots q), unit := false, waitSlot := false } }))

/-- Read the slots of the ACC streams, ascending (R276, R277). -/
def takeSlots (c : Nat) (d : VecProg) (slots : List Nat) : CM Unit := do
  let v := ((← get).core c).vx
  (slots.filter (fun q => (kfind v.read q).isNone)).forM (takeSlot c d)

/-- Magnitudes collected by a Picot collect stream (R282). -/
def collectMags (t : Stream) (ties : Bool) (rd : Nat → Nat → List Byte) (es : List (Nat × Nat × Nat × Bool)) : KMap Byte :=
  es.foldl (fun m e =>
    let a := t.mag + 4 * (t.chan0 + e.2.1)
    let old := leNat ((List.range 4).map (fun i => (kfind m (a + i)).getD ((rd (a + i) 1).headD 0)))
    let v := storedVal e.2.2.1 e.2.2.2
    if fvIsNan v then m
    else
      let new := (floatEncode (floatSpec .fp32) ties (fvAbs v)).1
      let best := if fvIsNan (f32 old) || fvLt (f32 old) (f32 new) then new else old
      ((List.range 4).zip (leBytes 4 best)).foldl (fun m (i, b) => kput m (a + i) b) m) []

/-- BF16 values that a Picot apply stream writes (R282). -/
def applyVals (t : Stream) (list : List Nat) (ties : Bool) (es : List (Nat × Nat × Nat × Bool)) : KMap Byte × CvtFlags :=
  es.foldl (fun (m, fl) e =>
    match list.findIdx? (· = t.chan0 + e.2.1) with
    | none => (m, fl)
    | some j =>
      let (code, g) := floatEncode (floatSpec .bf16) ties (storedVal e.2.2.1 e.2.2.2)
      let a := t.val + 2 * (j * t.prows + t.row0 + e.1)
      (((List.range 2).zip (leBytes 2 code)).foldl (fun m (i, b) => kput m (a + i) b) m, fl ||| g)) ([], 0)

/-- The work of a VECTOR descriptor (R258 to R277, R282, R286). -/
def vecWork (c : Nat) (d : VecProg) (ts : List (Nat × Stream)) : CM Unit := do
  let k := (← get).core c
  let x := k.ctx
  let slots := accSlots ts d
  if k.vx.sent then
    if k.wpend = 0 then modify (fun s => s.vecEnd c d) else throw .wait
  else
    takeSlots c d slots
    let ws ← (do
      let bs ← readScratch c 4 d.progBase (4 * d.progLen)
      return (List.range d.progLen).map (fun i => fieldAt bs (4 * i) 4))
    let ps ← (do
      let bs ← readScratch c 4 d.paramBase 32
      return (List.range 8).map (fun i => fieldAt bs (4 * i) 4))
    let ins := ts.filter (fun e => e.1 < 6)
    let pos := (List.range d.count).map (fun i => (i / d.rowLen, i % d.rowLen))
    ins.forM (fun e => pos.forM (fun rc => (e.2.touches rc.1 rc.2).forM (fun a => do
      let _ ← readScratch c 4 a.1 a.2
      return ())))
    let s ← get
    let ties := s.coreTies c
    let rd := fun a n => s.scr c x a n
    let acc := fun q i => kget 0 (kget {} (s.core c).vx.read q).data i
    let es := (List.range d.count).map (fun i =>
      let r := i / d.rowLen
      let cc := i % d.rowLen
      (⟨i, r, cc, (List.range 6).map (fun j => match ins.find? (fun e => e.1 = j) with | none => 0 | some e => e.2.load rd acc r cc)⟩ : ElemIn))
    let len := fun r => if r + 1 = progRows d.count d.rowLen then lastRow d.count d.rowLen else d.rowLen
    let list := fun (t : Stream) => if t.picot = 2 then s.picotList c x t else []
    let zero := fun (t : Stream) cc => (list t).contains (t.chan0 + cc)
    let st := runProgram (feedBack ts len zero rd) ws d.rowLen { p := ps, ties := ties } es
    let outs := (ts.filter (fun e => 6 ≤ e.1)).map (fun e => (e.2, storesOf (if e.1 = 6 then st.d0 else st.d1)))
    -- what the outputs read back: old codes of SX blocks, collected magnitudes, Picot lists (R265, R282)
    outs.forM (fun o => do
      let cols := (o.2.map (fun e => e.2.1)).eraseDups
      let areas := (if o.1.kind = 1 && o.1.picot ≠ 1 then o.1.reads len o.2 else []) ++
        (if o.1.picot = 1 then cols.map (fun cc => (o.1.mag + 4 * (o.1.chan0 + cc), 4)) else []) ++
        (if o.1.picot = 2 then [(o.1.list - 2, if o.1.pn = 0 then 2 else 0), (o.1.list, 2 * s.picotLen c x o.1)] else [])
      areas.forM (fun a => do
        let _ ← readScratch c 4 a.1 a.2
        return ()))
    -- device images are fetched, and every write is placed, before anything is written
    let who := s.vecWho c
    let dev := outs.filter (fun o => o.1.kind = 3 && o.1.picot ≠ 1)
    let cov := dev.foldl (fun m o => (o.1.cover len o.2).foldl (fun m e => kmod 0 m e.1 (fun b => b ||| e.2)) m) []
    let imgs ← ((cov.map (fun e => e.1 / 4096 * 4096)).eraseDups).mapM (fun va => fetchImg who 4096 (blockIdOf x va) va cov)
    let s ← get
    let tieNow := ties || s.sawTies c
    let flag := if tieNow then 2 else 0
    let done := dev.foldl (fun (bs, fl) (t, es) =>
      let look := fun a => match bs.find? (fun b => b.va = a / 4096 * 4096) with | none => 0 | some b => nthD 0 b.bytes (a % 4096)
      let (m, g) := t.render ties len (zero t) look es
      (bs.map (·.patch m), fl ||| g)) (imgs, 0)
    writeImgs who done.1 (blockIdOf x) tieNow
    modify (fun s => (outs.filter (fun o => o.1.kind = 1 && o.1.picot ≠ 1)).foldl (fun s (t, es) =>
      let (m, fl) := t.render ties len (zero t) (fun a => (s.scr c x a 1).headD 0) es
      (s.writeRuns c x m flag).updCore c (fun k => { k with cvt := k.cvt ||| fl })) s)
    modify (fun s => (outs.filter (fun o => o.1.picot = 1)).foldl (fun s (t, es) =>
      s.writeRuns c x (collectMags t ties (fun a n => s.scr c x a n) es) flag) s)
    modify (fun s => (outs.filter (fun o => o.1.picot = 2)).foldl (fun s (t, es) =>
      let (m, fl) := applyVals t (list t) ties es
      (s.writeRuns c x m flag).updCore c (fun k => { k with cvt := k.cvt ||| fl })) s)
    modify (fun s => s.updCore c (fun k => { k with
      cvt := k.cvt ||| st.flags ||| done.2, vx := { k.vx with sent := true },
      counters := bump (bump k.counters 0x340 (issueCycles ws d.count st.tails)) 0x350 d.count }))
    if ((← get).core c).wpend = 0 then modify (fun s => s.vecEnd c d) else throw .wait

/-- Whether a core's engines run: they stop with their command (R330) and pause at full duty (R502); a drain lets issued descriptors end
(R360). -/
def State.engines (s : State) (c : Nat) : Bool :=
  match (s.core c).cmd.bind s.cmd? with
  | none => false
  | some m => m.phase = .running && !m.replayDue && !s.halted c

/-- VECTOR: the program at the head of the vector queue (R258). `lockstep` says that the duplicated lanes disagreed (R459); `words` are
read with wrong symbols (R467). -/
def execVector (c : CoreId) (lockstep : Bool) (s : State) (words : List SramErr := []) : Host.Outcome State Fault Refusal :=
  match (s.core c).qVector with
  | q :: _ =>
    let d := parseVec q.bytes
    if !s.engines c || q.ring || d.builtin ≠ 0 then .next s
    else if lostWord words then .next ((s.sramWords c 4 words).loseWord c 4)
    else if lockstep then .next ((s.sramWords c 4 words).arithFault c 4 false ⟨true, 0, 0, 0⟩ q.bytes)
    else .next (runOn (s.sramWords c 4 words) c (vecWork c d (streamsOf d (q.streams.map (·.2)))))
  | [] => .next s

/-- Pick at most `p` channels of largest magnitude, lower index first on ties, without zeros (R69). -/
def pickChannels : Nat → List (Nat × Nat) → List Nat
  | 0, _ => []
  | p + 1, l =>
    let best := l.foldl (fun b e => match b with
      | none => some e
      | some g => if fvLt (f32 g.2) (f32 e.2) then some e else some g) (none : Option (Nat × Nat))
    match best with
    | none => []
    | some b => if fvIsZero (f32 b.2) then [] else b.1 :: pickChannels p (l.erase b)

/-- Numbers in rising order. -/
def sortNats : List Nat → List Nat
  | [] => []
  | x :: xs => insertNat x (sortNats xs)
where
  insertNat (x : Nat) : List Nat → List Nat
    | [] => [x]
    | y :: ys => if x ≤ y then x :: y :: ys else y :: insertNat x ys

/-- PICOT_PICK (R69, R283, R335). -/
def execPicotPick (c : CoreId) (s : State) : Host.Outcome State Fault Refusal :=
  match (s.core c).qVector with
  | q :: _ =>
    let d := parseVec q.bytes
    if !s.engines c || q.ring || d.builtin ≠ 1 then .next s
    else
      match streamsOf d (q.streams.map (·.2)) with
      | (_, t) :: _ =>
        .next (runOn s c (do
          let x := ((← get).core c).ctx
          let bs ← readScratch c 4 t.mag (4 * t.pk)
          let mags := (List.range t.pk).map (fun i => (i, fieldAt bs (4 * i) 4))
          let l := sortNats (pickChannels d.picotP (mags.filter (fun e => !fvIsNan (f32 e.2))))
          modify (fun s =>
            let flag := s.tieFlag c (s.coreTies c)
            s.writeScr c x (t.list - 2) (leBytes 2 l.length ++ l.flatMap (leBytes 2)) flag)
          modify (fun s => s.vecEnd c d)))
      | [] => .next s
  | [] => .next s

end Sys2Proof.Machine
end

