-- ==== Sys2Proof/Machine/Matrix.lean ====
section
/-! DEFINITION. The matrix array's operation: MATRIX (R221 to R254). A whole operation runs in the command; a split one in the phases
that its exports and its barrier part (R252, R253). -/

namespace Sys2Proof.Machine

open Sys2Proof

/-! ### Operands (R225 to R227, R240, R241) -/

/-- Code of X at a lane of block `b` and position `k` of chunk `ch`, zero beyond M and K (R225, R227, R242). -/
def MxDesc.xCode (d : MxDesc) (p : MxPair) (f : Fmt) (rd : Nat → Nat → List Byte) (plane ch b lane k : Nat) : Nat :=
  if 64 * b + lane < d.m && ch * p.depth + k < d.k then
    bitsAt rd (8 * d.xBase + ((((plane * d.chunks p + ch) * d.blocks + b) * p.depth + k) * 64 + lane) * fmtWidth f) (fmtWidth f)
  else 0

/-- Code of W at a column and position `k` of chunk `ch`, zero beyond N and K (R226, R227, R242). -/
def MxDesc.wCode (d : MxDesc) (p : MxPair) (f : Fmt) (rd : Nat → Nat → List Byte) (plane ch lane k : Nat) : Nat :=
  if lane < d.n && ch * p.depth + k < d.k then
    bitsAt rd (8 * d.wBase + (((plane * d.chunks p + ch) * p.depth + k) * 64 + lane) * fmtWidth f) (fmtWidth f)
  else 0

/-- Shift of a lane of X in 32-step block `q` of a chunk (R226). -/
def MxDesc.xShift (d : MxDesc) (p : MxPair) (f : Fmt) (rd : Nat → Nat → List Byte) (plane ch b lane q : Nat) : Int :=
  if isSxOp f then
    shiftOfField (leNat (rd (d.xsBase + (((plane * d.chunks p + ch) * d.blocks + b) * (p.depth / 32) + q) * 64 + lane) 1))
  else 0

/-- Shift of a column of W in 32-step block `q` of a chunk (R226). -/
def MxDesc.wShift (d : MxDesc) (p : MxPair) (f : Fmt) (rd : Nat → Nat → List Byte) (plane ch lane q : Nat) : Int :=
  if isSxOp f then shiftOfField (leNat (rd (d.wsBase + ((plane * d.chunks p + ch) * (p.depth / 32) + q) * 64 + lane) 1)) else 0

/-- One pass over a chunk: operand planes, sign, which part of each operand (0 whole, 1 low, 2 high), and the promotion scale
(R240 to R242). -/
structure MxPass where
  xp : Nat := 0
  wp : Nat := 0
  neg : Bool := false
  xPart : Nat := 0
  wPart : Nat := 0
  scale : Nat := 1
deriving DecidableEq, Repr

/-- Passes of a product that is not complex, in order (R240, R241). -/
def plainPasses (mode : MxMode) (xf wf : Fmt) : List MxPass :=
  match mode with
  | .fp32 =>
    let noLo := fun (f : Fmt) => f = .bf16 || isFp8 f
    (if noLo xf then [] else [{ xPart := 1, wPart := 2 }]) ++ (if noLo wf then [] else [{ xPart := 2, wPart := 1 }]) ++
      [{ xPart := 2, wPart := 2 }]
  | .digits =>
    [(1, 1), (1, 2), (2, 1), (2, 2)].filterMap (fun (a, b) =>
      if (a = 2 && xf ≠ .int16) || (b = 2 && wf ≠ .int16) then none
      else some { xPart := a, wPart := b, scale := 256 ^ ((a - 1) + (b - 1)) })
  | _ => [{}]

/-- A pass in the order of a chunk: whether a stationary load comes before it, and whether it runs into the imaginary slots. -/
structure MxTurn where
  load : Bool
  pass : MxPass
  imag : Bool := false
deriving DecidableEq, Repr

/-- The passes of a chunk in order (R230, R240 to R242): a new stationary plane is loaded only where the order calls for one; a digit
pass always loads its own. -/
def MxDesc.turns (d : MxDesc) (p : MxPair) (xf wf : Fmt) : List MxTurn :=
  if d.complex then
    [⟨true, {}, false⟩, ⟨false, { xp := 1 }, true⟩, ⟨true, { wp := 1 }, true⟩, ⟨false, { xp := 1, wp := 1, neg := true }, false⟩]
  else
    let ps := plainPasses p.mode xf wf
    (ps.zip (none :: ps.map some)).map (fun (q, before) =>
      ⟨p.mode = .digits || before.all (fun b => b.wPart ≠ q.wPart), q, false⟩)

/-- Passes of a chunk into a slot, in order; `imag` marks the imaginary slot of a complex operation. -/
def MxDesc.passes (d : MxDesc) (p : MxPair) (xf wf : Fmt) (imag : Bool) : List MxPass :=
  ((d.turns p xf wf).filter (fun t => t.imag = imag)).map (·.pass)

/-- A digit of an integer operand (R241). -/
def digitOf (part : Nat) (a : Int) : Int :=
  let lo := signed 8 (unsign 8 a)
  if part = 0 then a else if part = 1 then lo else (a - lo) / 256

/-- A part of a float operand and the flags of its conversions to BF16 (R55, R64, R240). -/
def splitPart (away : Bool) (part : Nat) (v : FVal) : FVal × CvtFlags :=
  let bf := fun (v : FVal) =>
    let r := floatEncode (floatSpec .bf16) away v
    (floatDecode (floatSpec .bf16) r.1, r.2)
  let hi := bf v
  if part = 0 then (v, 0)
  else if part = 2 then hi
  else
    let lo := bf (fvAdd v (fvNeg hi.1))
    (lo.1, hi.2 ||| lo.2)

/-- A part of a float operand (R240). -/
def floatPart (away : Bool) (part : Nat) (v : FVal) : FVal := (splitPart away part v).1

/-- Flags that splitting the operands of a pass sets (R64, R240). DESIGN CHOICE: the conversion of a part to BF16 sets UNDERFLOWED and
SAT_FLOAT as any other (R52, R238; log entry 46). -/
def splitFlags (away : Bool) (part : Nat) (f : Fmt) (codes : List Nat) : CvtFlags :=
  if part = 0 then 0 else codes.foldl (fun a c => a ||| (splitPart away part (decodeElem f 0 c)).2) 0

/-! ### Accumulation (R235 to R238) -/

/-- Consecutive groups of `n` values, at most `fuel`. -/
def groupsOf {α : Type} (n : Nat) : Nat → List α → List (List α)
  | 0, _ => []
  | _ + 1, [] => []
  | fuel + 1, l => l.take n :: groupsOf n fuel (l.drop n)

/-- Sum of the products of a promotion group. -/
def groupSum (g : List (Int × Int)) : Int := g.foldl (fun a e => a + e.1 * e.2) 0

/-- The latched A21 values of a pass, group by group (R232, R235): the sums with their sign, and the errors that struck them. -/
def latched (sgn : Int) (gs : List (List (Int × Int))) (errs : List (Nat × Int)) : List Int :=
  ((List.range gs.length).zip gs).map (fun (i, g) =>
    sgn * groupSum g + ((errs.filter (fun e => e.1 = i)).map (·.2)).sum)

/-- Promotion of A21 values into an INT32 slot (R235, R241). -/
def promoteInt (scale : Int) (as : List Int) (old : Nat) : Nat × CvtFlags :=
  as.foldl (fun (v, fl) a =>
    let r := clampInt 32 (signed 32 v + a * scale)
    (r.1, fl ||| r.2)) (old, 0)

/-- Promotion of A21 values into an FP32 slot, each with its block's shift (R236). -/
def promoteSx (away : Bool) (as : List (Int × Int)) (old : Nat) : Nat × CvtFlags :=
  as.foldl (fun (v, fl) (a, sh) =>
    let r := arith32 away (fvAdd (f32 v) (.fin (decide (a < 0)) a.natAbs sh))
    (r.1, fl ||| r.2)) (old, 0)

/-- Products of float steps with the errors that struck their significands (R246). -/
def struck (xs : List FVal) (errs : List (Nat × Int)) : List FVal :=
  ((List.range xs.length).zip xs).map (fun (i, v) =>
    match v with
    | .fin neg m e => .fin neg ((m : Int) + ((errs.filter (fun r => r.1 = i)).map (·.2)).sum).natAbs e
    | v => v)

/-- One A21 group in float mode (R237). -/
def a21Group (away : Bool) (g : List FVal) : Nat × CvtFlags :=
  g.foldl (fun (a, fl) x =>
    let r := floatEncode a21Spec away (fvAdd (floatDecode a21Spec a) x)
    (r.1, fl ||| (r.2 &&& flagSatFloat))) (0, 0)

/-- Promotion of float groups of 8 steps into an FP32 slot (R237). -/
def promoteFloat (away : Bool) (gs : List (List FVal)) (old : Nat) : Nat × CvtFlags :=
  gs.foldl (fun (v, fl) g =>
    let a := a21Group away g
    let r := arith32 away (fvAdd (f32 v) (floatDecode a21Spec a.1))
    (r.1, fl ||| a.2 ||| r.2)) (old, 0)

/-- Direct FP32 accumulation, every step (R240). -/
def accumulate32 (away : Bool) (xs : List FVal) (old : Nat) : Nat × CvtFlags :=
  xs.foldl (fun (v, fl) x =>
    let r := arith32 away (fvAdd (f32 v) x)
    (r.1, fl ||| r.2)) (old, 0)

/-- One pass of a chunk for one element: codes of its row of X and column of W, the sum of shifts of each 32-step block, and the
errors that strike its groups or steps. -/
def mxElem (mode : MxMode) (away : Bool) (ps : MxPass) (xf wf : Fmt) (xr wr : List Nat) (sh : List Int) (errs : List (Nat × Int))
    (old : Nat) : Nat × CvtFlags :=
  let n := xr.length
  let ints := (xr.map (fun c => digitOf ps.xPart (signed (fmtWidth xf) c))).zip
    (wr.map (fun c => digitOf ps.wPart (signed (fmtWidth wf) c)))
  let prods := (xr.zip wr).map (fun (a, b) =>
    let v := fvMul (floatPart away ps.xPart (decodeElem xf 0 a)) (floatPart away ps.wPart (decodeElem wf 0 b))
    if ps.neg then fvNeg v else v)
  let sgn : Int := if ps.neg then -1 else 1
  match mode with
  | .int => promoteInt ps.scale (latched sgn (groupsOf 32 n ints) errs) old
  | .digits => promoteInt ps.scale (latched sgn (groupsOf 32 n ints) errs) old
  | .sx => promoteSx away ((latched sgn (groupsOf 32 n ints) errs).zip sh) old
  | .float => promoteFloat away (groupsOf 8 n (struck prods errs)) old
  | .fp32 => accumulate32 away (struck prods errs) old

/-- The k positions of chunk `ch` that the operation covers. -/
def MxDesc.steps (d : MxDesc) (p : MxPair) (ch : Nat) : Nat := min p.depth (d.upto - ch * p.depth)

/-- Chunks the operation runs, ascending (R230, R251). -/
def MxDesc.run (d : MxDesc) (p : MxPair) : List Nat :=
  (List.range (cdiv d.upto p.depth)).filter (fun ch => d.from / p.depth ≤ ch)

/-- Float mode and the FP32 passes are checked step by step, the others group by group (R245, R246). -/
def MxMode.steps : MxMode → Bool
  | .float => true
  | .fp32 => true
  | .int => false
  | .sx => false
  | .digits => false

/-- Residue comparisons of a pass over a row block in chunk `ch`: its promotion groups, or its steps (R245, R246). -/
def MxDesc.checks (d : MxDesc) (p : MxPair) (ch : Nat) : Nat :=
  if p.mode.steps then d.steps p ch else cdiv (d.steps p ch) 32

/-- The errors that strike one cell, by group. -/
def cellErrors (i : Nat) (errs : List SumError) : List (Nat × Int) :=
  (errs.filter (fun e => 64 * e.row + e.column = i)).map (fun e => (e.group, e.delta))

/-- One pass over a chunk for all 4,096 elements of a slot, with the errors that strike it. -/
def MxDesc.passSlot (d : MxDesc) (p : MxPair) (xf wf : Fmt) (rd : Nat → Nat → List Byte) (away : Bool) (b ch : Nat) (ps : MxPass)
    (errs : List SumError) (acc : List Nat × CvtFlags) : List Nat × CvtFlags :=
  let kc := d.steps p ch
  let nq := cdiv kc 32
  let xr := (List.range 64).map (fun l => (List.range kc).map (fun k => d.xCode p xf rd ps.xp ch b l k))
  let wr := (List.range 64).map (fun l => (List.range kc).map (fun k => d.wCode p wf rd ps.wp ch l k))
  let xs := (List.range 64).map (fun l => (List.range nq).map (fun q => d.xShift p xf rd ps.xp ch b l q))
  let ws := (List.range 64).map (fun l => (List.range nq).map (fun q => d.wShift p wf rd ps.wp ch l q))
  let rs := ((List.range 4096).zip acc.1).map (fun (i, old) =>
    mxElem p.mode away ps xf wf (nthD [] xr (i / 64)) (nthD [] wr (i % 64))
      (((nthD [] xs (i / 64)).zip (nthD [] ws (i % 64))).map (fun (a, b) => a + b))
      (cellErrors i errs) old)
  (rs.map (·.1), rs.foldl (fun a r => a ||| r.2) acc.2 ||| splitFlags away ps.xPart xf xr.flatten ||| splitFlags away ps.wPart wf wr.flatten)

/-- The chunks and passes of a slot in order, each with the number of its first check in the slot (R230; log entry 46). -/
def MxDesc.slotRuns (d : MxDesc) (p : MxPair) (xf wf : Fmt) (imag : Bool) : List (Nat × MxPass × Nat) :=
  (((d.run p).flatMap (fun ch => (d.passes p xf wf imag).map (fun ps => (ch, ps)))).foldl (fun (l, base) (ch, ps) =>
    (l ++ [(ch, ps, base)], base + d.checks p ch)) (([] : List (Nat × MxPass × Nat)), 0)).1

/-- All chunks and passes of a slot: promotions reach it in ascending k, pass by pass within a chunk (R230). -/
def MxDesc.ownSlot (d : MxDesc) (p : MxPair) (xf wf : Fmt) (rd : Nat → Nat → List Byte) (away : Bool) (b : Nat) (imag : Bool)
    (errs : List SumError) (old : List Nat) : List Nat × CvtFlags :=
  (d.slotRuns p xf wf imag).foldl (fun acc (ch, ps, base) =>
    let here := errs.filterMap (fun e => if base ≤ e.group then some { e with group := e.group - base } else none)
    d.passSlot p xf wf rd away b ch ps here acc) (old, 0)

/-! ### Residue check (R245 to R247) -/

/-- A value modulo 7, in 0 to 6. -/
def mod7 (i : Int) : Nat := (i % 7).toNat

/-- A significand taken as an integer (R246): the hidden bit included; infinity and NaN contribute 0. -/
def significand : FVal → Int
  | .fin _ m _ => m
  | _ => 0

/-- The predicted residue P_n of a check (R245, R246): per k of the check, the 64 rows' values of X and the column's value of W. -/
def predicted (ks : List (List Int × Int)) : Nat := (ks.map (fun e => mod7 e.1.sum * mod7 e.2)).sum % 7

/-- The A21 values, or significand products, of the 64 rows of a column at a check (R222, R245, R246). -/
def cellSums (ks : List (List Int × Int)) : List Int :=
  (List.range 64).map (fun m => (ks.map (fun e => nthD 0 e.1 m * e.2)).sum)

/-- The observed residue O_n of a check (R245, R246): the latched values of the column. -/
def observed (a21 : List Int) : Nat := mod7 a21.sum

/-- The values of X and W that a check of column `n` sees, per k (R245, R246): codes, digits or significands; the sign of the subtracting
pass counts with W. -/
def MxDesc.checkTerms (d : MxDesc) (p : MxPair) (xf wf : Fmt) (rd : Nat → Nat → List Byte) (away : Bool) (b ch : Nat) (ps : MxPass)
    (q n : Nat) : List (List Int × Int) :=
  let value := fun (part : Nat) (f : Fmt) (c : Nat) =>
    if p.mode.steps then significand (floatPart away part (decodeElem f 0 c)) else digitOf part (signed (fmtWidth f) c)
  let ks := if p.mode.steps then [q] else (List.range 32).filterMap (fun i => if 32 * q + i < d.steps p ch then some (32 * q + i) else none)
  ks.map (fun k =>
    ((List.range 64).map (fun m => value ps.xPart xf (d.xCode p xf rd ps.xp ch b m k)),
      (if ps.neg && !p.mode.steps then -1 else 1) * value ps.wPart wf (d.wCode p wf rd ps.wp ch n k)))

/-- Whether the check that an error falls under finds P_n and O_n unequal, all errors of its group and column together. -/
def MxDesc.mismatch (d : MxDesc) (p : MxPair) (xf wf : Fmt) (rd : Nat → Nat → List Byte) (away : Bool) (errs : List SumError)
    (e : SumError) : Bool :=
  let i := e.slot - d.acc
  match (d.slotRuns p xf wf (d.blocks ≤ i)).find? (fun r => r.2.2 ≤ e.group && e.group < r.2.2 + d.checks p r.1) with
  | some (ch, ps, base) =>
    let ks := d.checkTerms p xf wf rd away (i % d.blocks) ch ps (e.group - base) e.column
    let ds := (errs.filter (fun r => r.slot = e.slot && r.group = e.group && r.column = e.column)).map (·.delta)
    d.acc ≤ e.slot && i < d.slots && predicted ks ≠ observed (cellSums ks ++ ds)
  | none => false

/-! ### Picot side path (R66 to R71, R243) -/

/-- Value of an operand at a channel: its Picot value where it lists the channel, else its main-format value (R70). -/
def picotVal (rd : Nat → Nat → List Byte) (on : Bool) (list : List Nat) (val dim lane k : Nat) (main : FVal) : FVal :=
  match if on then list.findIdx? (· = k) else none with
  | some j => if lane < dim then floatDecode (floatSpec .bf16) (leNat (rd (val + 2 * (j * dim + lane)) 2)) else .fin false 0 0
  | none => main

/-- Channels that either set lists, ascending (R70). -/
def picotUnion (xl wl : List Nat) : List Nat := sortNats (xl ++ wl.filter (fun k => !xl.contains k))

/-- Main storage that the Picot path reads: one k position of each operand per channel (R70). -/
def MxDesc.picotMain (d : MxDesc) (p : MxPair) (xf wf : Fmt) (union : List Nat) : List (Nat × Nat) :=
  union.flatMap (fun k =>
    let wa := d.wBase + k * 8 * fmtWidth wf
    (wa, wa + 8 * fmtWidth wf) :: (List.range d.blocks).map (fun b =>
      let xa := d.xBase + ((k / p.depth * d.blocks + b) * p.depth + k % p.depth) * 8 * fmtWidth xf
      (xa, xa + 8 * fmtWidth xf)))

/-- The Picot sum of one element (R70, R71). -/
def MxDesc.picotElem (d : MxDesc) (p : MxPair) (xf wf : Fmt) (rd : Nat → Nat → List Byte) (away : Bool) (xl wl : List Nat)
    (b m n : Nat) : Nat × CvtFlags :=
  accumulate32 away ((picotUnion xl wl).map (fun k =>
    let ch := k / p.depth
    let kk := k % p.depth
    let x := decodeElem xf (d.xShift p xf rd 0 ch b m (kk / 32)) (d.xCode p xf rd 0 ch b m kk)
    let w := decodeElem wf (d.wShift p wf rd 0 ch n (kk / 32)) (d.wCode p wf rd 0 ch n kk)
    let lane := 64 * b + m
    fvMul (picotVal rd d.xPicot xl d.xVal d.m lane k x) (picotVal rd d.wPicot wl d.wVal d.n n k w))) 0

/-! ### Row statistics (R249, R250) -/

/-- Fold one value into a record: MAX, SUM, SUMSQ (R249). -/
def statFold (away : Bool) (stat : Nat) (r : Nat × Nat × Nat × CvtFlags) (v : Nat) : Nat × Nat × Nat × CvtFlags :=
  let s := fadd32 away r.2.1 v
  let q := ffma32 away v v r.2.2.1
  (if stat.testBit 0 then fmax32 r.1 v else r.1, if stat.testBit 1 then s.1 else r.2.1, if stat.testBit 2 then q.1 else r.2.2.1,
    r.2.2.2 ||| (if stat.testBit 1 then s.2 else 0) ||| (if stat.testBit 2 then q.2 else 0))

/-- A row's record after folding its values into the 16 bytes `old` (R249, R250). -/
def statRow (away : Bool) (stat : Nat) (old : List Byte) (vs : List Nat) : List Byte × CvtFlags :=
  let r := vs.foldl (statFold away stat) (fieldAt old 0 4, fieldAt old 4 4, fieldAt old 8 4, 0)
  (leBytes 4 r.1 ++ leBytes 4 r.2.1 ++ leBytes 4 r.2.2.1 ++ leBytes 4 (fieldAt old 12 4 + vs.length), r.2.2.2)

/-- The record that STAT_ACC = 0 starts from (R250). -/
def statInit : List Byte := leBytes 4 0xFF800000 ++ leBytes 12 0

/-! ### Slots (R223, R233) -/

/-- The 4,096 values of a slot; an EMPTY slot reads as zeros (R223). -/
def AccSlot.values (a : AccSlot) : List Nat := (List.range 4096).map (fun i => if a.kind = 0 then 0 else kget 0 a.data i)

/-- A slot of a type that holds the given values. -/
def accSlot (kind : Nat) (vs : List Nat) : AccSlot :=
  { kind := kind, data := ((List.range 4096).zip vs).filter (fun e => e.2 ≠ 0) }

/-- Slot `i` of a core. -/
def Core.slot (k : Core) (i : Nat) : AccSlot := kget {} k.mx.slots i

/-- Write a slot. -/
def Core.setSlot (k : Core) (i : Nat) (a : AccSlot) : Core := { k with mx := { k.mx with slots := kput k.mx.slots i a } }

/-- Add conversion flags. -/
def Core.orCvt (k : Core) (fl : CvtFlags) : Core := { k with cvt := k.cvt ||| fl }

/-- The slots of an operation as a mask. -/
def MxDesc.slotMask (d : MxDesc) : Nat := (2 ^ d.slots - 1) * 2 ^ d.acc

/-- Release the slots of the operation at place `j` of the queue in ascending order, giving the producer side for each; its descriptor has
ended (R233, R329). -/
def Core.mxEnd (k : Core) (d : MxDesc) (j : Nat) : Core :=
  let k := (List.range d.slots).foldl (fun k _ => k.giveProd k.ctx d.sem 3) k
  { k with qMatrix := k.qMatrix.eraseIdx j, mx := { k.mx with held := k.mx.held - (k.mx.held &&& d.slotMask) } }

/-- One row block streamed in one pass over one chunk: whether a stationary load comes before it. -/
structure MxStream where
  load : Bool
  ch : Nat
  block : Nat
  imag : Bool
deriving DecidableEq, Repr

/-- The row blocks in the order the array streams them (R230). -/
def MxDesc.streams (d : MxDesc) (p : MxPair) (xf wf : Fmt) : List MxStream :=
  (d.run p).flatMap (fun ch => (d.turns p xf wf).flatMap (fun t =>
    (List.range d.blocks).map (fun b => ⟨t.load && b = 0, ch, b, t.imag⟩)))

/-- Unpaced cycles that stream `n` steps (R224). -/
def MxPair.cycles (p : MxPair) (n : Nat) : Nat := cdiv (2 * n) p.rate2

/-- The counters of R257 after the given row blocks: streaming cycles, load cycles, comparisons passed. -/
def MxDesc.tally (d : MxDesc) (p : MxPair) (l : List MxStream) (m : KMap Nat) : KMap Nat :=
  let sum := fun (f : MxStream → Nat) => (l.map f).sum
  let m := bump m 0x240 (sum (fun t => p.cycles (d.steps p t.ch)))
  let m := bump m 0x248 (64 * sum (fun t => b2n t.load))
  bump m 0x258 (sum (fun t => d.checks p t.ch))

/-- Where a check lies among the row blocks streamed: the blocks before, its own block, and the check's number in that. -/
def MxDesc.checkPlace (d : MxDesc) (p : MxPair) (xf wf : Fmt) (e : SumError) : List MxStream × Option MxStream × Nat :=
  let i := e.slot - d.acc
  let imag : Bool := d.blocks ≤ i
  (d.streams p xf wf).foldl (fun (l, at', left) t =>
    match at' with
    | some _ => (l, at', left)
    | none =>
      if !(t.imag = imag && t.block = i % d.blocks) then (l ++ [t], none, left)
      else if left < d.checks p t.ch then (l, some t, left)
      else (l ++ [t], none, left - d.checks p t.ch)) (([] : List MxStream), (none : Option MxStream), e.group)

/-- Place of a check in the order of streaming (R230): no pass holds 2^20 checks. -/
def MxDesc.checkKey (d : MxDesc) (p : MxPair) (xf wf : Fmt) (e : SumError) : Nat :=
  let go := d.checkPlace p xf wf e
  go.1.length * 2 ^ 20 + go.2.2

/-- The counters of an operation that a mismatch stops (R248, R257): the row blocks before the failing one, its load, and its steps and
comparisons up to the check. -/
def MxDesc.countStop (d : MxDesc) (p : MxPair) (xf wf : Fmt) (e : SumError) (m : KMap Nat) : KMap Nat :=
  let go := d.checkPlace p xf wf e
  let m := d.tally p go.1 m
  match go.2.1 with
  | some t =>
    let steps := if p.mode.steps then go.2.2 + 1 else min (d.steps p t.ch) (32 * (go.2.2 + 1))
    bump (bump (bump m 0x240 (p.cycles steps)) 0x248 (64 * b2n t.load)) 0x258 go.2.2
  | none => m

/-- Cycles of the merge, the combination, the export and the statistics of an operation (R244, R249, R252, R253, R257; log entry 46). -/
def MxDesc.tailCycles (d : MxDesc) : Nat :=
  64 * ((if d.picots then d.blocks else 0) + (if d.stat ≠ 0 then d.slots else 0) +
    (if d.count = 1 then 0 else if d.index = 0 then d.slots * (d.count - 1) else d.slots))

/-! ### The MATRIX row -/

/-- The access of a core's matrix array. -/
def State.mxWho (s : State) (c : Nat) : Who := { core := c, unit := 3, cmd := (s.core c).cmd.getD 0, ctx := (s.core c).ctx, lane := 3 }

/-- Cores that may recompute a sample: held by Vigil, or idle or unassigned in the same half (R482, R555). -/
def State.shadowCore (s : State) (c : Nat) : Option Nat :=
  (List.range 128).find? (fun d => d ≠ c && s.resultClass d = s.resultClass c && !s.ras.shadows.any (fun h => h.2.2 = d) && (
    (s.rasOf d).state = 2 ||
    (d / 64 = c / 64 && ((s.rasOf d).state = 0 || (s.rasOf d).state = 3) && (s.core d).cmd.isNone)))

/-- The sample that an OVERDUE core may owe before an operation's first stationary load (R482). -/
def State.shadowSample (s : State) (c : Nat) (q : QDesc) (areas : List (Nat × Nat)) : State :=
  let r := s.rasOf c
  if r.state ≠ 3 then s
  else if r.matrixCount < 63 then s.updRas c (fun r => { r with matrixCount := r.matrixCount + 1 })
  else
    let k := s.core c
    let slot := leastBelow 8 (fun i => (kfind s.ras.captures i).isNone)
    let bad := areas.any (fun a => bitAt (s.scrRangeFlags c k.ctx a.1 (a.2 - a.1)) 0)
    match s.shadowCore c, slot, bad with
    | some d, some i, false =>
      let cap : Capture := ⟨c, q.bytes, k.cmd.getD 0, s.coreTies c, k.scratch, true⟩
      (({ s with ras := { s.ras with captures := kput s.ras.captures i cap,
                                     shadows := s.ras.shadows ++ [(c, i, d)] } } : State).rasCount 0x258 1).updRas c
        (fun r => { r with matrixCount := 0, samples := r.samples + 1 })
    | _, _, _ => (s.rasCount 0x260 1).updRas c (fun r => { r with skipped := r.skipped + 1 })

/-- Read every area of a list as the operation does: poison is consumed, the rounding flag noted. -/
def readAreas (c : Nat) (as : List (Nat × Nat)) : CM Unit := as.forM (fun a => do
  let _ ← readScratch c 3 a.1 (a.2 - a.1)
  return ())

/-- Areas the operation streams: the tiles of its own range up to K, and its Picot sets (R225, R226, R231, R251). -/
def MxDesc.streamed (d : MxDesc) (s : State) (c x : Nat) (p : MxPair) (xf wf : Fmt) : List (Nat × Nat) :=
  let planes := List.range d.planes
  let blocks := List.range d.blocks
  let one := fun (ch : Nat) =>
    let kc := d.steps p ch
    let nq := cdiv kc 32
    planes.flatMap (fun pl =>
      let w := pl * d.chunks p + ch
      let wa := d.wBase + w * p.depth * 8 * fmtWidth wf
      let wsa := d.wsBase + w * (p.depth / 32) * 64
      [(wa, wa + kc * 8 * fmtWidth wf)] ++ (if isSxOp wf then [(wsa, wsa + nq * 64)] else []) ++
        blocks.flatMap (fun b =>
          let t := w * d.blocks + b
          let xa := d.xBase + t * p.depth * 8 * fmtWidth xf
          let xsa := d.xsBase + t * (p.depth / 32) * 64
          [(xa, xa + kc * 8 * fmtWidth xf)] ++ (if isSxOp xf then [(xsa, xsa + nq * 64)] else [])))
  (d.run p).flatMap one ++ d.setAreas s c x

/-- The plane of W that the operation's last stationary load leaves, by 64 * k + column (R221, R230, R240 to R242): codes, digits, or
the BF16 parts of FP32 values. -/
def MxDesc.lastPlane (d : MxDesc) (p : MxPair) (xf wf : Fmt) (rd : Nat → Nat → List Byte) (away : Bool) : List Nat :=
  match (d.run p).getLast?, ((d.turns p xf wf).getLast?).map (·.pass) with
  | some ch, some ps =>
    (List.range (d.steps p ch)).flatMap (fun k => (List.range 64).map (fun n =>
      let w := d.wCode p wf rd ps.wp ch n k
      match p.mode with
      | .fp32 => (floatEncode (floatSpec .bf16) away (floatPart away ps.wPart (decodeElem wf 0 w))).1
      | .digits => unsign 9 (digitOf ps.wPart (signed (fmtWidth wf) w))
      | _ => w))
  | _, _ => []

/-- Bits of slot values that an error of an unchecked path changes (R247). -/
def strike (i : Nat) (errs : List ValueError) (vs : List Nat) : List Nat :=
  ((List.range vs.length).zip vs).map (fun (n, v) =>
    errs.foldl (fun v e => if e.slot = i && 64 * e.row + e.column = n then v ^^^ (e.mask % 2 ^ 32) else v) v)

/-- Mark operation `j` of the queue as begun. -/
def markBegun (j : Nat) (l : List QDesc) : List QDesc := l.mapIdx (fun i q => if i = j then { q with begun := true, phase := 1 } else q)

/-- The own range of the operation at place `j` of the queue into its slots, which are held from now on (R223, R230, R233), with the
errors that no check finds. -/
def mxOwn (c : Nat) (d : MxDesc) (p : MxPair) (xf wf : Fmt) (j : Nat) (sums : List SumError) (vals : List ValueError) : CM Unit := do
  let k := (← get).core c
  let areas := d.streamed (← get) c k.ctx p xf wf
  modify (fun s => s.shadowSample c (nthD { bytes := [] } k.qMatrix j) areas)
  readAreas c areas
  modify (fun s =>
    let away := s.coreTies c
    let rd := fun a n => s.scr c k.ctx a n
    let rs := (List.range d.slots).map (fun i =>
      let imag := d.blocks ≤ i
      let old := if d.accInit then (k.slot (d.acc + i)).values else List.replicate 4096 0
      let r := d.ownSlot p xf wf rd away (i % d.blocks) imag (sums.filter (fun e => e.slot = d.acc + i)) old
      (strike (d.acc + i) vals r.1, r.2))
    s.updCore c (fun k =>
      let k := ((List.range d.slots).zip rs).foldl (fun k (i, r) =>
        (k.setSlot (d.acc + i) (accSlot p.mode.slotKind r.1)).orCvt r.2) k
      { k with counters := d.tally p (d.streams p xf wf) k.counters, qMatrix := markBegun j k.qMatrix,
               mx := { k.mx with held := k.mx.held ||| d.slotMask,
                                 stationary := d.lastPlane p xf wf rd away } }))

/-- Split 0 adds the partial tiles into its slots, in ascending split (R253). -/
def mxCombine (c : Nat) (d : MxDesc) (p : MxPair) : CM Unit := do
  let s ← get
  let who := s.mxWho c
  let tiles ← ((List.range (d.count - 1)).flatMap (fun j => (List.range d.slots).map (fun i => (j, i)))).mapM (fun (j, i) => do
    let va := d.partAddr + 16384 * (j * d.slots + i)
    let (ws, _) ← readBlock who va 16384 (blockIdOf who.ctx va) false
    return (i, ws))
  modify (fun s =>
    let away := s.coreTies c
    tiles.foldl (fun s (i, ws) =>
      let bs := ws.flatMap (·.data)
      s.updCore c (fun k =>
        let rs := ((List.range 4096).zip (k.slot (d.acc + i)).values).map (fun (e, old) =>
          let v := fieldAt bs (4 * e) 4
          if p.mode.slotKind = 1 then clampInt 32 (signed 32 old + signed 32 v) else fadd32 away old v)
        let k := (k.setSlot (d.acc + i) (accSlot p.mode.slotKind (rs.map (·.1)))).orCvt (rs.foldl (fun a r => a ||| r.2) 0)
        { k with sawTies := k.sawTies || ws.any (·.ties) })) s)

/-- The Picot sums, their merge, and the statistics of each slot, the imaginary one of a block after the real one (R243, R244, R249; log
entry 46). -/
def mxTail (c : Nat) (d : MxDesc) (p : MxPair) (xf wf : Fmt) : CM Unit := do
  let s ← get
  let x := (s.core c).ctx
  let away := s.coreTies c
  if d.picots then
    let xl := if d.xPicot then s.listAt c x d.xList else []
    let wl := if d.wPicot then s.listAt c x d.wList else []
    readAreas c (d.setAreas s c x ++ d.picotMain p xf wf (picotUnion xl wl))
    modify (fun s =>
      let rd := fun a n => s.scr c x a n
      let flag := s.tieFlag c away
      (List.range d.blocks).foldl (fun s b =>
        let sums := (List.range 4096).map (fun i => d.picotElem p xf wf rd away xl wl b (i / 64) (i % 64))
        let s := s.writeScr c x (d.picotBuf + 16384 * b) (sums.flatMap (fun e => leBytes 4 e.1)) flag
        s.updCore c (fun k =>
          let rs := ((k.slot (d.acc + b)).values.zip sums).map (fun (v, e) => fadd32 away v e.1)
          (k.setSlot (d.acc + b) (accSlot p.mode.slotKind (rs.map (·.1)))).orCvt
            (rs.foldl (fun a r => a ||| r.2) (sums.foldl (fun a r => a ||| r.2) 0)))) s)
  if d.stat ≠ 0 then
    if d.statAcc then
      let _ ← readScratch c 3 d.statBase (16 * d.m)
    modify (fun s =>
      let flag := s.tieFlag c away
      (List.range d.m).foldl (fun s r =>
        let slots := (d.acc + r / 64) :: (if d.complex then [d.acc + d.blocks + r / 64] else [])
        let vs := slots.flatMap (fun i => (List.range d.n).map (fun n =>
          let a := (s.core c).slot i
          let v := kget 0 a.data (r % 64 * 64 + n)
          if a.kind = 1 then (floatEncode (floatSpec .fp32) away (intVal (signed 32 v))).1 else v))
        let at' := d.statBase + 16 * r
        let (bs, fl) := statRow away d.stat (if d.statAcc then s.scr c x at' 16 else statInit) vs
        (s.writeScr c x at' bs flag).updCore c (fun k => k.orCvt fl)) s)

/-- Export of a split's tiles (R252). DESIGN CHOICE: a COMPLEX operation has 2B slots, so that its splits lie 2B tiles apart (log entry 46). -/
def mxExport (c : Nat) (d : MxDesc) : CM Unit := do
  let s ← get
  let k := s.core c
  let imgs := (List.range d.slots).map (fun i =>
    (⟨d.partAddr + 16384 * ((d.index - 1) * d.slots + i), (k.slot (d.acc + i)).values.flatMap (leBytes 4),
      List.replicate 256 true, List.replicate 256 false⟩ : BlockImg))
  writeImgs (s.mxWho c) imgs (blockIdOf k.ctx) (s.coreTies c || s.sawTies c)

/-- The phase of the operation at place `j` of the queue: 0 not begun, 1 own range done, 2 exported, 3 its arrival sent, 4 its arrival
counted (R252, R253). -/
def Core.mxPhase (k : Core) (j : Nat) : Nat := (nthD { bytes := [] } k.qMatrix j).phase

/-- Set the phase of the operation at place `j`. -/
def mxGo (c j n : Nat) : CM Unit :=
  modify (fun s => s.updCore c (fun k => { k with qMatrix := k.qMatrix.mapIdx (fun i q => if i = j then { q with phase := n } else q) }))

/-- The operation at place `j` has ended: its tail cycles count, but for the `overlap` of them that ran beside streaming, and its slots are
released (R233, R257). -/
def mxFinish (c j overlap : Nat) (d : MxDesc) : CM Unit :=
  modify (fun s => s.updCore c (fun k => { k with counters := bump k.counters 0x250 (d.tailCycles - overlap) }.mxEnd d j))

/-- Whether split 0's participant entry has been reached by ROUND (R253, R424, R425). -/
def splitMet (c : Nat) (d : MxDesc) : CM Bool := do
  let s ← get
  let k := s.core c
  let pa ← barrierPlace (s.mxWho c) d.barrier
  let s ← get
  if pa / devSize ≠ s.pool.partId then throw (.fail stBarrierMisuse)
  else
    match s.barrierAt (pa % devSize) with
    | none => throw (.fail stBarrierMisuse)
    | some b =>
      match b.entries.find? (fun e => e.pid = pidOf s.pool.partId k.ctx k.rank 1) with
      | none => throw (.fail stBarrierMisuse)
      | some e =>
        if !b.fits (s.roomIn (s.mxWho c) d.barrier) then throw (.fail stBarrierMisuse)
        else if e.lastGen ≤ b.round then return true
        else
          set (s.putBarrier { b with waiters := if b.waiters.contains (c + 128) then b.waiters else b.waiters ++ [c + 128] })
          return false

/-- The work of the operation at place `j` of the queue, once its own range has streamed, from the phase it has reached. An arrival that is
not counted yet stalls the unit, so no other split of the core arrives meanwhile (R423). -/
def mxWork (c j overlap : Nat) (d : MxDesc) (p : MxPair) (xf wf : Fmt) : CM Unit := do
  if d.count = 1 then
    mxTail c d p xf wf
    mxFinish c j overlap d
  else
    if ((← get).core c).mxPhase j = 1 then
      if d.index ≠ 0 then mxExport c d
      mxGo c j 2
    if ((← get).core c).mxPhase j = 2 then
      let s ← get
      if (s.core c).qMatrix.any (fun q => q.phase = 3) then throw .wait
      if (s.core c).wpend ≠ 0 || s.link.pendingInv.any (fun b => some b.cmd = (s.core c).cmd) then throw .wait
      arriveAt c (s.mxWho c) d.barrier 1
      mxGo c j 3
    if ((← get).core c).mxPhase j = 3 then throw .wait
    if d.index ≠ 0 then mxFinish c j overlap d
    else
      if !(← splitMet c d) then throw .wait
      mxCombine c d p
      mxTail c d p xf wf
      mxFinish c j overlap d

/-- The operation that may stream next: its place in the queue, its descriptor, formats and pair (R233). The array streams one operation
at a time and in order, and waits where the next one names a slot still held. -/
def Core.mxNext (k : Core) : Option (Nat × MxDesc × Fmt × Fmt × MxPair) :=
  match k.qMatrix.findIdx? (fun q => !q.begun) with
  | none => none
  | some j =>
    let d := parseMx (nthD { bytes := [] } k.qMatrix j).bytes
    match fmtOfCode d.xFmt, fmtOfCode d.wFmt with
    | some xf, some wf =>
      (match mxPair xf wf with
       | some p => if k.mx.held &&& d.slotMask = 0 then some (j, d, xf, wf, p) else none
       | none => none)
    | _, _ => none

/-- The first check that finds a mismatch while the next operation streams: in the order of streaming, and the lowest column of those that
one check fails in together (R245, R246, R248; log entry 46). -/
def State.mxDetected (s : State) (c : Nat) (sums : List SumError) : Option (Nat × MxDesc × Fmt × Fmt × MxPair × SumError) :=
  match (s.core c).mxNext with
  | none => none
  | some (j, d, xf, wf, p) =>
    let found := sums.filter (d.mismatch p xf wf (fun a n => s.scr c (s.core c).ctx a n) (s.coreTies c) sums)
    (leastOf (fun e => d.checkKey p xf wf e * 64 + e.column) found).map (fun e => (j, d, xf, wf, p, e))

/-- Run work that may wait: what it did stands, and the work after it goes on (R233). -/
def attempt (m : CM Unit) : CM Unit := fun s =>
  match m.run s with
  | (.error .wait, t) => (.ok (), t)
  | r => r

/-- Go on with the operation at place `j`, where its own range has streamed. -/
def mxAt (c j overlap : Nat) : CM Unit := do
  let q := nthD { bytes := [] } ((← get).core c).qMatrix j
  let d := parseMx q.bytes
  match fmtOfCode d.xFmt, fmtOfCode d.wFmt with
  | some xf, some wf =>
    (match mxPair xf wf with
     | some p => if q.begun then attempt (mxWork c j overlap d p xf wf) else pure ()
     | none => pure ())
  | _, _ => pure ()

/-- Go on with the operations from place `j` of the queue, `n` of them at most. One that waits at its barrier holds back none behind it. -/
def mxRest (c overlap : Nat) : Nat → Nat → CM Unit
  | 0, _ => pure ()
  | n + 1, j => do
    let before := ((← get).core c).qMatrix.length
    if j < before then
      mxAt c j overlap
      let ended : Bool := ((← get).core c).qMatrix.length < before
      mxRest c overlap n (if ended then j else j + 1)

/-- Stream the next operation where one may stream, then go on with those whose own range has streamed (R233). -/
def mxRow (c : Nat) (sums : List SumError) (vals : List ValueError) (overlap : Nat) : CM Unit := do
  match ((← get).core c).mxNext with
  | some (j, d, xf, wf, p) => mxOwn c d p xf wf j sums vals
  | none => pure ()
  mxRest c overlap ((← get).core c).qMatrix.length 0
  modify (fun s => s.updCore c (fun k => if k.qMatrix.any (·.begun) then k else k.endAccess 3))

/-- MATRIX: the operations in the matrix queue (R230, R233). `lockstep`: duplicated units disagree (R459). `sums` and `vals`: the errors
that strike paths that the residue check covers, and paths that it does not (R247). `overlap`: how many tail cycles of an operation that
ends here ran beside streaming (R257). `words`: wrong symbols in words of scratch and of the slots (R467). A mismatch stops the operation
(R248); log entries 10 and 46. -/
def execMatrix (c : CoreId) (lockstep : Bool) (s : State) (sums : List SumError := []) (vals : List ValueError := [])
    (overlap : Nat := 0) (words : List SramErr := []) : Host.Outcome State Fault Refusal :=
  match (s.core c).qMatrix with
  | q :: _ =>
    if !s.engines c then .next s
    else
    let s := s.sramWords c 3 words
    if lostWord words then .next (s.loseWord c 3)
    else if lockstep then .next (s.arithFault c 3 false ⟨true, 0, 0, 0⟩ q.bytes)
    else
      match s.mxDetected c sums with
      | some (j, d, xf, wf, p, e) =>
        let s1 := s.updCore c (fun k => { k with counters := d.countStop p xf wf e k.counters })
        .next (s1.arithFault c 3 p.mode.steps ⟨false, e.column, e.slot, e.group⟩ (nthD q (s.core c).qMatrix j).bytes)
      | none => .next (runOn s c (mxRow c sums vals overlap))
  | [] => .next s

end Sys2Proof.Machine
end

