-- ==== Sys2Proof/Machine/Gather.lean ====
section
/-! DEFINITION. The gather engine and its pooling program (R93 to R108, R278, R279), the local row read (R100, R164), Bobbin fills and
aging (R119, R121, R125), and the prefetcher (R133 to R139). -/

namespace Sys2Proof.Machine

open Sys2Proof

/-- The access of a core's gather engine. -/
def State.gathWho (s : State) (c : Nat) : Who := { core := c, unit := 1, cmd := (s.core c).cmd.getD 0, ctx := (s.core c).ctx, lane := 1 }

/-- Change a gather of a core. -/
def State.updRun (s : State) (c gid : Nat) (f : GatherRun → GatherRun) : State := s.updCore c (fun k => k.updRun gid f)

/-- A stream element of `n` bytes; poison is consumed (R469), and a flagged line is noted (R465). -/
def streamNat (c va n : Nat) : CM Nat := do
  let s ← get
  let w := s.gathWho c
  let (bs, poison, ties) ← readStream w va n
  if poison then
    modify (fun s => s.consume (w.consumed va 0))
    throw (.fail stPoisonConsumed)
  else
    modify (fun s => s.updCore c (fun k => { k with sawTies := k.sawTies || ties }))
    return leNat bs

/-- The end of the present bag, checked as it is read (R94, R96). -/
def bagEnd (c : Nat) (g : GatherRun) : CM Nat := do
  let k := g.u 6 2
  if k ≠ 0 then return k * (g.bag + 1)
  else
    let at' := fun (b : Nat) => streamNat c (g.u 24 8 + 4 * b) 4
    if g.bag = 0 then
      if (← at' 0) ≠ 0 then throw (.fail stOffsetsInvalid)
    let e ← at' (g.bag + 1)
    if e < g.pos || g.count < e || (g.bag + 1 = g.bags && e ≠ g.count) then throw (.fail stOffsetsInvalid)
    else return e

/-- An index's weight as FP32 (R97, R104): a BF16 weight is converted, so that a NaN becomes the canonical one (R44). -/
def weightAt (c : Nat) (g : GatherRun) : CM Nat := do
  if g.wfmt = 0 then return 0x3F800000
  else if g.wfmt = 1 then return (floatEncode (floatSpec .fp32) false (floatDecode (floatSpec .bf16) (← streamNat c (g.u 32 8 + 2 * g.pos) 2))).1
  else streamNat c (g.u 32 8 + 4 * g.pos) 4

/-- Transfers that a gather engine holds: lookups served by Bobbin or local DRAM (R101). -/
def Core.transfers (k : Core) : Nat := (k.gathers.map (fun g => (g.entries.filter (fun e => e.source = 1 || e.source = 3)).length)).sum

/-- Reserve the next ring entry (R100, R102): beyond the first N, once the vector engine has released one through the pair. The
sideband is written with it (R104, R105). -/
def reserve (c gid l weight : Nat) (e : RingEntry) : CM Nat := do
  let k := (← get).core c
  match k.run? gid with
  | none => throw .wait
  | some g =>
    let n := g.first + g.entries.length
    if g.ringSize ≤ n then engineTake c k.ctx ⟨g.pair, 1, 1⟩
    let side := weight * 2 ^ 32 + b2n e.start * 2 ^ 31 + b2n e.empty * 2 ^ 30 + b2n e.skip * 2 ^ 29
    modify (fun s => s.updRun c gid (fun g => { g with entries := g.entries ++ [e] }))
    modify (fun s => s.writeScr c k.ctx (g.sideArea l n) (leBytes 8 side) (s.tieFlag c (s.coreTies c)))
    return n

/-- A placeholder entry with zeros, ready at once (R95, R105). -/
def stageZeros (c gid l weight : Nat) (e : RingEntry) : CM Unit := do
  let n ← reserve c gid l weight e
  modify (fun s =>
    match (s.core c).run? gid with
    | none => s
    | some g => (s.writeRow c g l n (List.replicate l 0) false).entryReady c gid n e)

/-- The ring is full, or 256 transfers are held (R101). -/
def noRoom (k : Core) (g : GatherRun) : Bool := g.ringSize ≤ g.entries.length || 256 ≤ k.transfers

/-- The position and bag after an index. -/
def GatherRun.nextIndex (g : GatherRun) : GatherRun := { g with pos := g.pos + 1, opened := true, stall := none }

/-- The exchange unit of cluster `k` accepts no lookup of the key that it refused to a gather (R157). -/
def Exchange.refuses (x : Exchange) (g : GatherRun) : Bool :=
  g.stall.any (fun (o, p, e, h) => !x.accepts o p e false h)

/-- Issue of a core's gather is stalled (R101): 256 transfers are held, the ring has no free entry, or the exchange unit refuses the index
at hand. -/
def State.gatherStalled (s : State) (c : Nat) : Bool :=
  let k := s.core c
  match k.qGather with
  | [] => false
  | q :: _ => (k.run? q.gid).any (fun g => !g.done && g.bag < g.bags && (noRoom k g || (s.exch (clusterOf c)).refuses g))

/-- An exchange unit refuses an index that a gather engine of its cluster holds out (R157, R184). -/
def State.exchStalled (s : State) (k : Nat) : Bool :=
  (coresOf k).any (fun c => (s.core c).gathers.any (fun g => !g.done && (s.exch k).refuses g))

/-- Look an index up and reserve its entry (R100): from Bobbin, from local DRAM, or through the exchange unit. A table that is no longer
in SERVING refuses it (R72, R84, R91). -/
def lookupRow (c gid r weight : Nat) (start : Bool) : CM Unit := do
  let s ← get
  let k := s.core c
  match k.run? gid with
  | none => throw .wait
  | some g =>
    let t := g.table
    let tab := s.table t
    let cl := clusterOf c
    if tab.state ≠ 2 then throw (.fail stTableUnavailable)
    let (owner, hinted) := s.lookupTarget cl t r g.epoch
    let hit := ((s.slice cl).hit t r g.epoch).isSome
    let joins := (s.slice cl).joinable t r g.epoch
    let remote := !hit && !joins && owner ≠ s.pool.partId
    let part := (s.ctx k.ctx).part
    if remote && !(s.exch cl).accepts owner part g.epoch false hinted then
      set (s.updRun c gid (fun g => { g with stall := some (owner, part, g.epoch, hinted) }))
      throw .wait
    else
      let n ← reserve c gid tab.len weight { start := start, row := r, source := if joins then 3 else if remote then 2 else 1 }
      modify (fun s => if s.ownsRow t r then s.skewLookup t r else s)
      modify (fun s => s.updRun c gid GatherRun.nextIndex)
      let (s, res) := (← get).bobLookup cl t r g.epoch true
      match res with
      | some e =>
        let key := k.cmd.getD 0
        set ((s.replyCheck t r g.epoch e (key / 2 ^ 48) (key % 2 ^ 48)).deliverRing c gid n e)
      | none =>
        let x := (s.slice cl).miss t r g.epoch false ⟨0, c, gid, n⟩
        let s := s.updSlice cl (fun _ => x.1)
        let s := s.updExch cl (fun x => if hinted || joins then x else x.touchOwner t (bucketOf r))
        if remote then
          set (s.updExch cl (fun x => x.take s.refCount owner part g.epoch false hinted
              { table := t, row := r, gen := tab.gen, core := c, gid := gid, entry := n, cmd := k.cmd.getD 0 }))
        else set s

/-- Issue the next index of a gather, or its next empty bag, or end its stream (R94 to R96, R100, R101, R105, R158). -/
def issueOne (c gid : Nat) : CM Unit := do
  let s ← get
  let k := s.core c
  match k.run? gid with
  | none => throw .wait
  | some g =>
    let l := (s.table g.table).len
    if g.done then throw .wait
    else if g.bag = g.bags then
      set ((s.updRun c gid (fun g => { g with done := true })).updExch (clusterOf c)
        (fun x => x.close (fun b => b.entries.any (fun e => e.core = c && e.gid = gid))))
    else
      match g.bagEnd with
      | none =>
        let e ← bagEnd c g
        modify (fun s => s.updRun c gid (fun g => { g with bagEnd := some e, opened := false }))
      | some e =>
        let close := fun (s : State) => s.updRun c gid (fun g => { g with bag := g.bag + 1, bagEnd := none, opened := false })
        if g.pos < e then
          if noRoom k g then throw .wait
          else
            let bytes := if bitAt (g.u 4 1) 3 then 8 else 4
            let r ← streamNat c (g.u 16 8 + bytes * g.pos) bytes
            let weight ← weightAt c g
            let tab := (← get).table g.table
            if tab.rowCount ≤ r then
              if tab.oorSkip then
                stageZeros c gid l weight { start := !g.opened, skip := true, row := r }
                modify (fun s => (s.updRun c gid GatherRun.nextIndex).updCore c (fun k => { k with oor := satAdd 32 k.oor 1 }))
              else throw (.fail stIndexOutOfRange)
            else lookupRow c gid r weight (!g.opened)
        else if g.opened then modify close
        else if g.ringSize ≤ g.entries.length then throw .wait
        else
          stageZeros c gid l 0 { start := true, empty := true }
          modify close

/-! ### The built-in ring program (R278, R279) -/

/-- Scan of a mode on the rows (R279): FADD, FMAX, FFMA, or the integer forms. -/
def poolScan (mode : Nat) (int : Bool) : Nat :=
  if mode = 2 then (if int then 0x2D else 0x29) else if mode = 3 || mode = 4 then 0x2B else if int then 0x2C else 0x28

/-- One column's carry after an entry (R272). -/
def poolStep (ties : Bool) (mode : Nat) (int start contrib : Bool) (weight : Nat) (carry : Option Nat) (v : Nat) : Option Nat × CvtFlags :=
  let before := if start then none else carry
  if !contrib then (before, 0)
  else
    let op := poolScan mode int
    let r := if op = 0x2B then scanStep ties op before weight v else scanStep ties op before v 0
    (some r.1, r.2)

/-- The carry of counts or weights (R279). -/
def sumStep (ties : Bool) (mode : Nat) (start contrib : Bool) (weight : Nat) (carry : Option Nat) : Option Nat × CvtFlags :=
  let before := if start then none else carry
  if !contrib || !(mode = 1 || mode = 4) then (before, 0)
  else
    let r := scanStep ties 0x28 before (if mode = 4 then weight else 0x3F800000) 0
    (some r.1, r.2)

/-- A bag's value in one column from its carries (R106, R107, R279). -/
def bagValue (ties : Bool) (mode : Nat) (carry wsum : Option Nat) : Nat × CvtFlags :=
  let v := carry.getD 0
  if mode = 1 || mode = 4 then
    let n := wsum.getD 0
    let q := fdiv32 ties v n
    (if truthy n then q.1 else 0, q.2)
  else (v, 0)

/-- Format of bag outputs. -/
def GatherRun.outF (g : GatherRun) : Fmt := if g.outFmt = 0 then .fp32 else if g.outFmt = 1 then .bf16 else .int32

/-- Write a bag's values, converted once (R106, R107). -/
def State.writeBag (s : State) (c gid : Nat) (int : Bool) (vs : List Nat) : State :=
  match (s.core c).run? gid with
  | none => s
  | some g =>
    let ties := s.coreTies c
    let codes := vs.map (fun v => convert g.outF ties (storedVal v int))
    let at' := g.u 44 3 % 2 ^ 21 + g.outBag * g.u 48 2
    let s := s.writeScr c (s.core c).ctx at' (packCodes (fmtWidth g.outF) (codes.map (·.1))) (s.tieFlag c ties)
    s.updCore c (fun k =>
      let k := k.updRun gid (fun g => { g with outBag := g.outBag + 1 })
      { k with cvt := k.cvt ||| codes.foldl (fun a e => a ||| e.2) 0, counters := bump k.counters 0x358 1 })

/-- Take the producer unit of the next entry, once (R278, R287). -/
def ringTake (c pair : Nat) : CM Unit := do
  let k := (← get).core c
  if !k.vx.unit then
    engineTake c k.ctx ⟨pair, 0, 2⟩
    modify (fun s => s.updCore c (fun k => { k with vx := { k.vx with unit := true } }))

/-- Pool the oldest entry handed over, once the next entry's START is known (R278). -/
def poolOne (c gid : Nat) : CM Unit := do
  let s ← get
  let k := s.core c
  match k.run? gid with
  | none => throw .wait
  | some g =>
    match g.entries with
    | [] =>
      if !g.done then ringTake c g.pair
      throw .wait
    | e :: rest =>
      let tab := s.table g.table
      let l := tab.len
      ringTake c g.pair
      if g.handed ≤ g.first || (rest.isEmpty && !g.done) then throw .wait
      else
        if e.poison then
          modify (fun s => s.consume { event := 0, unit := 4, core := c, cluster := clusterOf c, ctx := k.ctx, addr := s.rowAddr g.table e.row g.epoch,
                                       blockId := rowBlockId g.table tab.gen e.row,
                                       queue := k.cmd.getD 0 / 2 ^ 48, seq := k.cmd.getD 0 % 2 ^ 48 })
          throw (.fail stPoisonConsumed)
        else
          let bs ← readScratch c 4 (g.rowArea l g.first) (4 * l)
          let side ← readScratch c 4 (g.sideArea l g.first) 8
          let vs := (List.range l).map (fun i => fieldAt bs (4 * i) 4)
          let weight := fieldAt side 4 4
          let start := bitAt (leNat side) 31
          let contrib := !bitAt (leNat side) 30 && !bitAt (leNat side) 29
          let last ← (if rest.isEmpty then pure true
            else do return bitAt (leNat (← readScratch c 4 (g.sideArea l (g.first + 1)) 8)) 31)
          let ties := s.coreTies c
          let mode := g.mode
          let int := tab.isInt
          let carry := ((List.range l).zip vs).map (fun (i, v) =>
            poolStep ties mode int start contrib weight (if g.carry.length = l then g.carry.getD i none else none) v)
          let ws := sumStep ties mode start contrib weight g.wsum
          let out := carry.map (fun x => bagValue ties mode x.1 ws.1)
          let write := mode = 5 || last
          let flags := if mode = 5 then 0
            else carry.foldl (fun a x => a ||| x.2) 0 ||| ws.2 ||| (if last then out.foldl (fun a x => a ||| x.2) 0 else 0)
          modify (fun s => s.updCore c (fun k =>
            { (k.updRun gid (fun g => { g with carry := carry.map (·.1), wsum := ws.1 })) with
              cvt := k.cvt ||| flags,
              counters := bump (bump k.counters 0x350 l) 0x340
                (cdiv l 64 * (if mode = 1 || mode = 4 then 2 else 1) + (if (mode = 1 || mode = 4) && last then 5 else 0)) }))
          if write then modify (fun s => s.writeBag c gid int (if mode = 5 then vs else out.map (·.1)))
          modify (fun s => s.updCore c (fun k =>
            { (k.updRun gid (fun g => { g with entries := g.entries.drop 1, first := g.first + 1 })).giveCons k.ctx g.pair 4 with
              vx := { k.vx with unit := false } }))

/-- A gather ends when its ring program has (R329). -/
def State.gatherEnd (s : State) (c gid : Nat) : State :=
  match (s.core c).run? gid with
  | none => s
  | some g =>
    if g.done && g.entries.isEmpty then
      s.updCore c (fun k => { k.endAccess 1 with
        qGather := k.qGather.drop 1, qVector := k.qVector.drop 1, vx := {}, gathers := k.gathers.filter (fun h => h.gid ≠ gid) })
    else s

/-- Issue and pool until neither goes further; a failure stops it. -/
def gatherLoop (c gid : Nat) (pools : Bool) : Nat → CM Unit
  | 0 => return ()
  | n + 1 => do
    let a ← tryCatch (do issueOne c gid; return true) (fun e => match e with | .wait => return false | e => throw e)
    let b ← if pools then tryCatch (do poolOne c gid; return true) (fun e => match e with | .wait => return false | e => throw e)
      else pure false
    if a || b then gatherLoop c gid pools n else return ()

/-- GATHER: the gather at the head of the gather queue, and its pooling program once that heads the vector queue (R100 to R107).
`lockstep` says that the widening or pooling adders disagreed (R459); in `ways` of the cluster's slice the lookups find an
uncorrectable error (R120), and `words` are read with wrong symbols (R467). -/
def execGather (c : CoreId) (lockstep : Bool) (ways : List (Fin 65536)) (s : State) (words : List SramErr := []) : Host.Outcome State Fault Refusal :=
  match (s.core c).qGather with
  | q :: _ =>
    if !s.engines c then .next s
    else
      let pools := match (s.core c).qVector with | v :: _ => v.ring && v.gid = q.gid | [] => false
      if lostWord words then .next ((s.sramWords c 2 words).loseWord c 2)
      else if lockstep then .next ((s.sramWords c 2 words).arithFault c 2 false ⟨true, 0, 0, 0⟩ q.bytes)
      else
        let fuel := match (s.core c).run? q.gid with | none => 0 | some g => 2 * (g.count + 2 * g.bags + g.entries.length) + 8
        let s := runOn ((s.sramWords c 2 words).dropWays (clusterOf c) (ways.map (·.val))) c (gatherLoop c q.gid pools fuel)
        .next (s.gatherEnd c q.gid)
  | [] => .next s

/-! ### Local rows (R100, R164, R212) -/

/-- Symbol errors appear in the codeword at an offset (log entry 15). -/
def State.placeErrs (s : State) (a n : Nat) : State :=
  if n = 0 then s else { s with mem := { s.mem with symErr := kput s.mem.symErr (a / 64) n } }

/-- Count a redirection of a command (R166, R185). -/
def State.redirected (s : State) (k cmd : Nat) : State :=
  (s.updExch k (fun x => { x with counters := bump x.counters 0x158 1 })).updCmd cmd (fun m => { m with redirects := m.redirects + 1 })

/-- Hand a ring entry to the exchange unit in a redirected batch (R155, R166). -/
def State.sendOn (s : State) (k owner part epoch : Nat) (e : XchgEntry) : State :=
  s.updExch k (fun x => x.offer s.refCount ⟨owner, part, epoch, true, e⟩)

/-- Record a redirect hint (R166). DESIGN CHOICE: the oldest of 1,024 makes room (log entry 45). -/
def Exchange.noteHint (x : Exchange) (t r epoch holder : Nat) : Exchange :=
  { x with hints := (⟨t, r, epoch, holder⟩ :: x.hints.filter (fun h => !(h.table = t && h.row = r && h.epoch = epoch))).take 1024 }

/-- Bucket that a local read for the context of a core is charged to (R171). -/
def State.readBucket (s : State) (c : Nat) : Nat := bucketKey (s.ctx (s.core c).ctx).part 0

/-- ROW_ARRIVAL: the local read of a ring entry's row completes (R100, R164). `errs` symbols of its slot are wrong, `transport` says
that the row failed its check on the way. DESIGN CHOICE: the owner's own lookup of a moved row that is to be forwarded goes to the holder in
a redirected batch, and is not counted as forwarded (R155; log entry 45). -/
def execRowArrival (c : CoreId) (gid entry errs : Nat) (transport : Bool) (s : State) : Host.Outcome State Fault Refusal :=
  match ((s.core c).run? gid).bind (fun g => (g.entry? entry).map (fun e => (g, e))) with
  | none => .next s
  | some (g, e) =>
    if e.source ≠ 1 || e.ready || s.halted c then .next s
    else
      let k := clusterOf c
      let t := g.table
      let w : MissWaiter := ⟨0, c, gid, entry⟩
      let s := s.placeErrs (rmSlot (s.rowEntry t e.row)) errs
      let on := fun (s : State) (holder : Nat) (count : Bool) =>
        let key := (s.core c).cmd.getD 0
        let hops := e.hops + b2n count
        let s := if count then (s.redirected k key).updExch k (fun x => x.noteHint t e.row g.epoch holder) else s
        if 4 ≤ hops then s.failCore c stRedirect
        else
          let s := s.updRun c gid (fun g => g.setEntry entry { e with source := 2, hops := hops })
          s.sendOn k holder (s.ctx (s.core c).ctx).part g.epoch
            { table := t, row := e.row, gen := (s.table t).gen, core := c, gid := gid, entry := entry, cmd := key, hops := hops }
      match s.ownerRow (s.readBucket c) t e.row g.epoch with
      | (s, .forward h) => .next (on s h false)
      | (s, .reply r) =>
        if r.estatus = 2 then .next (on s r.holder true)
        else
          let r := { r with badMeta := r.badMeta || transport }
          let key := (s.core c).cmd.getD 0
          let s := s.updSlice k (fun sl => { sl with misses := sl.misses.map (fun m =>
            if m.waiters.contains w then { m with waiters := m.waiters.erase w } else m) })
          .next ((s.replyCheck t e.row g.epoch r (key / 2 ^ 48) (key % 2 ^ 48)).deliverRing c gid entry r)

/-- Bucket that the read of a miss is charged to (R171): its first demand waiter's partition, the prefetching command's, or pool service for
a lookup of another part. -/
def State.missBucket (s : State) (m : Miss) : Nat :=
  match m.waiters.find? (fun w => w.kind = 0), m.waiters.find? (fun w => w.kind = 2) with
  | some w, _ => s.readBucket w.core
  | none, some w => bucketKey w.gid 0
  | none, none => bucketKey 16 0

/-- BOBBIN_FILL: the row of an open miss on a row of this part arrives at a slice (R119, R121). A miss whose row has moved and for which no
ring entry waits is closed. -/
def execBobbinFill (k : ClusterId) (table : BitVec 16) (row : BitVec 40) (epoch : BitVec 40) (s : State) :
    Host.Outcome State Fault Refusal :=
  let t := table.toNat
  let r := row.toNat
  match (s.slice k).misses.find? (fun m => m.table = t && m.row = r && m.epoch = epoch.toNat) with
  | none => .next s
  | some m =>
    if (s.lookupTarget k t r m.epoch).1 ≠ s.pool.partId then .next s
    else
      let moved := fun (s : State) =>
        if m.waiters.any s.ringWaits then s else s.updSlice k (fun sl => { sl with misses := sl.misses.erase m })
      match s.ownerRow (s.missBucket m) t r m.epoch with
      | (s, .reply e) => .next (if e.estatus ≠ 2 then s.answer k m e false else moved s)
      | (s, .forward _) => .next (moved s)

/-- What an aging tick does to a tag (R125, R126). -/
def BobTag.grow (g : BobTag) : BobTag :=
  if g.age < 7 then { g with age := g.age + 1 } else { g with age := 0, freq := g.freq / 2, noticed := false }

/-- AGING_TICK: due after every 2^(16 + AGE_PERIOD) lookups of a slice (R125, R141). -/
def execAgingTick (k : ClusterId) (s : State) : Host.Outcome State Fault Refusal :=
  let sl := s.slice k
  let n := 2 ^ (16 + min 10 sl.agePeriod)
  if sl.lookups < n then .next s
  else .next (s.updSlice k (fun sl => { sl with lookups := sl.lookups - n, tags := sl.tags.map (fun e => (e.1, e.2.grow)) }))

/-! ### The prefetcher (R133 to R139) -/

/-- Change the prefetcher's record of a command. -/
def State.updPref (s : State) (cmd : Nat) (f : PrefStep → PrefStep) : State :=
  { s with prefetch := s.prefetch.map (fun p => if p.cmd = cmd then f p else p) }

/-- Clusters that ran the context's most recent step, ascending (R135). -/
def Ctx.clusters (c : Ctx) : List Nat := (List.range 16).filter (fun k => c.place / 2 ^ (8 * k) % 256 ≠ 0)

/-- A malformed hint header (R133, R138). DESIGN CHOICE: non-zero reserved bits, a count outside R133's range and an address beyond 52 bits
make it so (log entry 44). -/
def hintBad (h : List Byte) : Bool :=
  bitsOf (fieldAt h 2 1) 6 4 ≠ 0 || fieldAt h 3 1 ≠ 0 || fieldAt h 4 4 = 0 || 16777216 < fieldAt h 4 4 || 2 ^ 52 ≤ fieldAt h 8 8

/-- One prefetch lookup of a row into slice `k`; it waits while the exchange unit accepts no entry (R134, R136, R137). -/
def prefetchRow (k part t r epoch : Nat) : CM Unit := do
  let s ← get
  let (owner, hinted) := s.lookupTarget k t r epoch
  let sl := s.slice k
  let joins := sl.joinable t r epoch
  let remote := (sl.hit t r epoch).isNone && !joins && owner ≠ s.pool.partId
  if remote && !sl.prefRemote then return ()
  else if 512 ≤ sl.prefetching then throw .wait
  else if remote && !(s.exch k).accepts owner part epoch true hinted then throw .wait
  else
    match s.bobLookup k t r epoch false with
    | (s, some _) => set s
    | (s, none) =>
      let s := s.updSlice k (fun sl => (sl.miss t r epoch true { kind := 2, core := 128 + k, gid := part }).1)
      let s := s.updExch k (fun x => if hinted || joins then x else x.touchOwner t (bucketOf r))
      set (if remote then s.updExch k (fun x => x.take s.refCount owner part epoch true hinted
          { table := t, row := r, gen := (s.table t).gen, core := 128 + k, gid := part, entry := 0, cmd := 0, prefetch := true })
        else s)

/-- Forget what the prefetcher has read from other parts for some commands. -/
def State.forgetPref (s : State) (p : Nat → Bool) : State :=
  { s with cores := s.cores.filter (fun e => !(2 ^ 64 ≤ e.1 && p ((e.1 - 2 ^ 64) / 16))) }

/-- Go on to the next hint entry of a command. -/
def State.nextHint (s : State) (cmd : Nat) : State :=
  (s.forgetPref (fun c => c = cmd)).updPref cmd (fun p => { p with hint := p.hint + 1, pos := 0 })

/-- Drop the present hint entry, counted in its target cluster (R138). -/
def dropHint (cmd k : Nat) : CM Unit :=
  modify (fun s => (s.nextHint cmd).updSlice k
    (fun sl => { sl with counters := bump sl.counters 0x90 1 }))

/-- Read prefetcher data at prefetch priority through a cluster's units; a stop or poison fails without an effect on the step (R137, R138;
log entry 19). -/
def prefRead (m : Cmd) (k va n : Nat) : CM (List Byte) := do
  let (bs, poison, _) ← readStream (Who.prefetcher m.key m.ctx k) va n
  if poison then throw (.fail stPoisonConsumed) else return bs

/-- One index of a step's hint list (R134 to R138). DESIGN CHOICE (log entry 44): an entry whose header cannot be read counts as dropped in
the step's first cluster; PREF_MAX bounds the lookups issued, and the rows that PREF_REMOTE = 0 passes over, but not the indices beyond
ROW_COUNT. -/
def prefetchOne (p : PrefStep) (m : Cmd) : CM Unit := do
  let s ← get
  let cs := (s.ctx m.ctx).clusters
  let k0 := cs.headD 0
  let h ← tryCatch (prefRead m k0 (m.u 48 8 + 16 * p.hint) 16)
    (fun e => match e with | .wait => throw .wait | .fail _ => return [])
  let k := if h.isEmpty then k0 else cs.getD (fieldAt h 2 1 % 16 % cs.length) k0
  let s ← get
  let t := fieldAt h 0 2
  let next := modify (fun s => s.nextHint p.cmd)
  if h.isEmpty || hintBad h || (s.table t).state ≠ 2 then dropHint p.cmd k
  else if !(s.slice k).prefEn || (s.slice k).prefMax * 4096 ≤ kget 0 p.issued k then next
  else if fieldAt h 4 4 ≤ p.pos then next
  else
    let n := if bitAt (fieldAt h 2 1) 7 then 8 else 4
    let r? ← tryCatch (do return some (leNat (← prefRead m k (fieldAt h 8 8 + n * p.pos) n)))
      (fun e => match e with | .wait => throw .wait | .fail _ => return none)
    match r? with
    | none => dropHint p.cmd k
    | some r =>
      if (s.table t).rowCount ≤ r then modify (fun s => s.updPref p.cmd (fun p => { p with pos := p.pos + 1 }))
      else
        prefetchRow k m.part t r s.epochs.epoch
        modify (fun s => s.updPref p.cmd (fun p => { p with pos := p.pos + 1, issued := kput p.issued k (kget 0 p.issued k + 1) }))

/-- Issue for the first step that can go on. -/
def prefetchFrom (s : State) : List PrefStep → State
  | [] => s
  | p :: ps =>
    match s.cmd? p.cmd with
    | none => prefetchFrom s ps
    | some m =>
      match (prefetchOne p m).run s with
      | (.ok _, s) => s
      | (_, s) => prefetchFrom s ps

/-- PREFETCH_ISSUE: the prefetcher issues the next index of one of its 16 oldest steps, in wake order (R134, R139). It reads nothing while
the front end is out of service (R145). In `ways`, by cluster × 65,536 + way, lookups find an uncorrectable error (R120). -/
def execPrefetchIssue (s : State) (ways : List (Fin 1048576) := []) : Host.Outcome State Fault Refusal :=
  let s := ways.foldl (fun s w => s.dropWays (w.val / 65536) [w.val % 65536]) s
  let live := fun (p : PrefStep) =>
    match s.cmd? p.cmd with
    | none => false
    | some m => m.phase = .waiting && (s.ctx m.ctx).place ≠ 0 && p.hint < m.u 56 1
  let s := s.forgetPref (fun c => !s.prefetch.any (fun p => p.cmd = c && live p))
  let s := { s with prefetch := s.prefetch.filter live }
  if !s.link.up then .next s
  else .next (prefetchFrom s (s.prefetch.take 16))

end Sys2Proof.Machine
end

