-- ==== Sys2Proof/Machine/Issue.lean ====
section
/-! DEFINITION. ISSUE and ISSUEX: judging a descriptor and putting it into its queue (R99, R174, R328, R329, R331 to R338). -/

namespace Sys2Proof.Machine

open Sys2Proof

/-- Width in bytes of a bag output element. -/
def GatherRun.outWidth (g : GatherRun) : Nat := if g.outFmt = 1 then 2 else 4

/-- The first stage of R99: checks that need no table. -/
def gatherBad (g : GatherRun) (size : Nat) : Bool :=
  let k := g.u 6 2
  let log := g.u 43 1
  let weighted := g.mode = 3 || g.mode = 4
  6 ≤ g.mode || g.wfmt = 3 || g.outFmt = 3 || g.u 5 1 ≠ 0 || 2 ^ 52 ≤ g.u 16 8 || (k = 0 && 2 ^ 52 ≤ g.u 24 8) ||
    (g.wfmt ≠ 0 && 2 ^ 52 ≤ g.u 32 8) || 2 ^ 21 ≤ g.u 40 3 || g.u 40 3 % 256 ≠ 0 || log < 4 || 12 < log ||
    2 ^ 21 ≤ g.u 44 3 || g.u 44 3 % 16 ≠ 0 || g.u 47 1 ≠ 0 || g.u 48 2 % 16 ≠ 0 || 64 ≤ g.u 50 1 || (g.desc.drop 51).any (· ≠ 0) ||
    g.count = 0 || 16777216 < g.count || g.bags = 0 || 1048576 < g.bags || (k ≠ 0 && g.count ≠ k * g.bags) ||
    (weighted && g.wfmt = 0) || (!weighted && g.wfmt ≠ 0) || (g.mode = 5 && k ≠ 1) ||
    size < g.u 44 3 + g.bags * g.u 48 2

/-- The third stage of R99: checks that need the table's row length or kind. -/
def gatherTableBad (g : GatherRun) (t : Table) (size : Nat) : Bool :=
  let ringArea := (g.ring, g.ring + (4 * t.len + 8) * g.ringSize)
  g.u 48 2 < t.len * g.outWidth || size < ringArea.2 || meet ringArea (g.u 44 3, g.u 44 3 + g.bags * g.u 48 2) ||
    (g.outFmt = 2 && !t.isInt) || (t.isInt && !(g.mode = 0 || g.mode = 2 || g.mode = 5))

/-- Fields of a COPY descriptor (R338). -/
structure CopyDesc where
  dir : Nat
  tally : Nat
  tallyEn : Bool
  blockLog : Nat
  len : Nat
  scr : Nat
  scr2 : Nat
  addr : Nat
  blockId : Nat
deriving DecidableEq, Repr

/-- Parse a COPY descriptor. -/
def parseCopy (b : List Byte) : CopyDesc :=
  { dir := fieldAt b 2 1, tally := fieldAt b 3 1, tallyEn := bitAt (fieldAt b 4 1) 7, blockLog := fieldAt b 4 1 % 32,
    len := fieldAt b 8 4, scr := fieldAt b 12 3, scr2 := fieldAt b 15 3, addr := fieldAt b 24 8, blockId := fieldAt b 32 8 }

/-- A COPY refused with BAD_PATTERN (R338). -/
def copyBad (b : List Byte) (size : Nat) : Bool :=
  let d := parseCopy b
  let both := d.dir = 2
  3 ≤ d.dir || bitsOf (fieldAt b 4 1) 6 5 ≠ 0 || fieldAt b 5 3 ≠ 0 || fieldAt b 18 6 ≠ 0 || (b.drop 40).any (· ≠ 0) ||
    d.len = 0 || 2097152 < d.len || d.len % 64 ≠ 0 || 2 ^ 21 ≤ d.scr || d.scr % 64 ≠ 0 || size < d.scr + d.len ||
    (both && (2 ^ 21 ≤ d.scr2 || d.scr2 % 64 ≠ 0 || size < d.scr2 + d.len)) ||
    (!both && (2 ^ 52 ≤ d.addr || d.addr % 64 ≠ 0 || d.blockLog < 6 || 16 < d.blockLog))

/-- Fields of a PROCESSION descriptor (R337). -/
structure ProcDesc where
  mask : Nat
  current : Bool
  bufA : Nat
  bufB : Nat
  size : Nat
  tally : Nat
deriving DecidableEq, Repr

/-- Parse a PROCESSION descriptor. -/
def parseProc (b : List Byte) : ProcDesc :=
  { mask := fieldAt b 2 1, current := bitAt (fieldAt b 3 1) 0, bufA := fieldAt b 4 3, bufB := fieldAt b 7 3, size := fieldAt b 10 2 * 256,
    tally := fieldAt b 12 1 }

/-- A PROCESSION refused with BAD_PATTERN (R174, R337). -/
def State.procBad (s : State) (c : Nat) (b : List Byte) (size : Nat) : Bool :=
  let d := parseProc b
  fieldAt b 3 1 / 2 ≠ 0 || 2 ^ 21 ≤ d.bufA || 2 ^ 21 ≤ d.bufB || d.bufA % 256 ≠ 0 || d.bufB % 256 ≠ 0 ||
    d.size = 0 || 524288 < d.size || size < d.bufA + d.size || size < d.bufB + d.size || (b.drop 13).any (· ≠ 0) ||
    popCount 8 d.mask < 2 || !d.mask.testBit (c % 8) ||
    (bitList 8 d.mask).any (fun i => (s.core (8 * clusterOf c + i)).cmd ≠ (s.core c).cmd)

/-- How a descriptor is judged (R333): none where it passes. -/
def State.judge (s : State) (c : Nat) (b : List Byte) (recs : Option (List (List Byte))) : Option Nat :=
  let x := (s.core c).ctx
  let size := s.winSize x
  let type := fieldAt b 0 1
  let bad := fun (p : Bool) => if p then some stBadPattern else none
  if type = 6 || 7 ≤ type then some stBadPattern
  else if fieldAt b 1 1 ≠ 1 then some stVersionRefused
  else
    match type with
    | 1 =>
      let g : GatherRun := { gid := 0, desc := b }
      if gatherBad g size then some stBadPattern
      else if (s.table g.table).state ≠ 2 then some stTableUnavailable
      else bad (gatherTableBad g (s.table g.table) size)
    | 2 => bad (s.mxBad c x b)
    | 3 =>
      match recs with
      | none => some stBadPattern
      | some rs => bad (s.vecBad c x b rs)
    | 4 => bad (s.procBad c b size)
    | 5 => bad (copyBad b size)
    | _ => none

/-- The target queues of a descriptor type are not full (R328, R329). -/
def Core.room (k : Core) (type : Nat) : Bool :=
  match type with
  | 1 => k.qGather.length < 8 && k.qVector.length < 8
  | 2 => k.qMatrix.length < 8
  | 3 => k.qVector.length < 8
  | 4 => k.qMove.length < 8
  | 5 => k.qMove.length < 8
  | _ => true

/-- Read epoch of the lookups of the command on a core (R22, R190). -/
def State.readEpoch (s : State) (c : Nat) : Nat :=
  match (s.core c).cmd.bind s.cmd? with
  | some m => if m.kind = kindStep then m.epoch else s.epochs.epoch
  | none => s.epochs.epoch

/-- Put an accepted descriptor into its queue (R328, R329); a gather starts, with its ring program. -/
def State.enqueueDesc (s : State) (c slot : Nat) (b : List Byte) (recs : List (List Byte)) : State :=
  let q : QDesc := { bytes := b, streams := (List.range recs.length).zip recs, slot := slot }
  let e := s.readEpoch c
  let s := if fieldAt b 0 1 = 1 then s.updCmd ((s.core c).cmd.getD 0) (fun m =>
      { m with tables := if m.tables.contains (fieldAt b 2 2) then m.tables else m.tables ++ [fieldAt b 2 2] }) else s
  s.updCore c (fun k =>
    match fieldAt b 0 1 with
    | 1 =>
      let q := { q with gid := k.nextGid }
      { k with qGather := k.qGather ++ [q], qVector := k.qVector ++ [{ q with ring := true }], nextGid := k.nextGid + 1,
               gathers := k.gathers ++ [{ gid := k.nextGid, desc := b, epoch := e }] }
    | 2 => { k with qMatrix := k.qMatrix ++ [q] }
    | 3 => { k with qVector := k.qVector ++ [q] }
    | 4 => { k with qMove := k.qMove ++ [q] }
    | 5 => { k with qMove := k.qMove ++ [q] }
    | _ => k)

/-- Issue a descriptor with its records: refused, stalled on a full queue, or queued (R329, R333, R342). -/
def State.issue (s : State) (c slot : Nat) (b : List Byte) (recs : Option (List (List Byte))) : State :=
  match s.judge c b recs with
  | some st => s.seqFail c st (fieldAt b 0 1) slot
  | none =>
    if (s.core c).room (fieldAt b 0 1) then (s.enqueueDesc c slot b (recs.getD [])).updSeq c Sequencer.adv
    else s.updSeq c (fun q => q.stall 5 (match fieldAt b 0 1 with | 1 => 9 | 2 => 4 | 3 => 8 | _ => 2))

/-- Stream records a descriptor takes after itself (R332, R335). -/
def recordCount (b : List Byte) : Nat := if fieldAt b 0 1 = 3 then popCount 8 (fieldAt b 9 1) else 0

/-- The descriptor that an ISSUE word names, with its records; none where no FETCH has loaded the buffer (R331, R333). -/
def Core.issued? (k : Core) (w : Nat) : Option (List Byte × Option (List (List Byte))) :=
  let (buf, ok) := if insBuf w then (k.seq.buf1, k.seq.valid1) else (k.seq.buf0, k.seq.valid0)
  let slot := insImm w % 32
  let at' := fun (i : Nat) => (buf.drop (64 * i)).take 64
  if !ok then none
  else
    let n := recordCount (at' slot)
    some (at' slot, if 31 < slot + n then none else some ((List.range n).map (fun i => at' (slot + 1 + i))))

/-- ISSUE (R325, R331, R333): its own row, or NULL_DESCRIPTOR's where only a NULL is acted on. It waits for a FETCH of its buffer that
is in flight. -/
def State.issueRow (s : State) (c : Nat) (nullOnly : Bool) : State :=
  s.seqRow c 0x21 (fun w =>
    match (endFetch c (b2n (insBuf w))).run s with
    | (.error .wait, s) => s.updSeq c (fun q => q.stall 6 0)
    | (.error (.fail st), s) => s.seqFail c st 0 0
    | (.ok _, s) =>
      match (s.core c).issued? w with
      | none => if nullOnly then s else s.seqFail c stBadPattern 0 0
      | some (b, recs) => if nullOnly && fieldAt b 0 1 ≠ 0 then s else s.issue c (insImm w % 32) b recs)

/-- ISSUEX (R325, R333): the descriptor and its records lie in scratch. -/
def State.issuexRow (s : State) (c : Nat) (nullOnly : Bool) : State :=
  s.seqRow c 0x22 (fun w =>
    let k := s.core c
    let a := k.seq.g (insA w)
    let read : CM (List Byte × Option (List (List Byte))) := do
      let a ← scratchAddr c a 64 64
      let b ← readScratch c 1 a 64
      let n := recordCount b
      if s.winSize k.ctx < a + 64 * (n + 1) then return (b, none)
      else
        let rs ← (List.range n).mapM (fun i => readScratch c 1 (a + 64 * (i + 1)) 64)
        return (b, some rs)
    match read.run s with
    | (.ok (b, recs), s') => if nullOnly && fieldAt b 0 1 ≠ 0 then s else s'.issue c 0xFF b recs
    | (.error .wait, s') => s'
    | (.error (.fail st), s') => if nullOnly then s else s'.seqFail c st 0 0xFF)

/-- ISSUE (R325, R329, R331, R333). -/
def execSeqIssue (c : CoreId) (s : State) : Host.Outcome State Fault Refusal := .next (s.issueRow c false)

/-- ISSUEX (R325, R329, R333). -/
def execSeqIssuex (c : CoreId) (s : State) : Host.Outcome State Fault Refusal := .next (s.issuexRow c false)

/-- NULL: the issue of a NULL descriptor, which does nothing (R332). -/
def execNullDescriptor (c : CoreId) (s : State) : Host.Outcome State Fault Refusal :=
  match (s.core c).seq.ins? with
  | some w => .next (if insOp w = 0x21 then s.issueRow c true else s.issuexRow c true)
  | none => .next (s.issueRow c true)

end Sys2Proof.Machine
end

