-- ==== Sys2Proof/Machine/Pool.lean ====
section
/-! DEFINITION. Exchange units at work: batches and rounds (R156 to R160), serving at the owner (R164, R165), replies and timeouts
(R166 to R168), and reads, writes and arrivals between parts (R148, R177, R178, R303). -/

namespace Sys2Proof.Machine

open Sys2Proof

/-- Core number that marks a batch entry which this part forwards for a served batch (R155). -/
abbrev forwardCore : Nat := 255

/-- A batch entry that this part forwards as an owner. -/
def XchgEntry.isForward (e : XchgEntry) : Bool := e.core = forwardCore

/-- Core number that marks a lookup by which an owner asks a moved row's holder for a copy (R558). -/
abbrev askCore : Nat := 254

/-- Such a lookup. -/
def XchgEntry.isAsk (e : XchgEntry) : Bool := e.core = askCore

/-- Core number that marks the second read of a row of another part whose check failed (R466). -/
abbrev rereadCore : Nat := 253

/-- Such a lookup. -/
def XchgEntry.isReread (e : XchgEntry) : Bool := e.core = rereadCore

/-- A part's own lookup, made for no ring entry. -/
def XchgEntry.isOwn (e : XchgEntry) : Bool := e.isForward || e.isAsk || e.isReread

/-- What the second read of a row of another part gives (R466): the fault lay in transport, or the stored slot is corrupt. The record names no
address, and the slot's own part is the one to poison it (log entry 35). An answer without a slot tells nothing. -/
def State.takeReread (s : State) (e : XchgEntry) (r : Option ReplyEntry) : State :=
  let tab := s.table e.table
  let mine := fun (q : Reread) => q.isRow && q.far && q.asked && q.blockId = rowBlockId e.table tab.gen e.row
  match s.rereads.find? mine with
  | none => s
  | some q =>
    let s := { s with rereads := s.rereads.erase q }
    match r with
    | none => s
    | some a =>
      if a.slot.isEmpty then s
      else
        let good := !a.poison && !a.badMeta && tab.tagOk e.table e.row a.tier a.slot
        s.raise { event := if good then 0x0010 else 0x0011, severity := if good then 2 else 0, status := stSelvageMismatch,
                  cls := if good then 1 else 3, unit := 0x08, blockId := q.blockId, queue := q.queue, seq := q.seq }

/-- What the holder has answered to an owner that copies a moved row (R558); without a row it is asked again. -/
def State.takeAsked (s : State) (e : XchgEntry) (epoch : Nat) (r : Option ReplyEntry) : State :=
  let got := match r with | some a => if a.slot.isEmpty then none else some (epoch, a) | none => none
  { s with epochs := { s.epochs with migrations := s.epochs.migrations.map (fun m =>
      if m.isRow && m.table = e.table && m.row = e.row && m.asked && m.got.isNone then { m with asked := got.isSome, got := got } else m) } }

/-- Timeout of a command in µs (R350). -/
def State.timeoutOf (s : State) (c : Cmd) : Nat := if c.u 4 4 = 0 then (s.queue c.queue).timeout else c.u 4 4

/-- A command's timer has expired (R357, R360). -/
def State.elapsed (s : State) (c : Cmd) : Bool :=
  match c.headAt with
  | none => false
  | some t => s.since (t + (match c.roomSince with | some r => s.refCount - r | none => 0)) (s.timeoutOf c)

/-! ### Failing lookups -/

/-- The batch entry of a lookup that waits in a ring entry. -/
def State.entryFor (s : State) (t r : Nat) (w : MissWaiter) : XchgEntry :=
  { table := t, row := r, gen := (s.table t).gen, core := w.core, gid := w.gid, entry := w.entry, cmd := (s.core w.core).cmd.getD 0 }

/-- A lookup that joined a miss which gets no answer goes out for itself (R138, R163, R168). -/
def State.resendFor (s : State) (k : Nat) (b : Batch) (m : Miss) (w : MissWaiter) : State :=
  s.updExch k (fun x => x.offer s.refCount ⟨b.owner, (s.ctx (s.core w.core).ctx).part, b.epoch, b.redirected, s.entryFor m.table m.row w⟩)

/-- A miss gets no answer: a ring entry that still waits on it has its lookup sent again, else the miss is closed. -/
def State.dropMiss (s : State) (k : Nat) (b : Batch) (m : Miss) : State :=
  match m.waiters.find? s.ringWaits with
  | some w => s.resendFor k b m w
  | none => s.updSlice k (fun sl => { sl with misses := sl.misses.erase m })

/-- An entry of a batch gets no answer: a forwarded entry's batch is given up, and what waits with a lookup goes on without it. -/
def State.orphan (s : State) (k : Nat) (b : Batch) (e : XchgEntry) : State :=
  if e.isForward then s.updExch k (fun x => { x with serving := x.serving.filter (fun v => v.sid ≠ e.gid) })
  else if e.isAsk then s.takeAsked e b.epoch none
  else if e.isReread then s.takeReread e none
  else
    match (s.slice k).missOf e.table e.row b.epoch e.waiter with
    | none => s
    | some m => s.dropMiss k b m

/-- The step of a demand entry ends with a status of its own; a prefetch ends no step (R138, R168). -/
def State.failStep (s : State) (e : XchgEntry) (st : Cmd → Nat) : State :=
  if e.isOwn || e.prefetch || (s.core e.core).cmd ≠ some e.cmd then s
  else
    match s.cmd? e.cmd with
    | none => s
    | some c => s.failCmd e.cmd e.core (st c)

/-- A lookup that cannot be answered: its step ends (R166). -/
def State.failEntry (s : State) (k : Nat) (b : Batch) (e : XchgEntry) (st : Cmd → Nat) : State := (s.failStep e st).orphan k b e

/-- A batch fails: each step with an entry in it ends, and no other (R168). -/
def State.failBatch (s : State) (k : Nat) (b : Batch) (st : Cmd → Nat) : State :=
  let s := b.entries.foldl (fun s e => s.failStep e st) s
  (b.entries.filter (fun e => !e.answered)).foldl (fun s e => s.orphan k b e) s

/-! ### Closing and sending batches (R158 to R161) -/

/-- BATCH_CLOSE: a batch of a cluster's exchange unit has reached its age (R158). -/
def execBatchClose (k : ClusterId) (s : State) : Host.Outcome State Fault Refusal :=
  .next (s.updExch k (fun x => x.close (fun b => b.opened + 2 * b.age ≤ s.refCount)))

/-- Place of a batch in its round (R160). -/
def Batch.order (b : Batch) (own : Nat) : Nat := (b.owner + 1024 - own) % 1024 * 2 + b2n b.prefetch

/-- Insert a batch into a round. -/
def insertBatch (own : Nat) (b : Batch) : List Batch → List Batch
  | [] => [b]
  | c :: cs => if c.order own ≤ b.order own then c :: insertBatch own b cs else b :: c :: cs

/-- A prefetch batch yields while a demand batch of its partition, or a write of its cores, which `writes` names the partitions of, waits
to be sent (R137, R159). -/
def Exchange.yields (x : Exchange) (writes : List Nat) (b : Batch) : Bool :=
  b.prefetch && ((x.round ++ x.closed).any (fun d => !d.prefetch && d.part = b.part) || writes.contains b.part)

/-- The next round: every closed batch, in order (R160). DESIGN CHOICE: a round whose remaining batches are prefetch batches that yield is
over, and they take part in the next, since a demand batch that waits for the next round would else hold them back for ever (R159;
log entry 27). -/
def Exchange.startRound (x : Exchange) (writes : List Nat) (own : Nat) : Exchange :=
  if x.round.all (x.yields writes) then { x with round := (x.round ++ x.closed).foldl (fun r b => insertBatch own b r) [], closed := [] } else x

/-- The batch of the round to be sent next (R159, R160). -/
def Exchange.nextBatch (x : Exchange) (writes : List Nat) : Option Batch := x.round.find? (fun b => !x.yields writes b)

/-- Send a batch under an outstanding slot; none while no slot is free or its bucket lacks tokens (R159, R172). -/
def State.sendBatch (s : State) (k : Nat) (b : Batch) (forward : Bool) : Option State :=
  let x := s.exch k
  if !s.member b.owner then some (s.failBatch k b (fun _ => stPartLeftPool))
  else
    match x.freeSlot with
    | none => none
    | some i =>
      let h : MsgHdr := { prefetch := b.prefetch, redirected := b.redirected, forward := forward, srcPart := s.pool.partId,
                          srcCluster := k, tagSlot := i, tagSeq := kget 0 x.tagSeq i, epoch := b.epoch }
      let m := Msg.lookupReq h (b.entries.map (fun e => ⟨e.table, e.row, e.gen⟩))
      let bytes := 16 + m.bytes
      if !x.holds b.bucket bytes then none
      else
        match s.send? b.owner (b.part % 16) m with
        | none => some (s.failBatch k b (fun _ => stLinkFenced))
        | some s => some (s.updExch k (fun x =>
            let x := x.occupy i { kind := 0, batch := b, sent := s.refCount } b.bucket bytes
            { x with counters := bump (bump x.counters 0x140 1) 0x148 b.entries.length }))

/-- Cores whose remote accesses the exchange unit of a cluster carries; cluster 0's carries the CP's (log entry 19). -/
def unitCores (k : Nat) : List Nat := if k = 0 then coresOf k ++ [128, 129] else coresOf k

/-- The queued writes of a unit's cores go out while slots and tokens allow (R159). -/
def State.flushWrites (s : State) (k : Nat) : State :=
  (unitCores k).foldl (fun s c =>
    let q := s.core c
    match State.sendWrites { core := c, cmd := q.cmd.getD 0, ctx := q.ctx } q.wqueue.length s with
    | (s, none) => s
    | (s, some st) => if c < 128 then s.failCore c st else s.updCore c (fun q => { q with rfail := st, wqueue := [] })) s

/-- BATCH_SEND: what waits in the unit goes out: queued writes, lookups for which a batch can now be made, and the next batch of the
round (R157, R159, R160). -/
def execBatchSend (k : ClusterId) (s : State) : Host.Outcome State Fault Refusal :=
  let s := s.flushWrites k
  let s := s.updExch k (fun x => (x.startRound (s.writesWaiting k) s.pool.partId).offerAgain s.refCount)
  match (s.exch k).nextBatch (s.writesWaiting k) with
  | none => .next s
  | some b =>
    let fwd := b.entries.any (·.isOwn)
    match (s.updExch k (fun x => { x with round := x.round.erase b })).sendBatch k b fwd with
    | none => .next s
    | some s => .next (s.updExch k (fun x => x.offerAgain s.refCount))

/-! ### Serving at the owner (R155, R164, R165) -/

/-- A forwarded entry is outstanding at its holder. -/
def Exchange.forwarding (x : Exchange) (sid i : Nat) : Bool :=
  x.slots.any (fun e => e.2.batch.entries.any (fun b => b.isForward && b.gid = sid && b.entry = i))

/-- A served entry waits on an open miss of the slice (R119). -/
def Slice.holdsServe (sl : Slice) (sid i : Nat) : Bool := sl.misses.any (fun m => m.waiters.any (fun w => w.kind = 1 && w.gid = sid && w.entry = i))

/-- The batch by which an owner sends a lookup on to a row's holder (R155). DESIGN CHOICE: it draws on pool service READ, as the owner's
own replies do (R171; log entry 45). -/
def State.forwardBatch (s : State) (k : Nat) (v : Serving) (i : Nat) (e : ServeEntry) (holder : Nat) : Batch :=
  { owner := holder, part := 16, epoch := v.hdr.epoch, prefetch := v.hdr.prefetch, redirected := false,
    entries := [{ table := e.table, row := e.row, gen := e.gen, core := forwardCore, gid := v.sid, entry := i, cmd := 0,
                  prefetch := v.hdr.prefetch }],
    opened := s.refCount, timeout := (s.exch k).timeout }

/-- Serve one entry of a batch (R91, R155, R164, R207). A lookup that misses waits on an open miss of the same row and epoch (R119, R139);
else the row is read at once, as a miss that is opened and filled together. DESIGN CHOICE: one that another part has sent on does not wait
on a miss that was itself sent to another part, since that part's answer would wait for this one (log entry 39). A lookup that is to be
sent on to a holder waits for a slot and for tokens (R159, R172). -/
def State.serveOne (s : State) (k : Nat) (v : Serving) (i : Nat) (e : ServeEntry) : State :=
  let h := v.hdr
  let t := e.table
  let r := e.row
  let key := bucketKey 16 0
  if e.reply.isSome || (s.exch k).forwarding v.sid i || (s.slice k).holdsServe v.sid i || s.copyPending t r h.epoch then s
  else if h.epoch + 1 < s.epochs.epoch then s.setReply k v.sid i (bareReply 3 0)
  else if (s.table t).state ≠ 2 || (s.table t).gen ≠ e.gen || (s.table t).rowCount ≤ r then s.setReply k v.sid i (bareReply 4 0)
  else
    let res := (s.ownerRow key t r h.epoch).2
    let sends := match res with | .forward _ => true | .reply _ => false
    let here := match res with | .forward _ => false | .reply a => a.estatus ≠ 2
    let stuck := sends && ((s.exch k).freeSlot.isNone || !(s.exch k).holds key 32)
    if stuck && ((s.slice k).hit t r h.epoch).isNone then s
    else
      let s := s.updExch k (fun x => { x with counters := bump x.counters 0x150 1 })
      let s := if h.prefetch || !s.ownsRow t r then s else s.skewLookup t r
      match s.bobLookup k t r h.epoch (!h.prefetch) with
      | (s, some a) => s.setReply k v.sid i a
      | (s, none) =>
        if here && (s.slice k).joinable t r h.epoch && (!h.forward || (s.lookupTarget k t r h.epoch).1 = s.pool.partId) then
          s.updSlice k (fun sl => (sl.miss t r h.epoch h.prefetch ⟨1, k, v.sid, i⟩).1)
        else
          match s.ownerRow key t r h.epoch with
          | (s, .reply a) => (s.bobFill k t r h.epoch a h.prefetch false).setReply k v.sid i a
          | (s, .forward holder) =>
            ((s.sendBatch k (s.forwardBatch k v i e holder) true).getD s).updExch k (fun x =>
              { x with counters := bump x.counters 0x160 1 })

/-- Serve every unanswered entry of a batch in entry order (R164). -/
def State.serveAll (s : State) (k : Nat) (v : Serving) : State :=
  ((List.range v.entries.length).zip v.entries).foldl (fun s (i, e) => s.serveOne k v i e) s

/-- The batches that a unit held for an epoch which has come are held no more, and are served with the next reply segment (R164). -/
def State.releaseHeld (s : State) (k : Nat) : State :=
  s.updExch k (fun x => { x with serving := x.serving.map (fun v =>
    if v.hdr.epoch ≤ s.epochs.epoch then { v with held := false } else v) })

/-- LOOKUP_REQ: a batch arrives at the unit of its SRC_CLUSTER's number (R164, R165); in `ways` of that cluster's slice the lookups
find an uncorrectable error (R120). -/
def execLookupReq (h : MsgHdr) (es : List LookupEntry) (ways : List (Fin 65536)) (s : State) : Host.Outcome State Fault Refusal :=
  let k := h.srcCluster % 16
  let s := (s.takeMsg (.lookupReq h es)).dropWays k (ways.map (·.val))
  let v : Serving := { sid := (s.exch k).nextSid, hdr := h, entries := es.map (fun e => { table := e.table, row := e.row, gen := e.gen }),
                       arrived := s.refCount, held := s.epochs.epoch < h.epoch }
  let s := s.updExch k (fun x => { x with serving := x.serving ++ [v], nextSid := x.nextSid + 1 })
  .next (if v.held || h.prefetch then s else s.serveAll k v)

/-- Bytes of a reply entry (R163). -/
def ReplyEntry.size (r : ReplyEntry) : Nat := 4 + 16 * r.slot16

/-- The next reply segment, at most 8 KiB, once all of its entries are complete (R161, R164). -/
def segmentOf : Nat → List ServeEntry → Option (List ReplyEntry)
  | _, [] => some []
  | used, e :: es =>
    match e.reply with
    | none => none
    | some r => if 8192 < used + r.size then some [] else (segmentOf (used + r.size) es).map (r :: ·)

/-- The segment a batch can send now. -/
def Serving.segment (v : Serving) : Option (List ReplyEntry) :=
  if v.held || v.entries.length ≤ v.sent then none else segmentOf 0 (v.entries.drop v.sent)

/-- REPLY_SEGMENT_SEND: what waits for pool-service tokens goes out, then the next complete segment under those tokens, demand before
prefetch (R164, R165, R171, R172). In `ways` of the cluster's slice the lookups find an uncorrectable error (R120). -/
def execReplySegmentSend (k : ClusterId) (s : State) (ways : List (Fin 65536) := []) : Host.Outcome State Fault Refusal :=
  let s := (State.pumpOutbox k (kget [] s.outbox k.val).length s).dropWays k (ways.map (·.val))
  let demand := fun (s : State) => (s.exch k).serving.filter (fun v => !v.held && !v.hdr.prefetch)
  let s := (demand s).foldl (fun s v => s.serveAll k v) s
  let busy := (demand s).any (fun v => v.entries.any (fun e => e.reply.isNone))
  let pref := fun (s : State) => (s.exch k).serving.filter (fun v => !v.held && v.hdr.prefetch)
  let s := if busy then s else (pref s).foldl (fun s v => s.serveAll k v) s
  match (demand s ++ pref s).findSome? (fun v => v.segment.map (fun es => (v, es))) with
  | none => .next s
  | some (v, es) =>
    let m := Msg.lookupReply { v.hdr with seg := v.sent % 256 } es
    let bytes := 16 + m.bytes
    if !(kget [] s.outbox k.val).isEmpty || !(s.exch k).holds (bucketKey 16 0) bytes then .next s
    else
      let s := s.updExch k (fun x => x.charge (bucketKey 16 0) bytes)
      let s := if v.entries.length ≤ v.sent + es.length then
          s.updExch k (fun x => { x with serving := x.serving.filter (fun w => w.sid ≠ v.sid) })
        else s.updServing k v.sid (fun v => { v with sent := v.sent + es.length })
      .next (s.sendMsg v.hdr.srcPart 0 m)

/-- PREFETCH_DROP_TIMEOUT: prefetch entries not served within 4 µs are answered with DROPPED (R165). -/
def execPrefetchDropTimeout (k : ClusterId) (s : State) : Host.Outcome State Fault Refusal :=
  .next (s.updExch k (fun x => { x with serving := x.serving.map (fun v =>
    if v.hdr.prefetch && s.since v.arrived 4 then
      { v with held := false, entries := v.entries.map (fun e => if e.reply.isNone then { e with reply := some (bareReply 6 0) } else e) }
    else v) }))

/-- HELD_BATCH_DISCARD: a hold outlasts the unit's own reply timeout; the batch goes without a reply, each with a RAS event (R164). -/
def execHeldBatchDiscard (k : ClusterId) (s : State) : Host.Outcome State Fault Refusal :=
  let old := fun (v : Serving) => v.held && s.since v.arrived (s.exch k).timeout
  .next (((s.exch k).serving.filter old).foldl (fun s _ => s.logEvent 8)
    (s.updExch k (fun x => { x with serving := x.serving.filter (fun v => !old v) })))

/-! ### Replies at the requester (R163, R166, R167) -/

/-- The outstanding slot that a message answers, if its use count matches (R161, R167). -/
def State.answered? (s : State) (h : MsgHdr) (kind : Nat) : Option OutSlot :=
  let x := s.exch (h.srcCluster % 16)
  match kfind x.slots h.tagSlot with
  | none => none
  | some o => if o.kind = kind && kget 0 x.tagSeq h.tagSlot = h.tagSeq && h.srcPart = s.pool.partId then some o else none

/-- Free an outstanding slot; its use count moves on (R161, R168). -/
def State.freeOut (s : State) (k i : Nat) : State :=
  s.updExch k (fun x => { x with slots := kdel x.slots i, tagSeq := kput x.tagSeq i ((kget 0 x.tagSeq i + 1) % 128) })

/-- A late reply of `bytes` bytes: counted, and charged on arrival to the bucket that the latest use of its slot drew on (R167, R171, R172;
log entry 45). -/
def State.late (s : State) (h : MsgHdr) (bytes : Nat) : State :=
  s.updExch (h.srcCluster % 16) (fun x =>
    let x := { x with counters := bump x.counters 0x168 1 }
    match kfind x.acct h.tagSlot with
    | none => x
    | some key => x.charge key bytes)

/-- Reissue a lookup that was answered with REDIRECT (R166). DESIGN CHOICE: one redirected to this part itself is read here as a transfer,
even where its engine holds 256 already (R101; log entry 45). -/
def State.reissue (s : State) (k : Nat) (b : Batch) (e : XchgEntry) (holder : Nat) : State :=
  let s := (s.updExch k (fun x => x.noteHint e.table e.row b.epoch holder)).redirected k e.cmd
  if 4 ≤ e.hops + 1 then s.failEntry k b e (fun _ => stRedirect)
  else if holder = s.pool.partId then
    if e.prefetch then s
    else s.updRun e.core e.gid (fun g => match g.entry? e.entry with
      | some r => g.setEntry e.entry { r with source := 1, hops := e.hops + 1 }
      | none => g)
  else s.sendOn k holder b.part b.epoch { e with hops := e.hops + 1, answered := false }

/-- A lookup entry whose step has ended, or has been handed to replay (R167). -/
def State.stale (s : State) (k : Nat) (e : XchgEntry) : Bool := !e.isOwn && !s.waits k e.waiter

/-- What one reply entry does (R163). Where the step that sent the lookup has ended, the answer is discarded (R167), but for the lookups of
other steps that joined its miss (R119). -/
def State.takeReply (s : State) (k : Nat) (b : Batch) (e : XchgEntry) (r : ReplyEntry) : State :=
  if e.isForward then s.setReply k e.gid e.entry { r with forwarded := true }
  else if e.isAsk then s.takeAsked e b.epoch (some r)
  else if e.isReread then
    if r.estatus = 2 && e.hops < 3 then s.sendOn k r.holder b.part b.epoch { e with hops := e.hops + 1, answered := false }
    else s.takeReread e (some r)
  else
    match (s.slice k).missOf e.table e.row b.epoch e.waiter with
    | none => s
    | some m =>
      match if s.waits k e.waiter then some e else (m.waiters.find? s.ringWaits).map (fun w => { s.entryFor e.table e.row w with hops := e.hops }) with
      | none => s.updSlice k (fun sl => { sl with misses := sl.misses.erase m })
      | some e =>
        if r.estatus = 2 then s.reissue k b e r.holder
        else if r.estatus = 6 then s.dropMiss k b m
        else if 6 < r.estatus then (s.logEvent 8).answer k m { r with estatus := 4 } true
        else s.answer k m r true

/-- LOOKUP_REPLY: a reply segment arrives (R163, R166, R167, R171). -/
def execLookupReply (h : MsgHdr) (es : List ReplyEntry) (s : State) : Host.Outcome State Fault Refusal :=
  let m := Msg.lookupReply h es
  let s := s.takeMsg m
  let k := h.srcCluster % 16
  match s.answered? h 0 with
  | none => .next (s.late h (16 + m.bytes))
  | some o =>
    let b := o.batch
    let es' := (List.range b.entries.length).zip b.entries
    let now := fun (i : Nat) (e : XchgEntry) => h.seg ≤ i && i < h.seg + es.length && !e.answered
    let stale := es'.any (fun (i, e) => now i e && s.stale k e)
    let s := s.updExch k (fun x =>
      let x := x.charge b.bucket (16 + m.bytes)
      if stale then { x with counters := bump x.counters 0x168 1 } else x)
    let b' := { b with entries := es'.map (fun (i, e) => if now i e then { e with answered := true } else e) }
    let s := s.updExch k (fun x => { x with slots := kput x.slots h.tagSlot { o with batch := b' } })
    let s := if b'.entries.all (·.answered) then s.freeOut k h.tagSlot else s
    .next (es'.foldl (fun s (i, e) => if now i e then
      (match es[i - h.seg]? with | some r => s.takeReply k b e r | none => s) else s) s)

/-- The entries of an unanswered DELTA are to be sent again (R196, R217). -/
def State.unsendDelta (s : State) (k tag : Nat) : State :=
  { s with epochs := { s.epochs with
      sent := s.epochs.sent.map (fun e => if e.unit = k && e.tag = some tag then { e with tag := none } else e) } }

/-- REPLY_TIMEOUT: no full reply within the reply timeout; the slot is freed and the steps end (R168). An arrival waits until it is
counted, or for its command's own timeout (R423). -/
def execReplyTimeout (k : ClusterId) (slot : Fin 512) (s : State) : Host.Outcome State Fault Refusal :=
  match kfind (s.exch k).slots slot with
  | none => .next s
  | some o =>
    if !s.since o.sent o.batch.timeout || (o.kind = 3 && (s.core o.core).cmd = some o.cmd) then .next s
    else
      let tag := slot.val * 128 + kget 0 (s.exch k).tagSeq slot
      let s := s.freeOut k slot
      let st := fun (c : Cmd) => if s.elapsed c then stTimeout else stOwnerUnreachable
      if o.kind = 0 then .next (s.failBatch k o.batch st)
      else if o.kind = 4 then .next (s.unsendDelta k tag)
      else if o.core < 128 then
        match s.cmd? o.cmd with
        | some c => .next (s.failCmd o.cmd o.core (st c))
        | none => .next s
      else .next (s.failOther o stOwnerUnreachable)

/-! ### Reads, writes and arrivals between parts (R148, R161, R177, R178, R303) -/

/-- The access list lets an access from a part and partition in (R303): kind bit 2 READ, 3 WRITE, 4 ARRIVE. -/
def State.aclPass (s : State) (src kind p addr : Nat) : Bool :=
  let g := addr % devSize / 2 ^ 30
  let e := kget 0 s.pool.acl g
  let mode := e % 4
  addr / devSize = s.pool.partId && e.testBit kind && e.testBit (48 + p) &&
    ((mode = 1 && (kget 0 s.pool.aclMap g).testBit src) || (mode = 2 && s.member src))

/-- A part's own accesses are not checked (R303). -/
def State.accessOk (s : State) (src kind p addr : Nat) : Bool := src = s.pool.partId || s.aclPass src kind p addr

/-- READ_REQ: the lines go back under pool-service tokens; a refused access is answered with PROTECTION (R148, R171, R303). The access
list knows the requester's partition `p`; the reply is pool service's (R296). -/
def execReadReq (h : MsgHdr) (p : PartId) (addr len : Nat) (s : State) : Host.Outcome State Fault Refusal :=
  let k := h.srcCluster % 16
  let a := addr % devSize / 64 * 64
  let n := cdiv (min len 4096) 64
  let s := s.takeMsg (.readReq h addr len)
  if s.accessOk h.srcPart 2 p addr then
    let s := (s.dramCharge (bucketKey 16 0) a (64 * n)).touch a (64 * n)
    .next (s.serviceSend k h.srcPart (.readReply h 0 ((List.range n).map (fun i => s.devLine (a + 64 * i)))))
  else .next (s.serviceSend k h.srcPart (.readReply h stProtection []))

/-- READ_REPLY: the lines reach the core that asked, or its access fails (R148). -/
def execReadReply (h : MsgHdr) (status : Nat) (ws : List WireWord) (s : State) : Host.Outcome State Fault Refusal :=
  let m := Msg.readReply h status ws
  let s := s.takeMsg m
  let k := h.srcCluster % 16
  if !listedStatus status then .next s
  else match s.answered? h 1 with
  | none => .next (s.late h (16 + m.bytes))
  | some o =>
    let s := (s.updExch k (fun x => x.charge o.batch.bucket (16 + m.bytes))).freeOut k h.tagSlot
    if status ≠ 0 then
      .next (if o.core < 128 then s.failCmd o.cmd o.core status else s.failOther o status)
    else
      let first := o.addr / 64
      if (kfind s.cores o.core).isNone then .next s
      else .next (s.updCore o.core (fun q =>
        let mine := fun (l : Nat) => first ≤ l % 2 ^ 60 && l % 2 ^ 60 < first + ws.length
        let got := q.rpend.filter mine
        { q with rpend := q.rpend.filter (fun l => !mine l),
                 rbuf := got.foldl (fun m l => match ws[l % 2 ^ 60 - first]? with | some w => kput m l w | none => m) q.rbuf }))

/-- A WRITE of `n` lines is acknowledged: at once, or when the last of its lines that wait for the host, those from `first` of the waiting
list on, has become visible (R178, R530). -/
def State.ackWrite (s : State) (h : MsgHdr) (first n : Nat) : State :=
  let waits := s.link.pendingInv.drop first
  if waits.isEmpty then s.serviceSend (h.srcCluster % 16) h.srcPart (.writeAck h 0)
  else { s with link := { s.link with
      pendingInv := s.link.pendingInv.take first ++ waits.map (fun b => { b with hdr := some h, whole := waits.length = n }) } }

/-- WRITE: the lines are stored and acknowledged, or refused with PROTECTION and nothing changes (R148, R303). Data that fails its check,
as `bad` says, is stored with POISON in every codeword, and recorded (R464). The acknowledgement is pool service's (R171, R296). -/
def execWrite (h : MsgHdr) (p : PartId) (addr : Nat) (ws : List WireWord) (bad : Bool) (s : State) : Host.Outcome State Fault Refusal :=
  let s := s.takeMsg (.write h addr ws)
  let k := h.srcCluster % 16
  let ok := s.accessOk h.srcPart 3 p addr
  let ws := if bad then ws.map (fun w => { w with poison := true }) else ws
  let s := if ok && bad then s.badBlock { event := 0, unit := 0x08, cluster := k, addr := addr } else s
  let a := addr % devSize / 64 * 64
  if ok then .next (((s.dramCharge (bucketKey 16 1) a (64 * ws.length)).storeLines 0 none a ws).ackWrite h s.link.pendingInv.length ws.length)
  else .next (s.serviceSend k h.srcPart (.writeAck h stProtection))

/-- WRITE_ACK: a remote write has become visible, or has failed its command (R148, R178). -/
def execWriteAck (h : MsgHdr) (status : Nat) (s : State) : Host.Outcome State Fault Refusal :=
  let s := s.takeMsg (.writeAck h status)
  let k := h.srcCluster % 16
  if !listedStatus status then .next s
  else match s.answered? h 2 with
  | none => .next (s.late h 16)
  | some o =>
    let s := (s.updExch k (fun x => x.charge o.batch.bucket 16)).freeOut k h.tagSlot
    if (s.core o.core).cmd ≠ some o.cmd && o.core < 128 then .next s
    else if status ≠ 0 then .next (if o.core < 128 then s.failCmd o.cmd o.core status else s.failOther o status)
    else .next (s.updCore o.core (fun q => { q with wpend := q.wpend - 1 }))

/-- ARRIVE: a remote arrival goes to the barrier unit, or is refused with PROTECTION (R178, R303, R423). -/
def execArrive (h : MsgHdr) (p : PartId) (addr pid : Nat) (s : State) : Host.Outcome State Fault Refusal :=
  let s := s.takeMsg (.arrive h addr pid)
  if s.accessOk h.srcPart 4 p addr then
    .next { s with arrivals := s.arrivals ++ [{ addr := addr % devSize, pid := pid, part := p, isLocal := false, hdr := some h }] }
  else .next (s.serviceSend (h.srcCluster % 16) h.srcPart (.arriveAck h stProtection))

/-- An arrival of a core has been counted: its BARRIVE ends, or its split operation goes on (R252, R423). -/
def State.arrived (s : State) (c unit : Nat) : State :=
  if unit = 1 then s.updCore c (fun k => k.mxMove 3 4)
  else s.updSeq c (fun q => if q.arrHeld then { q.adv with arrHeld := false } else q)

/-- ARRIVE_ACK: a remote arrival has been counted, or has failed its command (R178, R423, R425). -/
def execArriveAck (h : MsgHdr) (status : Nat) (s : State) : Host.Outcome State Fault Refusal :=
  let s := s.takeMsg (.arriveAck h status)
  let k := h.srcCluster % 16
  if !listedStatus status then .next s
  else match s.answered? h 3 with
  | none => .next (s.late h 16)
  | some o =>
    let s := (s.updExch k (fun x => x.charge o.batch.bucket 16)).freeOut k h.tagSlot
    if (s.core o.core).cmd ≠ some o.cmd then .next s
    else if status ≠ 0 then .next (s.failCmd o.cmd o.core status)
    else .next (s.arrived o.core o.len)

end Sys2Proof.Machine
end

