-- ==== Sys2Proof/Machine/Move.lean ====
section
/-! DEFINITION. The transfer path of the gather engine: COPY (R338, R463, R469) and procession (R174 to R176, R337). -/

namespace Sys2Proof.Machine

open Sys2Proof

/-- The access of a core's transfer path. -/
def State.moveWho (s : State) (c : Nat) : Who := { core := c, unit := 1, cmd := (s.core c).cmd.getD 0, ctx := (s.core c).ctx, lane := 4 }

/-- The descriptor at the head of the move queue has ended (R329). -/
def Core.moveEnd (k : Core) : Core := { k.endAccess 4 with qMove := k.qMove.drop 1, moveSent := false, procBegun := false }

/-- Tensor blocks that a range meets: address and block id of each (R338). -/
def CopyDesc.blocks (d : CopyDesc) : List (Nat × Nat) :=
  let size := 2 ^ d.blockLog
  let first := d.addr / size
  (List.range ((d.addr + d.len - 1) / size - first + 1)).map (fun i => ((first + i) * size, (d.blockId + i) % 2 ^ 64))

/-- Device to scratch (R338): every block is read in full and checked; the bytes of the range are delivered. -/
def copyIn (c : Nat) (d : CopyDesc) : CM Unit := do
  let w := (← get).moveWho c
  let parts ← d.blocks.mapM (fun (va, id) => readBlock w va (2 ^ d.blockLog) id false)
  let ws := parts.flatMap (·.1)
  let first := (d.blocks.headD (0, 0)).1
  modify (fun s => s.updCore c (fun k => { k with sawTies := k.sawTies || ws.any (·.ties) }))
  modify (fun s => s.writeScr c w.ctx d.scr (((ws.flatMap (·.data)).drop (d.addr - first)).take d.len) (s.tieFlag c (s.coreTies c)))

/-- Scratch to device (R338, R463): a block met in part keeps its rest, which is read and checked. -/
def copyOut (c : Nat) (d : CopyDesc) : CM Unit := do
  let w := (← get).moveWho c
  let size := 2 ^ d.blockLog
  let bs ← readScratch c 2 d.scr d.len
  let new : KMap Byte := (List.range d.len).zip bs |>.map (fun (i, b) => (d.addr + i, b))
  let cov : KMap Byte := new.map (fun e => (e.1, 255))
  let imgs ← d.blocks.mapM (fun (va, id) => fetchImg w size id va cov)
  let s ← get
  let ties := s.coreTies c || s.sawTies c
  let idOf := fun (va : Nat) => ((d.blocks.find? (fun e => e.1 = va)).map (·.2)).getD 0
  writeImgs w (imgs.map (fun b => b.patch new)) idOf ties

/-- The work of a COPY. -/
def copyWork (c : Nat) (d : CopyDesc) : CM Unit := do
  if !((← get).core c).moveSent then
    if d.dir = 0 then copyIn c d
    else if d.dir = 1 then copyOut c d
    else
      let x := ((← get).core c).ctx
      let bs ← readScratch c 2 d.scr d.len
      modify (fun s => s.writeScr c x d.scr2 bs (s.tieFlag c (s.coreTies c)))
    modify (fun s => s.updCore c (fun k => { k with moveSent := true }))
  let k := (← get).core c
  if k.wpend ≠ 0 then throw .wait
  else
    modify (fun s => s.updCore c Core.moveEnd)
    if d.tallyEn then modify (fun s => s.tallyAdd c k.ctx d.tally 1 2 k.cmd)

/-- COPY: the copy at the head of the move queue (R338); `words` are read with wrong symbols (R467). -/
def execCopy (c : CoreId) (s : State) (words : List SramErr := []) : Host.Outcome State Fault Refusal :=
  match (s.core c).qMove with
  | q :: _ =>
    if !(s.engines c && fieldAt q.bytes 0 1 = 5) then .next s
    else if lostWord words then .next ((s.sramWords c 2 words).loseWord c 2)
    else .next (runOn (s.sramWords c 2 words) c (copyWork c (parseCopy q.bytes)))
  | [] => .next s

/-- The next core of a group in ascending local index; the highest passes to the lowest (R174). -/
def successor (mask c : Nat) : Nat :=
  let base := c / 8 * 8
  let l := bitList 8 mask
  base + ((l.find? (fun i => c % 8 < i)).getD (l.headD 0))

/-- The procession at the head of a core's move queue. -/
def Core.procHead? (k : Core) : Option ProcDesc :=
  match k.qMove with
  | q :: _ => if fieldAt q.bytes 0 1 = 4 then some (parseProc q.bytes) else none
  | [] => none

/-- PROCESSION: a core comes to a rotation, which frees its other buffer, and sends its current buffer once its successor's is
free; the successor's own descriptor of that rotation names the tally that counts the arrival (R175, R337). -/
def execProcession (c : CoreId) (s : State) : Host.Outcome State Fault Refusal :=
  match (s.core c).procHead? with
  | none => .next s
  | some d =>
    if !s.engines c then .next s
    else
      let s := if (s.core c).procBegun then s else s.updCore c (fun k => { k with procBegun := true, procRoom := k.procRoom ++ [d.tally] })
      let dst := successor d.mask c
      if (s.core c).moveSent || (s.core dst).procRoom.isEmpty then .next s
      else
        let k := s.core c
        let src := if d.current then d.bufB else d.bufA
        let words := (List.range (d.size / 64)).map (fun i => s.scrFlags c k.ctx (src + 64 * i))
        let s := s.updCore c (fun k => { k with moveSent := true, sawTies := k.sawTies || words.any (fun f => bitAt f 1) })
        let tie := s.tieFlag c (s.coreTies c)
        let f : RingFlow := { src := c, dst := dst, off := if d.current then d.bufA else d.bufB, tally := (s.core dst).procRoom.headD 0,
                              data := s.scr c k.ctx src d.size, cmd := k.cmd.getD 0,
                              flags := words.map (fun w => w % 2 ||| tie) }
        .next (({ s with flows := s.flows ++ [f] } : State).updCore dst (fun k => { k with procRoom := k.procRoom.drop 1 }))

/-- Write words with flags of their own into a window. -/
def State.writeWords64 (s : State) (c x : Nat) : Nat → List Byte → List Nat → State
  | _, _, [] => s
  | a, bs, f :: fs => (s.writeScr c x a (bs.take 64) f).writeWords64 c x (a + 64) (bs.drop 64) fs

/-- PROCESSION_ARRIVAL: a buffer has arrived in full at a core: checked, counted by its tally, and its sender's descriptor ends;
`bad` says that a block of it fails its check (R175, R176, R329). -/
def execProcessionArrival (c : CoreId) (bad : Bool) (s : State) : Host.Outcome State Fault Refusal :=
  match s.flows.find? (fun f => f.dst = c.val) with
  | none => .next s
  | some f =>
    let s := { s with flows := s.flows.erase f }
    if bad then .next ((s.rasCount 0x220 1).failCmd f.cmd c stSelvageMismatch)
    else
      let x := (s.core c).ctx
      let s := s.writeWords64 c x f.off f.data f.flags
      let s := s.tallyAdd c x f.tally 1 5 (some f.cmd)
      .next (s.updCore f.src (fun k => if k.moveSent && k.procHead?.isSome then k.moveEnd else k))

end Sys2Proof.Machine
end

