-- ==== Sys2Proof/Machine/Queues.lean ====
section
/-! DEFINITION. Queues, completion records, mailboxes and the Almanac at work (R346 to R378): doorbells and the submission window,
the control and express mailboxes, notices, timeouts, fence cycles and completion. -/

namespace Sys2Proof.Machine

open Sys2Proof

/-! ### The submission window and the wakes (R20, R21, R347 to R349, R525, R527) -/

/-- The host's accesses through a function arrive: the link is up, and no FLR of the function is in progress (R536, R539). -/
def State.reach (s : State) (f : Nat) : Bool := s.link.up && (f = 0 || (kfind s.link.flrs (f - 1)).isNone)

/-- The part takes wakes and doorbells of a function: not while BOOTING (R543). -/
def State.intake (s : State) (f : Nat) : Bool := s.service.state ≠ 0 && s.reach f

/-- A function may not name what belongs to partition `p` (R349, R525). -/
def strange (f p : Nat) : Bool := f ≠ 0 && f ≠ 1 + p

/-- A queue that a function may not name: through a virtual function, one of no queue of its partition. -/
def State.strangeQueue (s : State) (f q : Nat) : Bool :=
  f ≠ 0 && ((s.queue q).state = 0 || strange f (s.ctx (s.queue q).ctx).part)

/-- A context that a function may not name. -/
def State.strangeCtx (s : State) (f x : Nat) : Bool := f ≠ 0 && ((s.ctx x).phase = 0 || strange f (s.ctx x).part)

/-- Device offset of entry slot `j` of a queue's submission ring (R347, R525). -/
def SQueue.slotAddr (u : SQueue) (j : Nat) : Nat := windowBacking + u.ctx * 2 ^ 20 + u.sqOff + 64 * (j + 1)

/-- Accept `n` entries after the count last accepted, each from its slot of the ring (R347). -/
def State.acceptRange : Nat → State → Nat → State
  | 0, s, _ => s
  | n + 1, s, q =>
    let u := s.queue q
    let e := s.devBytes (u.slotAddr (u.nextSlot 0)) 64
    let s := s.updQueue q (fun u => { u with commit := (u.commit + 1) % 2 ^ 32 })
    State.acceptRange n (s.accept q e none none) q

/-- A wake with a count (R347, R348): accepts the new entries, or is ignored and reported. -/
def State.wake (s : State) (q count : Nat) : State :=
  let u := s.queue q
  if (u.state ≠ 1 && u.state ≠ 2) || u.closing.isSome then s
  else
    let d := (count + 2 ^ 32 - u.commit) % 2 ^ 32
    if d = 0 then s
    else if !s.slotsFree q d then s.faultNotice u.ctx stProtection q q 0
    else (s.acceptRange d q).settle

/-- A page of a context's area is protected by an accepted step (R21). -/
def State.protectedPage (s : State) (x page : Nat) : Bool :=
  s.cmds.any (fun e => e.2.ctx = x && e.2.protFirst ≤ page && page < e.2.protFirst + e.2.protCount)

/-- Split bytes at multiples of 4 KiB. -/
def pageSplit : Nat → Nat → List Byte → List (Nat × List Byte)
  | 0, _, _ => []
  | _ + 1, _, [] => []
  | n + 1, a, bs => (a, bs.take (4096 - a % 4096)) :: pageSplit n (a / 4096 * 4096 + 4096) (bs.drop (4096 - a % 4096))

/-- Queues of a context whose COMMIT word a stored range meets. -/
def State.commitsIn (s : State) (x off n : Nat) : List Nat :=
  (s.ctxQueues x).filter (fun q => off < (s.queue q).sqOff + 4 && (s.queue q).sqOff < off + n)

/-- Split bytes at the boundaries of the contexts' areas (R527). -/
def areaSplit : Nat → Nat → List Byte → List (Nat × List Byte)
  | 0, _, _ => []
  | _ + 1, _, [] => []
  | n + 1, a, bs => (a, bs.take (2 ^ 20 - a % 2 ^ 20)) :: areaSplit n (a / 2 ^ 20 * 2 ^ 20 + 2 ^ 20) (bs.drop (2 ^ 20 - a % 2 ^ 20))

/-- A byte of BAR2 as a function reads it (R525, R528): an area foreign to a virtual function reads 0, any other its content, with
COMMIT as last written. The table has no row for the read. -/
def State.bar2Byte (s : State) (f off : Nat) : Byte := if s.strangeCtx f (off / 2 ^ 20) then 0 else s.devByte (windowBacking + off)

/-- A write of one page of an area: discarded where a step protects the page, else stored; a COMMIT word in it is a wake (R21, R347). -/
def State.windowPage (s : State) (off : Nat) (bs : List Byte) : State :=
  let x := off / 2 ^ 20
  let o := off % 2 ^ 20
  if s.protectedPage x (o / 4096) then s.faultNotice x stProtection (apertureBase + o) 0 0
  else
    let s := s.writePlain (windowBacking + off) bs
    (s.commitsIn x o bs.length).foldl (fun s q =>
      s.wake q (leNat (s.devBytes (windowBacking + x * 2 ^ 20 + (s.queue q).sqOff) 4))) s

/-- A write that lies in one area: discarded with one PROTECTION event where the function may not name the area, else taken page by
page (R525, R527). -/
def State.windowArea (s : State) (f off : Nat) (bs : List Byte) : State :=
  if s.strangeCtx f (off / 2 ^ 20) then s.logEvent 0x0B
  else (pageSplit (bs.length + 1) off bs).foldl (fun s p => s.windowPage p.1 p.2) s

/-- BAR2_WRITE (R525, R527): of any length and alignment, split at the areas' boundaries. -/
def execBar2Write (f : FnId) (off : BitVec 28) (bytes : List Byte) (s : State) : Host.Outcome State Fault Refusal :=
  if !s.intake f then .next s
  else .next ((areaSplit (bytes.length + 1) off.toNat (bytes.take (2 ^ 28 - off.toNat))).foldl (fun s p => s.windowArea f p.1 p.2) s)

/-- COMMIT_WRITE (R347): a write of the COMMIT word through the window. -/
def execCommitWrite (f : FnId) (q : QueueId) (count : BitVec 32) (s : State) : Host.Outcome State Fault Refusal :=
  if !s.intake f || (s.queue q).state = 0 then .next s
  else .next (s.windowArea f ((s.queue q).ctx * 2 ^ 20 + (s.queue q).sqOff) (leBytes 4 count.toNat))

/-- FE_SQ_DOORBELL_WRITE (R347, R349). -/
def execFeSqDoorbellWrite (f : FnId) (q : QueueId) (count : BitVec 32) (s : State) : Host.Outcome State Fault Refusal :=
  if !s.intake f then .next s
  else if s.strangeQueue f q then .next (s.logEvent 0x0B)
  else .next (s.wake q count.toNat)

/-- FE_CQ_HEAD_WRITE (R349, R357, R574): records that wait for the ring are written as HEAD advances. -/
def execFeCqHeadWrite (f : FnId) (q : QueueId) (head : BitVec 32) (s : State) : Host.Outcome State Fault Refusal :=
  let u := s.queue q
  if !s.reach f then .next s
  else if s.strangeQueue f q then .next (s.logEvent 0x0B)
  else if (u.written % 2 ^ 32 + 2 ^ 32 - u.head) % 2 ^ 32 < (head.toNat + 2 ^ 32 - u.head) % 2 ^ 32 then .next (s.logEvent 0x0B)
  else if u.state = 0 then .next s
  else
    let s := s.updQueue q (fun u => { u with head := head.toNat })
    .next (State.flushRecords (u.held.length + 1) s q).settle

/-! ### Timeouts and fence cycles (R360, R361) -/

/-- Every engine queue of a command's cores is empty. -/
def State.cmdDrained (s : State) (c : Cmd) : Bool := (s.coresOn c).all (fun k => (s.core k).drained 0xF)

/-- The sequencers of a command that wait when its timer expires fault with TIMEOUT (R342, R344). -/
def State.waitFaults (s : State) (c : Cmd) : State :=
  (s.coresOn c).foldl (fun s k => s.updCore k (fun u => if u.seq.wait = 0 then u else u.recordFault stTimeout 0 0)) s

/-- A command's timer has expired (R360): one that has not begun ends; a begun one is drained or killed with its context. -/
def State.expire (s : State) (key : Nat) : State :=
  match s.cmd? key with
  | none => s
  | some c =>
    if c.phase = .ended || (c.draining.isNone && !s.elapsed c) then s
    else if c.phase = .waiting then s.endCmd key stTimeout
    else
    let s := if c.draining.isNone then s.waitFaults c else s
    if (s.queue c.queue).kill then s.tear c.ctx stTimeout
    else
      let s := s.updCmd key (fun c => { c with drained := true, draining := some (c.draining.getD s.refCount) })
      if s.cmdDrained c then s.endCmd key stTimeout else s

/-- COMMAND_TIMEOUT (R360); issued again, it ends a draining command whose descriptors have ended. -/
def execCommandTimeout (q : QueueId) (seq : BitVec 48) (s : State) : Host.Outcome State Fault Refusal :=
  .next (s.expire (cmdKey q seq.toNat))

/-- DRAIN_TIMEOUT (R360): 30 µs after the drain began, what is left is abandoned. -/
def execDrainTimeout (q : QueueId) (seq : BitVec 48) (s : State) : Host.Outcome State Fault Refusal :=
  match s.cmd? (cmdKey q seq.toNat) with
  | none => .next s
  | some c =>
    match c.draining with
    | none => .next s
    | some t => .next (if s.since t 30 then s.endCmd (cmdKey q seq.toNat) stTimeout else s)

/-- A head's fences that are not met. -/
def State.waitsOn (s : State) (c : Cmd) : List (Nat × Nat) :=
  [c.u 16 8, c.u 24 8].filterMap (fun w => if s.fenceMet c w then none else fenceOf w)

/-- A command of queue `q` within the 64 entries from its head on, not begun (R361). -/
def State.inWindow (s : State) (q seq : Nat) : Bool :=
  match s.head? q with
  | none => false
  | some h => seq < h.seq + 64 && (s.queueCmds q).any (fun c => c.seq = seq && c.phase = .waiting)

/-- The head of queue `a` waits on a command within the window of queue `b`. -/
def State.headWaits (s : State) (a b : Nat) : Bool :=
  match s.head? a with
  | none => false
  | some h => (s.waitsOn h).any (fun w => w.1 = b && s.inWindow b w.2)

/-- FENCE_CYCLE (R361): both heads end; a head that waits on itself or a later command of its queue ends too. -/
def execFenceCycle (a : QueueId) (b : QueueId) (s : State) : Host.Outcome State Fault Refusal :=
  let own := fun (s : State) (q : Nat) => match s.head? q with
    | none => s
    | some h => if (s.waitsOn h).any (fun w => w.1 = q && h.seq ≤ w.2) then s.endCmd h.key stFenceCycle else s
  let s := own s a
  if a = b then .next s
  else
    let s := own s b
    match s.head? a, s.head? b with
    | some h, some g =>
      if s.headWaits a b && s.headWaits b a then .next ((s.endCmd h.key stFenceCycle).endCmd g.key stFenceCycle) else .next s
    | _, _ => .next s

/-! ### Completion (R25, R340, R352, R355 to R359) -/

/-- Commit an ENQ reservation (R340): the entry goes to its slot and is accepted with its parent, at once with a failed status where
the parent failed, the replay left it unfilled, or the queue is dead; nothing where the queue is gone. -/
def State.commitEnq (s : State) (c : Cmd) (r : EnqRes) : State :=
  let u := s.queue r.queue
  if u.state = 0 then s
  else
    let s := s.updQueue r.queue (fun u => { u with reserved := u.reserved - 1 })
    let failed := if c.status ≠ 0 then some c.status else if !r.filled then some c.cause else if u.state = 3 then some stContextTornDown else none
    if u.closing.isSome then s else (s.writePlain (u.slotAddr r.ringSlot) r.entry).accept r.queue r.entry (some c) failed

/-- A closing queue whose last command has completed is gone, and its QUEUE_DESTROY is answered (R359). -/
def State.closeQueue (s : State) (q : Nat) : State :=
  match (s.queue q).closing with
  | none => s
  | some (f, slot) =>
    if !(s.queueCmds q).isEmpty || !s.firmware then s
    else
      let s := { s with queues := kdel s.queues q, cmds := s.cmds.map (fun e => (e.1, e.2.keepFences q (s.queue q).results)) }
      if (s.fn f).serving slot && (s.req f slot).opcode = 0x0302 then s.respond (s.req f slot) stOk [] false else s

/-- The completion record of a command goes to the hold, and from there to the ring as far as it may (R356 to R358). -/
def State.postRecord (s : State) (c : Cmd) : State :=
  let u := s.queue c.queue
  let bs := c.record (c.flags12 false) s.pool.partId
  let h : HeldRec := ⟨c.seq, if u.state = 2 then setHeld bs else bs, bitAt (c.u 1 1) 0⟩
  let s := s.updQueue c.queue (fun u => { u with held := insertHeld h u.held })
  State.flushRecords (u.held.length + 2) s c.queue

/-- The energy of an UPDATE is that of its messages, which no command of the block reports: a free value (R514, log entry 6). -/
def State.updateEnergy (s : State) (c : Cmd) : State × Cmd :=
  if c.kind ≠ kindUpdate then (s, c)
  else
    let (s, d) := s.draw
    let e := Config.freeValue 5 d % 2 ^ 32
    (s.updCtx c.ctx (fun x => { x with energy := (x.energy + e) % 2 ^ 64 }), { c with energy := e })

/-- The scheduler adds a command's paced time into its estimates, kept by context (R32, R508; log entry 33). -/
def State.estimate (s : State) (c : Cmd) : State :=
  if c.paced = 0 then s else s.updCtx c.ctx (fun x => { x with paced := x.paced + c.paced })

/-- A command completes: the COMPLETED record, DONE, the completion record, its ENQs, in this order. -/
def State.complete (s : State) (c : Cmd) : State :=
  let u := s.queue c.queue
  let (s, c) := (s.estimate c).updateEnergy c
  let flags := c.flags12 (u.phaseOf c.seq) + (if u.state = 2 then 8 else 0)
  let s := s.almRecord c.part { type := 2, flags := flags, status := c.status, queue := some c.queue, ctx := some c.ctx, depth := c.depth,
                                seq := c.seq, parent := c.parent, epoch := c.epoch, cvt := c.cvt, detail := c.detail,
                                energy := c.energy, paced := c.paced }
  let s := s.updQueue c.queue (fun u =>
    let r := kput u.results c.seq c.status
    { u with results := r, done := advanceDone r r.length u.done })
  let s := { s with cmds := kdel s.cmds c.key, prefetch := s.prefetch.filter (fun p => p.cmd ≠ c.key) }
  let s := if c.status = stQueueAbandoned || c.almOnly || s.frozen c.ctx then s else s.postRecord c
  let s := c.enqs.foldl (fun s r => s.commitEnq c r) s
  (s.closeQueue c.queue).settle

/-- COMMAND_COMPLETE (R24, R25, R356): once the command has ended and every write of it is visible to the host. -/
def execCommandComplete (q : QueueId) (seq : BitVec 48) (s : State) : Host.Outcome State Fault Refusal :=
  match s.cmd? (cmdKey q seq.toNat) with
  | none => .next s
  | some c =>
    if c.phase ≠ .ended || s.link.pendingInv.any (fun b => b.cmd = c.key) then .next s else .next (s.complete c)

/-! ### Queue operations (R359, R377, R378) -/

/-- Largest timeout in µs (R350). -/
abbrev timeoutMax : Nat := 3600000000

/-- Vectors that a queue may name (R533). -/
def queueVector (f v : Nat) : Bool := 3 ≤ v && v < (if f = 0 then 2048 else 128)

/-- A range that a control request names in a function context has a translation there; else a status (R433). Translations of host
memory cover 2 MiB at least (R437), so one address of each 2 MiB is looked up. -/
def State.namedThere (s : State) (f va n : Nat) : State × Nat :=
  ((List.range (cdiv (va % 2 ^ 21 + n) (2 ^ 21))).map (fun i => max va ((va / 2 ^ 21 + i) * 2 ^ 21))).foldl
    (fun (r : State × Nat) a =>
      if r.2 ≠ stOk then r
      else match r.1.xlateCp true f a true false with
        | (s, .stop _ _ _) => (s, stPageFaultFatal)
        | (s, .poison _) => (s, stPoisonConsumed)
        | (s, .ok _) => (s, stOk)) (s, stOk)

/-- QUEUE_CREATE (R359, R377, R378); a ring that has no translation gives PAGE_FAULT_FATAL (R433). -/
def execQueueCreate (f : FnId) (slot : Fin 28) (s : State) : Host.Outcome State Fault Refusal :=
  .next (s.serve f slot 0x0301 false (fun r s =>
    let x := r.u 0 1
    let sq := r.u 2 1
    let cq := r.u 3 1
    let off := r.u 8 4
    let t := r.u 4 4
    let addr := r.u 16 8
    let c := s.ctx x
    let bad := sq < 6 || 12 < sq || cq < 6 || 16 < cq || t < 10 || timeoutMax < t || off % 4096 ≠ 0 ||
      2 ^ 20 < off + 64 * (2 ^ sq + 1) || !queueVector f (r.u 12 2) || addr % 4096 ≠ 0 || 2 ^ 52 < addr + 64 * 2 ^ cq
    let free := leastBelow 1024 (fun q => (s.queue q).state = 0)
    checks s [(s.strangeCtx f x, stProtection), (bad, stBadPattern),
              (free.isNone || c.phase = 0 || c.phase = 7 || !(s.part c.part).alm.placed, stQueueConflict)]
      (let q := free.getD 0
       let (s, st) := s.namedThere f addr (64 * 2 ^ cq)
       if st ≠ stOk then refuse s st else
       .done { s with queues := kput s.queues q { state := 1, fn := f, ctx := x, sqOff := off, sqLog2 := sq, cqAddr := addr, cqLog2 := cq,
                                                  kill := bitAt (r.u 1 1) 0, timeout := t, vector := r.u 12 2 } }
         stOk (leBytes 2 q))))

/-- QUEUE_DESTROY: waits for the last running command (R359). -/
def execQueueDestroy (f : FnId) (slot : Fin 28) (s : State) : Host.Outcome State Fault Refusal :=
  .next (s.serve f slot 0x0302 false (fun r s =>
    let q := r.u 0 2
    let u := s.queue q
    let abandon := bitAt (r.u 2 1) 0
    if u.closing = some (f.val, slot.val) then .wait (s.closeQueue q)
    else checks s [(s.strangeQueue f q, stProtection), (1024 ≤ q, stBadPattern),
                   (u.state = 0 || u.closing.isSome || (!abandon && !(s.queueCmds q).isEmpty), stQueueConflict)]
      (let s := s.updQueue q (fun u => { u with closing := some (f.val, slot.val), abandon := abandon,
                                                held := if abandon then [] else u.held })
       let s := (s.queueCmds q).foldl (fun s c => if c.phase = .waiting then s.endCmd c.key stQueueAbandoned else s) s
       .wait (s.closeQueue q))))

/-- QUEUE_QUERY. -/
def execQueueQuery (f : FnId) (slot : Fin 28) (s : State) : Host.Outcome State Fault Refusal :=
  .next (s.serve f slot 0x0303 false (fun r s =>
    let q := r.u 0 2
    let u := s.queue q
    checks s [(s.strangeQueue f q, stProtection), (1024 ≤ q, stBadPattern)]
      (.done s stOk (leBytes 2 u.state ++ leBytes 2 u.ctx ++ leBytes 4 0 ++ leBytes 8 u.seq ++ leBytes 8 u.done ++ leBytes 8 u.written ++
        leBytes 2 u.held.length))))

/-- QUEUE_REMAP (R358): the held records go to the new ring from slot 0 on. -/
def execQueueRemap (f : FnId) (slot : Fin 28) (s : State) : Host.Outcome State Fault Refusal :=
  .next (s.serve f slot 0x0304 false (fun r s =>
    let q := r.u 0 2
    let u := s.queue q
    let addr := r.u 8 8
    let log2 := r.u 16 1
    checks s [(s.strangeQueue f q, stProtection),
              (1024 ≤ q || log2 < 6 || 16 < log2 || addr % 4096 ≠ 0 || 2 ^ 52 < addr + 64 * 2 ^ log2, stBadPattern),
              (u.state ≠ 2, stQueueConflict)]
      (let (s, st) := s.namedThere u.fn addr (64 * 2 ^ log2)
       if st ≠ stOk then refuse s st else
       let s := s.updQueue q (fun u => { u with state := 1, cqAddr := addr, cqLog2 := log2, ringCount := 0 })
       .done (State.flushRecords (u.held.length + 1) s q).settle stOk [])))

/-! ### Almanac operations (R373, R375, R377, R378) -/

/-- A page that a ring of firmware is to lie in: its device offset, or a status (R377, R378, R433). -/
def State.ringPage (s : State) (va : Nat) : Except Nat Nat :=
  match s.rootOf true 0 with
  | none => .error stPageFaultFatal
  | some root =>
    match s.walkFrom va 2 root with
    | .poison _ => .error stPoisonConsumed
    | .stop _ _ => .error stPageFaultFatal
    | .leaf e pva _ _ =>
      let pa := bitsOf e 47 8 * 256 + (va - pva)
      if bitsOf e 3 2 ≠ 1 || pa / devSize ≠ s.pool.partId then .error stBadPattern
      else if !bitAt e 4 || !bitAt e 5 then .error stPageFaultFatal
      else .ok (pa % devSize)

/-- Device offsets of the 32 MiB pieces of a ring. -/
def State.ringPages (s : State) : Nat → Nat → Except Nat (List Nat)
  | 0, _ => .ok []
  | n + 1, va =>
    match s.ringPage va with
    | .error e => .error e
    | .ok p => match s.ringPages n (va + 2 ^ 25) with
      | .error e => .error e
      | .ok ps => .ok (p :: ps)

/-- A partition holds a queue. -/
def State.holdsQueue (s : State) (p : Nat) : Bool := s.queues.any (fun e => e.2.state ≠ 0 && (s.ctx e.2.ctx).part = p)

/-- ALMANAC_CONFIG. -/
def execAlmanacConfig (f : FnId) (slot : Fin 28) (s : State) : Host.Outcome State Fault Refusal :=
  .next (s.serve f slot 0x0305 true (fun r s =>
    let p := r.u 0 1
    let log2 := r.u 1 1
    let base := r.u 8 8
    let n := cdiv (64 * 2 ^ log2) (2 ^ 25)
    checks s [(16 ≤ p || log2 < 16 || 24 < log2 || base % 2 ^ 25 ≠ 0 || 2 ^ 52 < base + 64 * 2 ^ log2, stBadPattern),
              (s.holdsQueue p, stQueueConflict)]
      (match s.ringPages n base with
       | .error e => refuse s e
       | .ok pages =>
         let pf := bitAt (r.u 2 1) 0
         let s := if pf then { s with parts := s.parts.map (fun e => (e.1, { e.2 with alm := { e.2.alm with pfRecords := false } })) } else s
         .done (s.updPart p (fun q => { q with alm := { q.alm with
             placed := true, base := base, pages := pages, log2 := log2, oldest := q.alm.writeSeq, pfRecords := pf,
             wrapNoted := q.alm.writeSeq / 2 ^ log2 } })) stOk [])))

/-- ALMANAC_QUERY. -/
def execAlmanacQuery (f : FnId) (slot : Fin 28) (s : State) : Host.Outcome State Fault Refusal :=
  .next (s.serve f slot 0x0306 false (fun r s =>
    let a := (s.part (r.u 0 1)).alm
    checks s [(r.foreign (r.u 0 1), stProtection), (16 ≤ r.u 0 1, stBadPattern), (!a.placed, stQueueConflict)]
      (.done s stOk (leBytes 8 a.base ++ leBytes 8 a.log2 ++ leBytes 8 a.writeSeq ++ leBytes 8 a.oldest ++ leBytes 8 a.ack ++ leBytes 8 a.wrapped))))

/-- ALMANAC_ACK. -/
def execAlmanacAck (f : FnId) (slot : Fin 28) (s : State) : Host.Outcome State Fault Refusal :=
  .next (s.serve f slot 0x0307 false (fun r s =>
    let a := (s.part (r.u 0 1)).alm
    checks s [(r.foreign (r.u 0 1), stProtection), (16 ≤ r.u 0 1, stBadPattern), (!a.placed, stQueueConflict),
              (a.writeSeq ≤ r.u 8 8, stBadPattern)]
      (.done (s.updPart (r.u 0 1) (fun q => { q with alm := { q.alm with ack := r.u 8 8 } })) stOk [])))

/-! ### Express mailbox (R367 to R370) -/

/-- Write a slot's field of MB_EXP_RESULT and clear its busy bit (R369). -/
def Fn.expEnd (n : Fn) (k result : Nat) : Fn :=
  { n with expBusy := if n.expBusy.testBit k then n.expBusy - 2 ^ k else n.expBusy,
           expResult := n.expResult - (n.expResult >>> (4 * k)) % 16 * 2 ^ (4 * k) + result * 2 ^ (4 * k) }

/-- Field of an express slot. -/
def Fn.expU (n : Fn) (k off len : Nat) : Nat := leNat (readBytes n.mb (0x1000 + 256 * k + off) len)

/-- EXPRESS_BIND (R368, R370, R377). -/
def execExpressBind (f : FnId) (slot : Fin 28) (s : State) : Host.Outcome State Fault Refusal :=
  .next (s.serve f slot 0x0308 false (fun r s =>
    let ch := r.u 0 1
    let x := r.u 1 1
    let cells := r.u 3 1
    let scr := r.u 8 3
    let t := r.u 12 4
    let unbound := fun (s : State) => s.updFn f (fun n => n.unbind (fun k _ => k = ch))
    if cells = 0 then checks s [(16 ≤ ch, stBadPattern)] (.done (unbound s) stOk [])
    else
      let bad := 16 ≤ ch || (s.ctx x).phase = 0 || (s.ctx x).phase = 7 || 128 ≤ r.u 2 1 || 64 < cells || scr % 256 ≠ 0 ||
        s.winSize x < scr + 256 * cells || (t ≠ 0 && (t < 10 || 10000000 < t))
      checks s [(s.strangeCtx f x, stProtection), (bad, stBadPattern)]
        (.done ((unbound s).updFn f (fun n => { n with
            chans := kput n.chans ch ⟨x, r.u 2 1, cells, r.u 4 1, r.u 5 1, scr, if t = 0 then 100000 else t, 0⟩ })) stOk [])))

/-- MB_EXP_DOORBELL_WRITE (R368, R369). -/
def execMbExpDoorbellWrite (f : FnId) (bits : BitVec 16) (s : State) : Host.Outcome State Fault Refusal :=
  if !s.intake f then .next s
  else .next (s.updFn f (fun n => (bitList 16 bits.toNat).foldl (fun n k =>
    if n.expBusy.testBit k then n
    else if (kfind n.chans (n.expU k 0 1)).isNone then n.expEnd k 1
    else if n.expU k 2 2 = 0 || 248 < n.expU k 2 2 then n.expEnd k 2
    else { n with expBusy := n.expBusy ||| 2 ^ k, expTime := kput n.expTime k s.refCount }) n))

/-- The oldest running command of a context with a core of a rank, with that core (R368). -/
def State.expressCore (s : State) (x rank : Nat) : Option (Nat × Nat) :=
  let found := s.cmds.filterMap (fun e =>
    if e.2.ctx = x && e.2.phase = .running then
      (e.2.cores.find? (fun c => (s.core c).cmd = some e.1 && (s.core c).rank = rank)).map (fun c => (e.2.accepted, e.1, c))
    else none)
  (found.foldl (fun b e => match b with
    | none => some e
    | some o => if e.1 < o.1 then some e else b) none).map (fun e => (e.2.1, e.2.2))

/-- EXPRESS_DELIVERY (R368), within the channel's TIMEOUT (R370). -/
def execExpressDelivery (f : FnId) (k : Fin 16) (s : State) : Host.Outcome State Fault Refusal :=
  let n := s.fn f
  let ch := n.expU k 0 1
  match kfind n.chans ch with
  | none => .next s
  | some c =>
    match s.expressCore c.ctx c.rank with
    | none => .next s
    | some (_, core) =>
      let free := (kget {} ((s.core core).set c.ctx).tallies c.free).value
      if !n.expBusy.testBit k || c.cells ≤ c.count - free || s.since (kget 0 n.expTime k) c.timeoutUs then .next s
      else
        let bytes := readBytes n.mb (0x1000 + 256 * k.val) 256
        let s := s.writeScr core c.ctx (c.scratch + 256 * (c.count % c.cells)) bytes 0
        let s := s.tallyAdd core c.ctx c.deliver 1 6 none
        .next (s.updFn f (fun n => { n.expEnd k 0 with chans := kput n.chans ch { c with count := c.count + 1 } }))

/-- EXPRESS_TIMEOUT (R370). -/
def execExpressTimeout (f : FnId) (k : Fin 16) (s : State) : Host.Outcome State Fault Refusal :=
  let n := s.fn f
  match kfind n.chans (n.expU k 0 1) with
  | none => .next s
  | some c => .next (if n.expBusy.testBit k && s.since (kget 0 n.expTime k) c.timeoutUs then s.updFn f (fun n => n.expEnd k 3) else s)

/-- MB_EXP_RESULT_READ (R369, R570): a read through the function returns its results, or those of half the slots, and clears them. -/
def execMbExpResultRead (f : FnId) (s : State) (half : Fin 3 := 0) : Host.Outcome State Fault Refusal :=
  if !s.reach f then .next s
  else
  let s := { s with host := { s.host with reads := halfOf half (s.fn f).expResult :: s.host.reads } }
  .next (s.updFn f (fun n => { n with expResult := setHalf half n.expResult 0 }))

/-! ### Control mailbox (R362 to R366, R371) -/

/-- A request's slots run past slot 27, or it has no legal slot. -/
def Req.overruns (r : Req) : Bool := 28 ≤ r.slot || (r.slots ≤ 4 && 28 < r.slot + r.slots)

/-- A control slot belongs to a request in RUNNING (R364). -/
def State.slotRunning (s : State) (f slot : Nat) : Bool :=
  slot < 28 && (s.fn f).taken.any (fun n => n ≤ slot && slot < n + max 1 (min 4 (s.req f n).slots) && (s.fn f).serving n)

/-- Firmware takes a posted request (R363, R372). -/
def State.takeRequest (s : State) (f slot : Nat) : State :=
  let r := s.req f slot
  let b := (kget 0 (s.fn f).mb (64 * slot + 8)).toNat
  let s := s.updFn f (fun n => { n with
    mb := kset 0 n.mb (64 * slot + 8) (BitVec.ofNat 8 (b / 4 * 4 + 2)), taken := slot :: n.taken.erase slot })
  s.almFn f { type := 3, parent := r.tag * 65536 + r.opcode }

/-- MB_DOORBELL_WRITE (R363, R364, R366, R543); while firmware is down the request stays POSTED, and its doorbell is kept (R548, R553). -/
def execMbDoorbellWrite (f : FnId) (slot : BitVec 5) (s : State) : Host.Outcome State Fault Refusal :=
  let k := slot.toNat
  if !s.intake f then .next s
  else if (s.fn f).slotState k ≠ 1 || (s.req f k).overruns || s.slotRunning f k then .next (s.logEvent 0x0B)
  else if !s.firmware then .next (s.updFn f (fun n => { n with rung := n.rung.erase k ++ [k] }))
  else .next (s.takeRequest f k)

/-- MAILBOX_SLOT_WRITE (R364, R369, R569): 1 to 64 bytes within one slot. -/
def execMailboxSlotWrite (f : FnId) (off : Fin 8192) (bytes : List Byte) (s : State) : Host.Outcome State Fault Refusal :=
  let o := off.val
  let n := bytes.length
  let w := if o < 0x800 then 64 else if 0x1000 ≤ o then 256 else 0
  if !s.reach f then .next s
  else if w = 0 || n = 0 || 64 < n || o / w ≠ (o + n - 1) / w || (o < 0x800 && s.slotRunning f (o / 64)) then .next (s.logEvent 0x0B)
  else .next (s.updFn f (fun m => { m with mb := writeBytes m.mb o bytes }))

/-- NOTICE_POSTED (R371). -/
def execNoticePosted (f : FnId) (s : State) : Host.Outcome State Fault Refusal :=
  .next (if s.firmware then s.postHeld f else s)

/-- ASYNC_OP_COMPLETE (R365, R371, R372). -/
def execAsyncOpComplete (f : FnId) (op : BitVec 32) (s : State) : Host.Outcome State Fault Refusal :=
  match (s.fn f).ops.find? (fun o => o.opId = op.toNat && o.ready && !o.done) with
  | none => .next s
  | some o =>
    if !s.firmware then .next s
    else
      let s := s.updFn f (fun n => { n with ops := n.ops.map (fun p => if p.opId = o.opId then { p with done := true } else p) })
      let x : Notice := ⟨o.opcode, o.tag, o.status, leBytes 4 o.opId ++ o.resp, false⟩
      match s.postNoticeRaw f (s.almOf f) x { type := 3, status := o.status, seq := o.opId, parent := o.tag * 65536 + o.opcode }, s.almOf f with
      | (s, true), some p => .next (s.wrapNotice p)
      | (s, _), _ => .next s

/-- OP_QUERY. -/
def execOpQuery (f : FnId) (slot : Fin 28) (s : State) : Host.Outcome State Fault Refusal :=
  .next (s.serve f slot 0x0309 false (fun r s =>
    match (s.fn f).ops.find? (fun o => o.opId = r.u 0 4) with
    | none => .done s stOk (leBytes 48 0)
    | some o =>
      .done s stOk (if o.done then leBytes 2 2 ++ leBytes 2 o.status ++ (o.resp ++ List.replicate 44 0).take 44 else leBytes 48 1)))

/-- Opcodes that firmware implements (R17, R377 and the chapters' operation tables). -/
def implemented (op : Nat) : Bool :=
  let n := op % 256
  let last := match op / 256 with
    | 1 => 4 | 2 => 8 | 3 => 9 | 4 => 6 | 5 => 17 | 6 => 14 | 7 => 10 | 8 => 6 | 9 => 5 | 10 => 1 | _ => 0
  1 ≤ n && n ≤ last

/-- UNIMPLEMENTED_OPCODE (R17, R18, R550). DESIGN CHOICE: where SLOTS is out of its range as well, BAD_PATTERN comes first, as the spec
orders the two refusals nowhere (log entry 42). -/
def execUnimplementedOpcode (f : FnId) (slot : Fin 28) (s : State) : Host.Outcome State Fault Refusal :=
  let r := s.req f slot
  let lost := s.service.state = 4 && !inRecovery r.opcode
  if implemented r.opcode && r.version = 1 then .next s
  else if !s.firmware || !(s.fn f).serving slot then .next s
  else .next (s.respond r (if lost then stCapabilityMissing
    else if r.slots = 0 || 4 < r.slots then stBadPattern
    else if implemented r.opcode then stVersionRefused else stCapabilityMissing) [] false)

end Sys2Proof.Machine
end

