-- ==== Sys2Proof/Machine/HostReset.lean ====
section
/-! DEFINITION. What a self-reset and an FLR reset (R453, R536 to R539, R575): the host interface of the part, and one function's
mailboxes, rings and MSI-X table. -/

namespace Sys2Proof.Machine

open Sys2Proof

/-- What a function keeps through its reset: the OP_ID sequence, its asynchronous operations and its debug selections (R537, R575). -/
def Fn.fresh (n : Fn) : Fn :=
  { nextOp := n.nextOp, ops := n.ops, syncSel := n.syncSel, syncLatch := n.syncLatch, bobSel := n.bobSel, bobLatch := n.bobLatch }

/-- A request of a function's mailbox that no answer reaches any more. -/
def forget (f : Nat) (o : Option (Nat × Nat)) : Option (Nat × Nat) := o.map (fun r => if r.1 = f then (f, 63) else r)

/-- Reset a function's mailboxes, fault ring, notice ring, completion heads and MSI-X table (R539, R575). Its requests in progress
are forgotten; the work they began goes on (R537). -/
def State.resetFn (s : State) (f : Nat) : State :=
  let s := s.updFn f Fn.fresh
  { s with
    xlt := { s.xlt with rings := kdel s.xlt.rings f, drains := s.xlt.drains.filter (fun d => d.fn ≠ f) },
    cpWrite := s.cpWrite.filter (fun r => r.1 ≠ f),
    serviceOps := s.serviceOps.filter (fun r => r.1 ≠ f),
    parts := s.parts.map (fun (e : Nat × Partition) => (e.1, { e.2 with splitOps := e.2.splitOps.filter (fun r => r.1 ≠ f) })),
    tables := s.tables.map (fun (e : Nat × Table) => (e.1, { e.2 with delete := forget f e.2.delete })),
    pool := { s.pool with aclDrains := s.pool.aclDrains.filter (fun d => d.fn ≠ f) },
    queues := s.queues.map (fun (e : Nat × SQueue) =>
      (e.1, { e.2 with closing := forget f e.2.closing,
                       head := if e.2.fn = f then 0 else e.2.head, held := if e.2.fn = f then [] else e.2.held })) }

/-- Merge the masked bytes of a waiting write into a line (R530). -/
def BackInv.land (b : BackInv) (s : State) : State :=
  if b.mask.any id then
    let old := readBytes s.mem.bytes (64 * b.line) 64
    s.storeDev (64 * b.line) ((List.range 64).map (fun i => if nthD false b.mask i then nthD 0 b.data i else nthD 0 old i)) (fun _ _ => b.info)
  else s

/-- Writes that waited for the host have become visible: of each WRITE of another part that has no line waiting any more, the acknowledgement
goes out, and of the others a codeword has now been accepted (R178, R303, R530). -/
def State.ackLanded (s : State) (done : List BackInv) : State :=
  let hs := (done.filterMap (·.hdr)).eraseDups
  let s := { s with link := { s.link with pendingInv := s.link.pendingInv.map (fun b =>
    if b.hdr.any hs.contains then { b with whole := false } else b) } }
  (hs.filter (fun h => !s.link.pendingInv.any (fun b => b.hdr = some h))).foldl (fun s h =>
    s.serviceSend (h.srcCluster % 16) h.srcPart (.writeAck h 0)) s

/-- The writes that waited for back-invalidations take effect over device memory: what the host held dirty is lost (R532). -/
def State.landWrites (s : State) : State :=
  let done := s.link.pendingInv
  (done.foldl (fun s b => b.land s) ({ s with link := { s.link with snoop := [], pendingInv := [] } } : State)).ackLanded done

/-- Reset the host interface (R453, R532, R536): the controllers, configuration space, MSI-X tables, HDM decoders, snoop filter and
translation state, in every function. -/
def State.hostReset (s : State) : State :=
  let s := (List.range 17).foldl State.resetFn s
  let s := s.landWrites
  let dev := fun (l : List TlbEntry) => l.filter (fun e => e.host.isNone)
  { s with
    link := { s.link with up := false, speed := 0, width := 0, flit := false, cxlMem := false, cxlCache := false, hdm := [], ifReset := true },
    host := { s.host with pages := [] },
    ras := { s.ras with ringLog2 := 0, ringAddr := 0, copied := 0, head := 0 },
    xlt := { s.xlt with
      coreTlb := s.xlt.coreTlb.map (fun (e : Nat × List TlbEntry) => (e.1, dev e.2)),
      clusterTlb := s.xlt.clusterTlb.map (fun (e : Nat × List TlbEntry) => (e.1, dev e.2)),
      devTlb := [], priGroups := [], priFailed := [] } }

/-- The host-facing contexts that a self-reset, or an FLR of partition `p`'s function, tears down. -/
def State.toTear (s : State) (p : Option Nat) : List Nat :=
  (s.ctxs.filter (fun e => s.hostFacing e.1 && e.2.phase ≠ 7 && (match p with | none => true | some p => e.2.part = p))).map (·.1)

/-- Running commands of a context of one of some kinds. -/
def State.runs (s : State) (x : Nat) (kinds : List Nat) : List Nat :=
  (s.cmds.filter (fun e => e.2.ctx = x && e.2.phase = .running && kinds.contains e.2.kind)).map (·.1)

/-- End the running commands of some kinds of a context with HOST_LINK_LOST. -/
def State.loseKinds (s : State) (kinds : List Nat) (x : Nat) : State :=
  (s.runs x kinds).foldl (fun s k => s.endCmd k stHostLinkLost) s

/-- Tear a context down unless a STEP, JOB or UPDATE of it still runs (R536). -/
def State.tearIdle (s : State) (x : Nat) : State :=
  if (s.runs x [kindStep, kindJob, kindUpdate]).isEmpty then s.tear x stHostLinkLost else s

/-- Kill the jobs of a self-reset or FLR at once, and tear down what no longer runs (R536, R539). -/
def State.loseContexts (s : State) (p : Option Nat) : State :=
  let l := s.toTear p
  let s : State := { s with cmds := s.cmds.map (fun (e : Nat × Cmd) =>
    (e.1, { e.2 with almOnly := e.2.almOnly || (e.2.phase = .ended && l.contains e.2.ctx) })) }
  let s := l.foldl (fun s x => s.loseKinds [kindJob] x) s
  l.foldl State.tearIdle s

/-- Once nothing host-facing is left, a self-reset resets the host interface and an FLR ends (R536, R539). -/
def State.endDrains (s : State) : State :=
  let s := if s.link.resetAt.isSome && !s.link.ifReset && (s.toTear none).isEmpty then s.hostReset else s
  { s with link := { s.link with flrs := s.link.flrs.filter (fun e => !(s.toTear (some e.1)).isEmpty) } }

end Sys2Proof.Machine
end

