-- ==== Sys2Proof/Machine/Sched.lean ====
section
/-! DEFINITION. Partitions, contexts and the scheduler (R381 to R407): available cores, turns, placement, dispatch and replay, moves,
suspension, residency and teardown. -/

namespace Sys2Proof.Machine

open Sys2Proof

/-! ### Cores (R381 to R384) -/

/-- A core whose partition differs between the current and the target table (R383). -/
def State.moving? (s : State) (c : Nat) : Bool :=
  s.parts.any (fun e => e.2.mask.testBit c != e.2.target.testBit c)

/-- Cores of the two clusters under calibration in reduced service (R544). -/
def State.calibrating (s : State) (c : Nat) : Bool :=
  s.reduced && s.service.pair < 8 && clusterOf c % 8 = s.service.pair

/-- A core that Vigil, a classification, a shadow sample or a microcode update holds (R30, R472, R482, R554). -/
def State.borrowed (s : State) (c : Nat) : Bool :=
  s.ras.classify.any (fun g => g.neighbour = some c) ||
  s.ras.waiting.contains c || s.ras.tests.any (fun t => t.coreA = c || t.coreB = c || t.third = some c) ||
  s.ras.shadows.any (fun h => h.2.2 = c) ||
  s.service.rollouts.any (fun r => r.kind = 2 && r.taken.contains c)

/-- In service: neither quarantined, in Vigil nor fenced, and not to be fenced (R474, R475). -/
def State.inService (s : State) (c : Nat) : Bool :=
  let r := s.rasOf c
  (r.state = 0 || r.state = 3) && r.fenceStart.isNone && r.fenceWait.isEmpty

/-- A core is available to partition `p` (R382). -/
def State.available (s : State) (p c : Nat) : Bool :=
  (s.part p).mask.testBit c && s.inService c && !s.borrowed c && !s.calibrating c && !s.moving? c && (s.core c).cmd.isNone

/-- The cores of a list that one command may take together: the largest set of one RESULT_CLASS (R555). -/
def State.oneClass (s : State) (l : List Nat) : List Nat :=
  l.foldl (fun best c =>
    let g := l.filter (fun d => s.resultClass d = s.resultClass c)
    if best.length < g.length then g else best) []

/-- The available cores of a partition, rising. -/
def State.availableCores (s : State) (p : Nat) : List Nat := (List.range 128).filter (s.available p)

/-! ### Heads and turns (R389 to R393) -/

/-- The ready STEP and JOB heads of a context in queue order (R391). -/
def State.readyHeads (s : State) (x : Nat) : List Cmd :=
  (s.ctxQueues x).filterMap (fun q => match s.head? q with
    | none => none
    | some c => if (c.kind = kindStep || c.kind = kindJob) && s.ready c then some c else none)

/-- The resident contexts of a partition that take turns, with a ready head. -/
def State.turnTakers (s : State) (p : Nat) : List Nat :=
  (s.ctxs.filter (fun e => e.2.part = p && e.2.resident && (e.2.phase = 2 || e.2.phase = 3) && !(s.readyHeads e.1).isEmpty)).map (·.1)

/-- A list of rising numbers from the first above `h` on, wrapping (R393). -/
def turnAfter (h : Nat) (l : List Nat) : List Nat := l.filter (fun x => h < x) ++ l.filter (fun x => x ≤ h)

/-- The holder's charge now, in reference ticks (R393). -/
def State.chargeNow (s : State) (p : Nat) : Nat :=
  let q := s.part p
  match q.turn with
  | none => 0
  | some h => (s.cmds.foldl (fun a e =>
      if e.2.ctx = h && e.2.phase = .running && !e.2.suspended then
        a + e.2.cores.length * (s.refCount - max e.2.startedAt q.turnAt) else a) q.charge) / max 1 (s.maskCount p)

/-- The turn passes on where the holder has no ready head or has used its slice (R393); a new slice takes effect (R403). -/
def State.passTurn (s : State) (p : Nat) : State :=
  let l := s.turnTakers p
  let q := s.part p
  let stays := match q.turn with
    | none => false
    | some h => l.contains h && s.chargeNow p < (s.ctx h).sliceUs * ticksPerUs
  if stays then s
  else
    match (match q.turn.or q.turnLast with | none => l | some h => turnAfter h l) with
    | [] => s
    | n :: _ =>
      (s.updPart p (fun q => { q with turn := some n, turnAt := s.refCount, charge := 0 })).updCtx n
        (fun c => { c with sliceUs := c.nextSlice.getD c.sliceUs, nextSlice := none })

/-- TURN_PASS (R393). -/
def execTurnPass (p : PartId) (s : State) : Host.Outcome State Fault Refusal := .next (s.passTurn p)

/-! ### Placement (R394) -/

/-- Insert by a key. -/
def insertBy (k : Nat → Nat) (a : Nat) : List Nat → List Nat
  | [] => [a]
  | b :: l => if k a ≤ k b then a :: b :: l else b :: insertBy k a l

/-- Sort by a key. -/
def sortBy (k : Nat → Nat) (l : List Nat) : List Nat := l.foldr (insertBy k) []

/-- The order in which a context's cores are taken (R394). -/
def placeKey (last : Nat) (avail : List Nat) (c : Nat) : Nat :=
  let n := (avail.filter (fun d => clusterOf d = clusterOf c)).length
  (if last.testBit c then 0
   else if (coresOf (clusterOf c)).any last.testBit then 1
   else 2 + (8 - n)) * 128 + c

/-- The first `n` available cores in placement order, rising. -/
def State.choose (s : State) (x n : Nat) (avail : List Nat) : List Nat :=
  sortBy id ((sortBy (placeKey (s.ctx x).place avail) avail).take n)

/-- Record a placement (R394). -/
def Ctx.placed (c : Ctx) (cores : List Nat) : Ctx :=
  let m := bitMask cores
  if m = c.place then c else { c with place := m, placeGen := (c.placeGen + 1) % 256 }

/-! ### The image (R317 to R320) -/

/-- The header's CORES_MIN and CORES_MAX as the scheduler reads them; one core where they are unusable. -/
def coreRange (h : List Byte) : Nat × Nat :=
  let lo := fieldAt h 4 1
  let hi := if fieldAt h 5 1 = 0 then 128 else fieldAt h 5 1
  if 1 ≤ lo && lo ≤ hi && hi ≤ 128 then (lo, hi) else (1, 1)

/-- The header of an image in another part's memory, once a core has read its line. -/
def State.headerSeen (s : State) (pa : Nat) : Option (List Byte) :=
  firstSome 128 (fun k => (kfind (s.core k).rbuf (pa / 64)).map (·.data))

/-- CORES_MIN and CORES_MAX of a command's image, read without effect for admission; a header in another part's memory is known once a
core has read it. -/
def State.coresWanted (s : State) (c : Cmd) : Nat × Nat :=
  if c.u 8 8 % 2048 ≠ 0 then (1, 1) else
  match s.xlateCp false c.ctx (c.u 8 8) false false with
  | (_, .ok (.dev pa)) =>
    if pa / devSize = s.pool.partId then coreRange (s.devBytes (pa % devSize) 8) else ((s.headerSeen pa).map coreRange).getD (1, 1)
  | (_, .ok (.host h)) => coreRange (s.hostBytes h 8)
  | _ => (1, 1)

/-- Every page of an area has a leaf in a context. -/
def State.mapped (s : State) (x va n : Nat) : Bool :=
  match s.rootOf false x with
  | none => false
  | some r =>
    n = 0 || (va + n ≤ apertureBase && (List.range ((va + n - 1) / 2 ^ 25 - va / 2 ^ 25 + 1)).all (fun i =>
      match s.walkFrom ((va / 2 ^ 25 + i) * 2 ^ 25) 2 r with | .leaf _ _ _ _ => true | _ => false))

/-- A header field is outside its range, misaligned or reserved, or an area leaves its bounds (R319 check 6, R386). -/
def State.headerBad (s : State) (x va : Nat) (h : List Byte) : Bool :=
  let u := fieldAt h
  let lo := u 4 1
  let hi := if u 5 1 = 0 then 128 else u 5 1
  let win := s.winSize x
  lo = 0 || 128 < lo || 128 < hi || hi < lo || u 6 2 ≠ 0 || u 8 4 % 64 ≠ 0 || u 12 4 % 8 ≠ 0 || u 12 4 = 0 || 16384 < u 12 4 ||
    u 16 4 % 2048 ≠ 0 || 1048576 < u 20 4 || u 24 4 % 64 ≠ 0 || u 28 4 % 64 ≠ 0 || 65536 < u 28 4 || 2 ^ 21 ≤ u 32 3 || u 32 3 % 64 ≠ 0 ||
    u 35 1 ≠ 0 || u 36 4 = 0 || 2 ^ 21 < u 36 4 || (h.drop 40).take 20 ≠ List.replicate 20 0 ||
    win < u 32 3 + u 28 4 || win < u 36 4 ||
    !s.mapped x (va + u 8 4) (u 12 4) || !s.mapped x (va + u 16 4) (2048 * u 20 4) || !s.mapped x (va + u 24 4) (u 28 4)

/-- The checks of R319 in order, on a header read with its tag. -/
def State.headerCheck (s : State) (x va : Nat) (h : List Byte) : Option Nat :=
  if fieldAt h 0 2 ≠ 1 then some stVersionRefused
  else if crc32c (h.take 60) ≠ fieldAt h 60 4 then some stBadPattern
  else if fieldAt h 2 2 = 0 then some stBadPattern
  else if s.service.capLevel < fieldAt h 2 2 then some stCapabilityMissing
  else if s.headerBad x va h then some stBadPattern
  else none

/-- Bytes of an area of an image, read by its 2 KiB blocks (R318), with whether one carries TIES_AWAY. -/
def readImage (w : Who) (va n : Nat) : CM (List Byte × Bool) := do
  if n = 0 then return ([], false)
  else
    let first := va / 2048
    let bs ← (List.range ((va + n - 1) / 2048 - first + 1)).mapM (fun i =>
      readBlock w ((first + i) * 2048) 2048 (blockIdOf w.ctx ((first + i) * 2048)) false)
    return (((bs.flatMap (fun b => b.1.flatMap (·.data))).drop (va - first * 2048)).take n, bs.any (fun b => b.1.any (·.ties)))

/-- What dispatch reads of an image: code words, descriptor table and constants (R320). -/
structure PatternImage where
  code : List Nat
  descVa : Nat
  descCount : Nat
  capLevel : Nat
  consts : List Byte
  constOff : Nat
  ties : Bool
deriving DecidableEq, Repr

/-- 64-bit words of bytes. -/
def words64 : Nat → List Byte → List Nat
  | 0, _ => []
  | n + 1, bs => leNat (bs.take 8) :: words64 n (bs.drop 8)

/-- Read and check an image's header (R319), with whether its block carries TIES_AWAY. -/
def readHeader (w : Who) (va : Nat) : CM (List Byte × Bool) := do
  if va % 2048 ≠ 0 then throw (.fail stBadPattern)
  else
    let (hs, _) ← readBlock w va 2048 (blockIdOf w.ctx va) false
    let h := (hs.flatMap (·.data)).take 64
    match (← get).headerCheck w.ctx va h with
    | some st => throw (.fail st)
    | none => return (h, hs.any (·.ties))

/-- Read and check an image (R319, R320). -/
def readPattern (w : Who) (va : Nat) : CM PatternImage := do
  let (h, t) ← readHeader w va
  let (code, t0) ← readImage w (va + fieldAt h 8 4) (fieldAt h 12 4)
  let (consts, t1) ← readImage w (va + fieldAt h 24 4) (fieldAt h 28 4)
  return ⟨words64 (code.length / 8) code, va + fieldAt h 16 4, fieldAt h 20 4, fieldAt h 2 2, consts, fieldAt h 32 3, t0 || t1 || t⟩

/-- An image of which nothing was read. -/
def PatternImage.none : PatternImage := ⟨[], 0, 0, 0, [], 0, false⟩

/-- Each core of a list reads in turn; the first that stops is named. -/
def eachCore {α : Type} (f : Nat → CM α) : List Nat → State → Except (Nat × Stop) (List α) × State
  | [], s => (.ok [], s)
  | k :: ks, s =>
    match (f k).run s with
    | (.error e, s) => (.error (k, e), s)
    | (.ok a, s) =>
      match eachCore f ks s with
      | (.error e, s) => (.error e, s)
      | (.ok as, s) => (.ok (a :: as), s)

/-- Who reads the image of a command on a core. -/
def Cmd.who (c : Cmd) (k : Nat) : Who := { core := k, unit := 0, cmd := c.key, ctx := c.ctx }

/-- What cores have read of an image in another part is used up. -/
def State.endReads (s : State) (cores : List Nat) : State := cores.foldl (fun s k => s.updCore k (fun u => u.endAccess 0)) s

/-! ### Dispatch (R22, R59, R65, R223, R319, R320, R323, R409) -/

/-- A core begins its share of a command. -/
def Core.begin (k : Core) (key x rank : Nat) (img : PatternImage) : Core :=
  { k.stop with
    cmd := some key, ctx := x, rank := rank, cvt := 0, sawTies := img.ties,
    seq := { active := true, code := img.code, descVa := img.descVa, descCount := img.descCount, capLevel := img.capLevel },
    mx := { k.mx with slots := [], held := 0, a21 := [] },
    sync := kmod {} k.sync x (fun g => { g with pairs := [], waiters := [], grants := [] }) }

/-- Begin a command on chosen cores, each with the image that it has read. A replay begins with clear conversion flags, as every
dispatch does (R65), and stays within the partition as it stood at admission (R31). -/
def State.beginOn (s : State) (c : Cmd) (cores : List Nat) (imgs : List PatternImage) (ties replay : Bool) : State :=
  let s := s.updCmd c.key (fun m => { m with
    phase := .running, cores := cores, endedCores := 0, ties := ties, cvt := 0,
    admitted := if replay then m.admitted else (s.part m.part).mask, status := 0, replayDue := false, replayed := m.replayed || replay,
    startedAt := if replay then m.startedAt else s.refCount,
    epoch := if replay then m.epoch else if m.kind = kindStep then s.epochs.epoch else 0,
    epochLast := if replay then m.epochLast else if m.kind = kindStep then s.epochs.epoch else 0 })
  let s := ((List.range cores.length).zip (cores.zip imgs)).foldl (fun s (r, k, img) =>
    ((s.accrueCore k).updCore k (fun u => u.begin c.key c.ctx r img)).writeScr k c.ctx img.constOff img.consts (if ties || img.ties then 2 else 0)) s
  s.updCtx c.ctx (fun x => { x.placed cores with phase := 3, running := if replay then x.running else x.running + 1 })

/-- Begin a command whose image is refused, on the cores that would have run it: nothing of it runs. -/
def State.beginRefused (s : State) (c : Cmd) (cores : List Nat) (ties replay : Bool) : State :=
  (s.endReads cores).beginOn c cores (cores.map (fun _ => PatternImage.none)) ties replay

/-- Dispatch a command: its header, read by the first core of the placement, gives the number of cores; each of them reads and checks
the header, and then the code and the constants (R319, R320). An image that is refused ends the command on all its cores; a bad block
of code or constants is a fault of the core's sequencer (R342, R344). -/
def State.dispatch (s : State) (c : Cmd) (avail : List Nat) (replay : Bool) : State :=
  let ties := replay || s.reduced
  let va := c.u 8 8
  match s.choose c.ctx 1 avail with
  | [] => s
  | k :: _ =>
    match (readHeader (c.who k) va).run s with
    | (.error .wait, s) => s
    | (.error (.fail st), s) =>
      (s.beginRefused c (s.choose c.ctx (min (s.coresWanted c).2 avail.length) avail) ties replay).failCmd c.key k st
    | (.ok (h, _), s) =>
      let (lo, hi) := coreRange h
      let cores := s.choose c.ctx (min hi avail.length) avail
      if avail.length < lo then s
      else
        match eachCore (fun k => readHeader (c.who k) va) cores s with
        | (.error (_, .wait), s) => s
        | (.error (k, .fail st), s) => (s.beginRefused c cores ties replay).failCmd c.key k st
        | (.ok _, s) =>
          match eachCore (fun k => readPattern (c.who k) va) cores s with
          | (.error (_, .wait), s) => s
          | (.error (k, .fail st), s) => (s.beginRefused c cores ties replay).seqFail k st 0 0
          | (.ok imgs, s) => ((s.endReads cores).beginOn c cores imgs ties replay).settle

/-- A head whose broken fence ends it (R353). -/
def State.breakHead (s : State) (c : Cmd) : Option State :=
  if s.fenceBroken c (c.u 16 8) || s.fenceBroken c (c.u 24 8) then some (s.endCmd c.key stFenceFailed) else none

/-- A STEP or JOB of a partition runs. -/
def State.partBusy (s : State) (p : Nat) : Bool :=
  s.cmds.any (fun e => e.2.part = p && e.2.phase = .running && (e.2.kind = kindStep || e.2.kind = kindJob) && !e.2.suspended)

/-- A JOB of a partition runs. -/
def State.jobRuns (s : State) (p : Nat) : Bool :=
  s.cmds.any (fun e => e.2.part = p && e.2.phase = .running && e.2.kind = kindJob && !e.2.suspended)

/-- Admission of a ready head (R392, R393, R398): enough cores, no job in the way, no resume that waits. -/
def State.admits (s : State) (c : Cmd) (avail : List Nat) : Bool :=
  let p := c.part
  (s.coresWanted c).1 ≤ avail.length && !s.jobRuns p && !s.ctxs.any (fun e => e.2.part = p && e.2.resuming) &&
    (if c.kind = kindJob then !s.partBusy p
     else match (s.part p).turn with
       | none => true
       | some h => !((s.ctx h).job && (s.readyHeads h).any (fun d => d.kind = kindJob)))

/-- The head that the scheduler admits next in a partition (R391, R393). -/
def State.nextHead (s : State) (p : Nat) : Option Cmd :=
  let avail := s.oneClass (s.availableCores p)
  let l := s.turnTakers p
  let order := match (s.part p).turn with
    | some h => if l.contains h then h :: (turnAfter h l).filter (· ≠ h) else turnAfter h l
    | none => l
  (order.flatMap s.readyHeads).find? (fun c => s.admits c avail)

/-- Admit the head of a queue, if it is what the scheduler admits next. -/
def State.admitHead (s : State) (q kind : Nat) : State :=
  match s.head? q with
  | none => s
  | some c =>
    if c.kind ≠ kind then s
    else
      match s.breakHead c with
      | some s => s
      | none =>
        let s := s.passTurn c.part
        match s.nextHead c.part with
        | none => s
        | some d => if d.key = c.key then s.dispatch c (s.oneClass (s.availableCores c.part)) false else s

/-- STEP (R19, R392). -/
def execStep (q : QueueId) (s : State) : Host.Outcome State Fault Refusal := .next (s.admitHead q kindStep)

/-- JOB (R392). -/
def execJob (q : QueueId) (s : State) : Host.Outcome State Fault Refusal := .next (s.admitHead q kindJob)

/-- MARKER (R350, R390). -/
def execMarker (q : QueueId) (s : State) : Host.Outcome State Fault Refusal :=
  match s.head? q with
  | none => .next s
  | some c =>
    if c.kind ≠ kindMarker then .next s
    else
      match s.breakHead c with
      | some s => .next s
      | none => .next (if s.ready c then s.endCmd c.key stOk else s)

/-- STEP_REPLAY (R26, R31, R340, R428): once, on other cores of the partition as it stood at admission, under ties away. -/
def execStepReplay (q : QueueId) (seq : BitVec 48) (s : State) : Host.Outcome State Fault Refusal :=
  let key := cmdKey q seq.toNat
  match s.cmd? key with
  | none => .next s
  | some c =>
    let avail := s.oneClass ((s.availableCores c.part).filter (fun k => !c.badCores.testBit k && c.admitted.testBit k))
    if !c.replayDue || c.phase ≠ .running || avail.length < (s.coresWanted c).1 || avail.isEmpty then .next s
    else
      let s := s.updCmd key (fun m => { m with enqs := m.enqs.map (fun e => { e with filled := false }) })
      let s := s.withdraw (fun a => a.isLocal && a.cmd = key) (fun _ => false) true
      .next (s.dispatch c avail true)

/-! ### Windows and moves (R384, R386) -/

/-- Clear the units of a window on a core to zero. -/
def State.clearUnits (s : State) (c : Nat) (units : List Nat) : State :=
  s.updCore c (fun k => { k with
    scratch := k.scratch.filter (fun e => !units.contains (e.1 / 32768)),
    sflags := k.sflags.filter (fun e => !units.contains (e.1 * 64 / 32768)) })

/-- Contexts of a partition. -/
def State.ctxsOf (s : State) (p : Nat) : List Nat := (s.ctxs.filter (fun e => e.2.phase ≠ 0 && e.2.part = p)).map (·.1)

/-- Resident contexts of a partition. -/
def State.residents (s : State) (p : Nat) : List Nat := (s.ctxsOf p).filter (fun x => (s.ctx x).resident)

/-- Clear the windows that a partition's resident contexts have on a core (R384, R476). -/
def State.zeroWindows (s : State) (c p : Nat) : State := (s.residents p).foldl (fun s x => s.clearUnits c (s.ctx x).units) s

/-- A core leaves or joins a partition: the windows and synchronisation sets of the partition's contexts on it go, or start at zero
(R384, R409). -/
def State.resetWindows (s : State) (c p : Nat) (joins : Bool) : State :=
  let s := s.zeroWindows c p
  let xs := s.ctxsOf p
  let fresh : KMap SyncSet := if joins then (s.residents p).map (fun x => (x, {})) else []
  let s := s.updCore c (fun k => { k with sync := fresh.foldl (fun m e => kput m e.1 e.2) (k.sync.filter (fun e => !xs.contains e.1)) })
  xs.foldl (fun s x => if (s.ctx x).phase = 5 then s.updCtx x (fun v => { v with saved := kdel v.saved c }) else s) s

/-- PARTITION_SETs end once every pending move has (R383). -/
def State.movesDone (s : State) : State :=
  if (List.range 128).any s.moving? then s
  else { s.moveOps.foldl (fun s o => s.opEnd (some o) stOk []) s with moveOps := [] }

/-- CORE_MOVE (R383, R384). -/
def execCoreMove (c : CoreId) (s : State) : Host.Outcome State Fault Refusal :=
  if !s.moving? c || (s.core c).cmd.isSome then .next s
  else
    let old := leastBelow 16 (fun p => (s.part p).mask.testBit c)
    let new := leastBelow 16 (fun p => (s.part p).target.testBit c)
    let s := match old with
      | none => s
      | some p => (s.resetWindows c p false).updPart p (fun q => { q with mask := q.mask - 2 ^ c.val })
    let s := match new with
      | none => s
      | some p => (s.resetWindows c p true).updPart p (fun q => { q with mask := q.mask ||| 2 ^ c.val })
    .next ((old.toList ++ new.toList).foldl State.idleBoundary s).movesDone

/-! ### Residency (R387, R399, R400) -/

/-- Units of 32 KiB that no resident context of a partition holds. -/
def State.freeUnits (s : State) (p : Nat) : List Nat :=
  let used := (s.residents p).flatMap (fun x => (s.ctx x).units)
  (List.range 64).filter (fun u => !used.contains u)

/-- A resident place and the units of a window are free (R387). -/
def State.roomFor (s : State) (p window : Nat) : Bool := (s.residents p).length < 64 && window ≤ (s.freeUnits p).length

/-- The cores of a mask. -/
def State.maskCores (s : State) (p : Nat) : List Nat := bitList 128 (s.part p).mask

/-- Device offset of a byte of a context's save area, while it maps to memory of this part (R385, R432). -/
def State.savePlace (s : State) (x off : Nat) : Option Nat :=
  let va := (s.ctx x).saveAddr + off
  match (s.rootOf false x).map (s.walkFrom va 2) with
  | some (.leaf e pva _ _) =>
    let pa := bitsOf e 47 8 * 256 + (va - pva)
    if bitsOf e 3 2 = 1 && pa / devSize = s.pool.partId then some (pa % devSize) else none
  | _ => none

/-- The 64 KiB block that holds the state of R396 after the windows (R385). -/
def State.stateBlock (s : State) (x : Nat) : Nat := 128 * s.winSize x / 65536

/-- The blocks of a save area that entries' windows meet, and the state block: entry `i` has its window at `i` times the window's size
(log entry 30). -/
def State.saveBlocks (s : State) (x : Nat) (entries : List Nat) : List Nat :=
  let n := s.winSize x
  (List.range (s.stateBlock x)).filter (fun b => entries.any (fun i => i * n < 65536 * (b + 1) && 65536 * b < (i + 1) * n)) ++ [s.stateBlock x]

/-- Write a 64 KiB block of a save area with its tag and default id; its words keep their flags (R463, R465, R469). -/
def State.saveBlock (s : State) (x b : Nat) (bs : List Byte) (flags : List Nat) : State :=
  match s.savePlace x (65536 * b) with
  | none => s
  | some a =>
    let tag := selvage bs (blockIdOf x ((s.ctx x).saveAddr + 65536 * b))
    s.writeDev a bs (fun w _ => let f := nthD 0 flags (w - a / 64); blockMeta 1024 (w - a / 64) tag (bitAt f 1) (bitAt f 0))

/-- A 32 KiB piece of the window of an entry, saved from a core or zero where the context has no window, with its words' flags. -/
def State.savePiece (s : State) (x off : Nat) (entries : KMap (Option Nat)) : List Byte × List Nat :=
  let n := s.winSize x
  match (kfind entries (off / n)).join with
  | none => (List.replicate 32768 0, List.replicate 512 0)
  | some c => (s.scr c x (off % n) 32768, (List.range 512).map (fun i => s.scrFlags c x (off % n + 64 * i)))

/-- Write a context's save area (R396, R400, R463): each entry's window from its core, and the state block, of which the spec gives no
bytes: free values (log entries 6, 30). -/
def State.saveArea (s : State) (x : Nat) (entries : KMap (Option Nat)) : State :=
  let (s, d) := s.draw
  (s.saveBlocks x (entries.map (·.1))).foldl (fun t b =>
    if b = s.stateBlock x then t.saveBlock x b (leBytes 65536 (Config.freeValue 8 d)) []
    else
      let p := s.savePiece x (65536 * b) entries
      let q := s.savePiece x (65536 * b + 32768) entries
      t.saveBlock x b (p.1 ++ q.1) (p.2 ++ q.2)) s

/-- Read and check a context's save area (R464): SELVAGE_MISMATCH where a block fails its check, POISON_CONSUMED where the state block is
poisoned (R469); poison in a window moves with its words. -/
def State.readSave (s : State) (x : Nat) : State × Nat :=
  let v := s.ctx x
  if v.saved.isEmpty then (s, stOk)
  else
    (s.saveBlocks x (v.saved.map (·.1))).foldl (fun (r : State × Nat) b =>
      let va := v.saveAddr + 65536 * b
      match s.savePlace x (65536 * b) with
      | none => if r.2 ≠ stOk then r else (r.1.badBlock { event := 0, ctx := x, addr := va }, stSelvageMismatch)
      | some a =>
        let t := r.1.touch a 65536
        let k := t.checkBlock a 65536 (blockIdOf x va)
        if r.2 ≠ stOk then r
        else if k = 1 || k = 3 then (t.badBlock { event := 0, ctx := x, addr := va, blockId := blockIdOf x va }, stSelvageMismatch)
        else if k = 2 && b = s.stateBlock x then (t.consume { event := 0, ctx := x, addr := va, blockId := blockIdOf x va }, stPoisonConsumed)
        else (t, stOk)) (s, stOk)

/-- Swap traffic of a context's entry `i` in its save area, charged to its partition's class at the DRAM schedulers (R400): the window, and
512 bytes of synchronisation state after all the windows (log entry 30). -/
def State.saveTraffic (s : State) (x cls i : Nat) : State :=
  let v := s.ctx x
  let n := s.winSize x
  [(i * n, n), (128 * n + 512 * i, 512)].foldl (fun s (e : Nat × Nat) =>
    match s.savePlace x e.1 with
    | some a => s.dramCharge (bucketKey v.part cls) a e.2
    | none => s) s

/-- Swap a context out (R400, R427): its synchronisation state and windows go to the save area, by core. -/
def State.swapOut (s : State) (x : Nat) : State :=
  let v := s.ctx x
  let saved := (s.maskCores v.part).map (fun c =>
    let g := (s.core c).set x
    (c, ({ tallies := g.tallies, pairs := g.pairs } : SavedCore)))
  let s := s.saveArea x ((s.maskCores v.part).map (fun c => (c, some c)))
  let s := (s.maskCores v.part).foldl (fun s c => (s.saveTraffic x 1 c).updCore c (fun k => { k with sync := kdel k.sync x })) s
  s.updCtx x (fun v => { v with phase := 5, resident := false, units := [], saved := saved, readySince := 0 })

/-- Put a window back on a core: from entry `i` of the save area with its words' flags, or zeros (R386, R400). -/
def State.putWindow (s : State) (c x : Nat) (i : Option Nat) : State :=
  let u := (s.ctx x).units
  let s := s.clearUnits c u
  match i with
  | none => s
  | some i =>
    let n := s.winSize x
    (List.range (s.ctx x).window).foldl (fun s j =>
      match s.savePlace x (i * n + 32768 * j) with
      | none => s
      | some a => s.updCore c (fun k => { k with
          scratch := writeWin u k.scratch (32768 * j) (s.devBytes a 32768),
          sflags := (List.range 512).foldl (fun m w =>
            let l := s.lineMeta (a / 64 + w)
            kset 0 m (winAddr u (32768 * j + 64 * w) / 64) (b2n l.poison + 2 * b2n l.ties)) k.sflags })) s

/-- Make a context resident: units, and on every core its saved window and synchronisation state, or zeros (R386, R400). -/
def State.swapIn (s : State) (x phase : Nat) : State :=
  let v := s.ctx x
  let units := (s.freeUnits v.part).take v.window
  let s := s.updCtx x (fun v => { v with phase := phase, resident := true, units := units })
  let s := (s.maskCores v.part).foldl (fun s c =>
    let sv := kget {} v.saved c
    let there := (kfind v.saved c).isSome
    let s := if there then s.saveTraffic x 0 c else s
    (s.putWindow c x (if there then some c else none)).updCore c (fun k => { k with sync := kput k.sync x { tallies := sv.tallies, pairs := sv.pairs } })) s
  s.updCtx x (fun v => { v with saved := [] })

/-- A context whose queue a fence of another resident context's head names and awaits (R399). -/
def State.producer (s : State) (p x : Nat) : Bool :=
  (s.residents p).any (fun y => y ≠ x && (s.ctxQueues y).any (fun q => match s.head? q with
    | none => false
    | some c => (s.waitsOn c).any (fun w => (s.queue w.1).ctx = x)))

/-- The next victim of a partition (R399). -/
def State.victim (s : State) (p : Nat) : Option Nat :=
  let oldest := fun (l : List Nat) => (sortBy (fun x => (s.ctx x).since) l).head?
  let rs := s.residents p
  ((oldest (rs.filter (fun x => (s.ctx x).phase = 1))).or
    (oldest (rs.filter (fun x => (s.ctx x).phase = 4 && !s.producer p x)))).or
    (oldest (rs.filter (fun x => (s.ctx x).phase = 4)))

/-- Swap victims out until a window fits, at most `n`. -/
def State.makeRoom : Nat → State → Nat → Nat → State
  | 0, s, _, _ => s
  | n + 1, s, p, w =>
    if s.roomFor p w then s
    else match s.victim p with
      | none => s
      | some v => State.makeRoom n (s.swapOut v) p w

/-- CONTEXT_SWAP (R399, R400): the swapped context whose head has been ready longest obtains residency; where its save area fails its
check, or `bad` says that it was corrupted on its way, the context is torn down (R464). -/
def execContextSwap (x : CtxId) (bad : Bool) (s : State) : Host.Outcome State Fault Refusal :=
  let v := s.ctx x
  let waiting := (s.ctxsOf v.part).filter (fun y => (s.ctx y).phase = 5 && s.ctxReady y)
  if (sortBy (fun y => (s.ctx y).readySince) waiting).head? ≠ some x.val then .next s
  else
    let s := State.makeRoom 64 s v.part v.window
    .next (if !s.roomFor v.part v.window then s
      else if bad then ((s.badBlock { event := 0, ctx := x, addr := v.saveAddr }).tear x stSelvageMismatch).settle
      else
        let (s, st) := s.readSave x
        if st ≠ stOk then (s.tear x st).settle else (s.swapIn x 2).settle)

/-! ### Teardown (R401) -/

/-- CONTEXT_TEARDOWN: once every command of a context in TEARING has ended, its windows, place, synchronisation state and
translation context go; its queues keep its partition. In a self-reset or an FLR, a host-facing context whose last running command
has ended is torn down first, and the reset goes on once none is left (R536, R539). -/
def execContextTeardown (x : CtxId) (s : State) : Host.Outcome State Fault Refusal :=
  let s := if s.frozen x && (s.ctx x).phase ≠ 7 then (s.tearIdle x).endDrains else s
  let v := s.ctx x
  if v.phase ≠ 7 || s.ctxBusy x then .next s
  else
    let drop := fun (k : Core) => { k with sync := kdel k.sync x }
    let s : State := { s with cores := s.cores.map (fun (e : Nat × Core) => (e.1, drop e.2)),
                              xlt := { s.xlt with ctxRoot := kdel s.xlt.ctxRoot x, ctxPasid := kdel s.xlt.ctxPasid x } }
    let s := s.opEnd v.op stOk []
    let s := s.updPart v.part (fun q => if q.turn = some x.val then { q with turn := none, turnLast := some x.val, charge := 0 } else q)
    .next (s.updCtx x (fun _ => { part := v.part }))

/-! ### Suspension (R396 to R398, R427) -/

/-- What a suspension saves of one core of the job. -/
def State.saveCore (s : State) (c x : Nat) : SavedCore :=
  let k := s.core c
  let g := k.set x
  { pc := k.seq.pc, regs := (List.range 16).map k.seq.g, buf0 := k.seq.buf0, buf1 := k.seq.buf1, valid0 := k.seq.valid0,
    valid1 := k.seq.valid1, enqs := k.seq.enqs, cvt := k.cvt, tallies := g.tallies, pairs := g.pairs,
    ended := k.seq.ended, sawTies := k.sawTies, fetch := k.seq.fetch }

/-- The running JOB of a context. -/
def State.jobOf (s : State) (x : Nat) : Option Cmd :=
  (s.cmds.find? (fun e => e.2.ctx = x && e.2.kind = kindJob && e.2.phase = .running)).map (·.2)

/-- Go on with a suspension: once the issued descriptors have ended the state is saved by rank, and the cores are free. -/
def State.suspend (s : State) (x : Nat) : State :=
  match s.jobOf x with
  | none => s
  | some c =>
    if !(s.ctx x).suspending || !s.cmdDrained c || s.xlt.faults.any (fun f => f.accesses.any (fun a => a.cmd = c.key)) then s
    else
      let on := s.coresOn c
      let s := s.withdraw (fun a => a.isLocal && a.cmd = c.key) (fun k => on.contains (k % 128)) false
      let saved := on.map (fun k => ((s.core k).rank, s.saveCore k x))
      let s := s.saveArea x (on.foldl (fun m k => kput m (s.core k).rank (some k)) [])
      let s := (s.charge c).updCmd c.key (fun m => { m with suspended := true })
      let s := on.foldl (fun s k => (s.accrueCore k).updCore k Core.stop) s
      let s := s.opEnd (s.ctx x).op stOk []
      s.updCtx x (fun v => { v with phase := 6, suspending := false, op := none,
                                    saved := saved.foldl (fun m e => kput m e.1 e.2) [] })

/-- A rank of a resumed job begins on a core with its saved state (R398). -/
def State.resumeCore (s : State) (c : Cmd) (k rank : Nat) (img : PatternImage) (sv : SavedCore) : State :=
  let s := (s.accrueCore k).updCore k (fun u =>
    let u := u.begin c.key c.ctx rank img
    { u with
      cvt := sv.cvt, sawTies := sv.sawTies || img.ties,
      seq := { u.seq with active := !sv.ended, ended := sv.ended, pc := sv.pc, enqs := sv.enqs, buf0 := sv.buf0, buf1 := sv.buf1,
                          valid0 := sv.valid0, valid1 := sv.valid1, fetch := sv.fetch,
                          regs := ((List.range 16).zip sv.regs).foldl (fun m e => kset 0 m e.1 e.2) [] },
      sync := kput u.sync c.ctx { tallies := sv.tallies, pairs := sv.pairs } })
  s.putWindow k c.ctx (some rank)

/-- Go on with a resume, once as many cores are available as the job had (R398); a save area that fails its check tears the context
down (R464). -/
def State.resume (s : State) (x : Nat) (bad : Bool) : State :=
  match s.jobOf x with
  | none => s
  | some c =>
    let v := s.ctx x
    let avail := s.oneClass (s.availableCores v.part)
    let n := v.saved.length
    let cores := s.choose x n avail
    if !v.resuming || avail.length < n then s
    else if bad then (s.badBlock { event := 0, ctx := x, addr := v.saveAddr }).tear x stSelvageMismatch
    else if (s.readSave x).2 ≠ stOk then (s.readSave x).1.tear x (s.readSave x).2
    else
      match eachCore (fun k => readPattern (c.who k) (c.u 8 8)) cores s with
      | (.error (_, .wait), s) => s
      | (.error (k, .fail st), s) =>
        let r := cores.findIdx (· = k)
        let pc := (kget {} v.saved r).pc
        let s := s.updCore k (fun u => { ({ u with seq := { u.seq with pc := pc } } : Core).recordFault st 0 0 with seq := u.seq })
        ((s.endReads cores).updCtx x (fun v => { v with resuming := false })).failCmd c.key k st
      | (.ok imgs, s) =>
        let s := ((s.readSave x).1).endReads cores
        let s := ((List.range n).zip (cores.zip imgs)).foldl (fun s (r, k, img) => s.resumeCore c k r img (kget {} v.saved r)) s
        let s := s.updCmd c.key (fun m => { m with suspended := false, cores := cores, startedAt := s.refCount })
        s.updCtx x (fun v => { v.placed cores with phase := 3, resuming := false, saved := [] })

/-- CONTEXT_SUSPEND (R397): accepted, or, issued again, goes on with the suspensions that wait for their engines. -/
def execContextSuspend (f : FnId) (slot : Fin 28) (s : State) : Host.Outcome State Fault Refusal :=
  let s := s.ctxs.foldl (fun s e => s.suspend e.1) s
  .next (s.serve f slot 0x0206 true (fun r s =>
    let x := r.u 0 1
    checks s [(!r.zeros 1 3, stBadPattern),
              ((s.ctx x).phase ≠ 3 || (s.jobOf x).isNone || (s.ctx x).suspending, stContextConflict)]
      (.async (fun s id => (s.updCtx x (fun v => { v with suspending := true, op := some (f.val, id) })).suspend x))))

/-- CONTEXT_RESUME (R398): accepted, or, issued again, goes on with the resumes that wait for cores; `bad` says that the save areas
read were corrupted on their way (R464). -/
def execContextResume (f : FnId) (slot : Fin 28) (bad : Bool) (s : State) : Host.Outcome State Fault Refusal :=
  let s := s.ctxs.foldl (fun s e => s.resume e.1 bad) s
  .next (s.serve f slot 0x0207 true (fun r s =>
    let x := r.u 0 1
    checks s [(!r.zeros 1 3, stBadPattern), ((s.ctx x).phase ≠ 6 || (s.ctx x).resuming, stContextConflict)]
      (.done ((s.updCtx x (fun v => { v with resuming := true })).resume x bad) stOk [])))

/-! ### Control operations (R402, R403) -/

/-- Entries of a PARTITION_SET: partition and mask. -/
def Req.masks (r : Req) : List (Nat × Nat) := (List.range (r.u 0 1)).map (fun i => (r.u (8 + 24 * i) 1, r.u (16 + 24 * i) 16))

/-- Every two of the numbers share no bit. -/
def disjoint : List Nat → Bool
  | [] => true
  | m :: ms => ms.all (fun n => m &&& n = 0) && disjoint ms

/-- PARTITION_SET (R383). -/
def execPartitionSet (f : FnId) (slot : Fin 28) (s : State) : Host.Outcome State Fault Refusal :=
  .next (s.serve f slot 0x0201 true (fun r s =>
    let n := r.u 0 1
    let es := r.masks
    let twice := es.any (fun e => 1 < (es.filter (fun d => d.1 = e.1)).length)
    let target := es.foldl (fun (m : KMap Partition) (e : Nat × Nat) => kmod {} m e.1 (fun (q : Partition) => { q with target := e.2 })) s.parts
    checks s [(n = 0 || 8 < n || !r.zeros 1 7 || es.any (fun e => 16 ≤ e.1) ||
                (List.range n).any (fun i => !r.zeros (9 + 24 * i) 7), stBadPattern),
              (twice || !disjoint (target.map (fun (e : Nat × Partition) => e.2.target)), stPartitionInvalid)]
      (.async (fun s id => ({ s with parts := target, moveOps := s.moveOps ++ [(f.val, id)] } : State).movesDone))))

/-- PARTITION_QUERY. -/
def execPartitionQuery (f : FnId) (slot : Fin 28) (s : State) : Host.Outcome State Fault Refusal :=
  .next (s.serve f slot 0x0202 false (fun r s =>
    let p := r.u 0 1
    let q := s.part p
    let pend := (List.range 128).filter (fun c => q.mask.testBit c != q.target.testBit c)
    checks s [(r.foreign p, stProtection), (16 ≤ p || !r.zeros 1 3, stBadPattern)]
      (.done s stOk (leBytes 16 q.mask ++ leBytes 16 q.target ++ leBytes 1 (s.availableCores p).length ++ leBytes 1 pend.length ++
        leBytes 2 (s.residents p).length ++ leBytes 2 (s.ctxsOf p).length ++ leBytes 1 (q.turn.getD 0)))))

/-- The save area lies in DEVICE leaves to this part's memory under a page table (R385, R403). -/
def State.saveMapped (s : State) (root va n : Nat) : Bool :=
  va + n ≤ 2 ^ 52 && (List.range (cdiv n (2 ^ 25))).all (fun i =>
    match s.walkFrom (va + i * 2 ^ 25) 2 root with
    | .leaf e pva _ _ => bitsOf e 3 2 = 1 && bitAt e 4 && bitAt e 5 && (bitsOf e 47 8 * 256 + (va + i * 2 ^ 25 - pva)) / devSize = s.pool.partId
    | _ => false)

/-- The context that CONTEXT_CREATE takes: the lowest absent one, first among those that no queue names any more (R385; log entry 33). -/
def State.absentCtx (s : State) : Option Nat :=
  (leastBelow 256 (fun x => (s.ctx x).phase = 0 && (s.ctxQueues x).isEmpty)).or (leastBelow 256 (fun x => (s.ctx x).phase = 0))

/-- Store a new context's empty state in its save area (R389). -/
def State.saveEmpty (s : State) (x : Nat) : State :=
  let cs := s.maskCores (s.ctx x).part
  (s.saveArea x (cs.map (fun c => (c, none)))).updCtx x (fun v => { v with saved := cs.map (fun c => (c, {})) })

/-- CONTEXT_CREATE (R385, R387, R389). -/
def execContextCreate (f : FnId) (slot : Fin 28) (s : State) : Host.Outcome State Fault Refusal :=
  .next (s.serve f slot 0x0203 false (fun r s =>
    let p := r.u 0 1
    let w := r.u 2 1
    let slice := r.u 4 4
    let root := r.u 8 8
    let save := r.u 16 8
    let bad := 16 ≤ p || 1 < r.u 1 1 || w = 0 || 64 < w || !r.zeros 3 1 || slice < 50 || 10000 < slice || 2 ^ 38 ≤ root ||
      root % 32768 ≠ 0 || save % 2 ^ 25 ≠ 0 || !s.saveMapped root save (128 * w * 32768 + 65536)
    let free := s.absentCtx
    checks s [(r.foreign p, stProtection), (bad, stBadPattern), (free.isNone, stContextConflict)]
      (let x := free.getD 0
       let s := { s with ctxs := kput s.ctxs x { phase := 5, part := p, job := r.u 1 1 = 1, window := w, sliceUs := slice, ptRoot := root,
                                                 saveAddr := save, since := s.refCount },
                         xlt := { s.xlt with ctxRoot := kput s.xlt.ctxRoot x root } }
       .done (if s.roomFor p w then s.swapIn x 1 else s.saveEmpty x) stOk (leBytes 1 x))))

/-- Refusals of a request that names a context (R402, R403). -/
def State.ctxChecks (s : State) (f x : Nat) (bad : Bool) : List (Bool × Nat) :=
  [(s.strangeCtx f x, stProtection), (bad, stBadPattern), ((s.ctx x).phase = 0, stContextConflict)]

/-- CONTEXT_DESTROY (R401): answered when the context is ABSENT. -/
def execContextDestroy (f : FnId) (slot : Fin 28) (s : State) : Host.Outcome State Fault Refusal :=
  .next (s.serve f slot 0x0204 false (fun r s =>
    let x := r.u 0 1
    checks s (s.ctxChecks f x (!r.zeros 1 3) ++ [((s.ctx x).phase = 7 && (s.ctx x).op.isSome, stContextConflict)])
      (.async (fun s id => (s.tear x stContextTornDown).updCtx x (fun v => { v with op := some (f.val, id) })))))

/-- SCH_CTX_STATE (R405). -/
def State.ctxState (s : State) (x : Nat) : Nat :=
  let v := s.ctx x
  if v.phase = 0 then 0
  else v.phase + b2n ((s.part v.part).turn = some x) * 2 ^ 3 + b2n v.job * 2 ^ 32 + v.part * 2 ^ 36 + (v.window - 1) * 2 ^ 40 +
    v.running % 256 * 2 ^ 48 + v.placeGen * 2 ^ 56

/-- CONTEXT_QUERY. -/
def execContextQuery (f : FnId) (slot : Fin 28) (s : State) : Host.Outcome State Fault Refusal :=
  .next (s.serve f slot 0x0205 false (fun r s =>
    let x := r.u 0 1
    let v := s.ctx x
    checks s (s.ctxChecks f x (!r.zeros 1 3))
      (.done s stOk (leBytes 8 (s.ctxState x) ++ leBytes 16 v.place ++ leBytes 8 v.since ++
        leBytes 8 (if (s.part v.part).turn = some x then s.chargeNow v.part else 0)))))

/-- CONTEXT_SET (R402, R403): the new SLICE takes effect at the context's next turn. -/
def execContextSet (f : FnId) (slot : Fin 28) (s : State) : Host.Outcome State Fault Refusal :=
  .next (s.serve f slot 0x0208 false (fun r s =>
    let x := r.u 0 1
    checks s (s.ctxChecks f x (!r.zeros 1 3 || r.u 4 4 < 50 || 10000 < r.u 4 4))
      (.done (s.updCtx x (fun v => { v with nextSlice := some (r.u 4 4) })) stOk [])))

end Sys2Proof.Machine
end

