-- ==== Sys2Proof/Machine/BarrierUnit.lean ====
section
/-! DEFINITION. The barrier unit (R420 to R428) and its query (R431). -/

namespace Sys2Proof.Machine

open Sys2Proof

/-- Largest ROUND (R420). -/
abbrev roundMax : Nat := 0xFFFFFFFFFFFF

/-- Why an arrival is refused (R425). -/
def State.arrivalRefused (s : State) (a : Arrival) : Option Barrier → Option Nat
  | none => some stBarrierMisuse
  | some b =>
    let e := b.entries.find? (fun e => e.pid = a.pid)
    let beyond := match e with | none => b.count ≤ b.entries.length | some e => b.round + 1 < e.lastGen
    let full := !s.barriers.any (fun c => c.addr = b.addr) && 64 ≤ (s.barriers.filter (fun c => c.part = b.part)).length
    if a.addr % 64 ≠ 0 || beyond || b.round = roundMax || full then some stBarrierMisuse
    else if a.isLocal && a.part ≠ b.part then some stProtection
    else none

/-- Steps 1 to 3 of R423: the arrival is counted or held. The flag says that it was counted. -/
def Barrier.arrive (b : Barrier) (a : Arrival) : Barrier × Bool :=
  let b := if b.entries.any (fun e => e.pid = a.pid) then b else { b with entries := b.entries ++ [⟨a.pid, 0, false, none, none⟩] }
  let counts := (b.entries.find? (fun e => e.pid = a.pid)).any (fun e => e.lastGen ≤ b.round)
  let upd := fun (f : Participant → Participant) => b.entries.map (fun e => if e.pid = a.pid then f e else e)
  if counts then
    ({ b with arrived := b.arrived + 1, lastPid := a.pid,
              entries := upd (fun e => { e with lastGen := b.round + 1, counted := some a }) }, true)
  else ({ b with held := b.held + 1, entries := upd (fun e => { e with hold := true, arrival := some a }) }, false)

/-- Step 4 of R423, at most `n` times: rounds complete; the arrivals released are listed. -/
def Barrier.rounds : Nat → Barrier → Barrier × List Arrival
  | 0, b => (b, [])
  | n + 1, b =>
    if b.arrived ≠ b.count then (b, [])
    else
      let held := b.entries.filter (·.hold)
      let b' := { b with
        round := b.round + 1, arrived := b.held, held := 0,
        lastPid := match held with | [] => b.lastPid | e :: _ => e.pid,
        entries := b.entries.map (fun e => if e.hold then { e with hold := false, lastGen := b.round + 2, arrival := none, counted := e.arrival } else e) }
      let r := Barrier.rounds n b'
      (r.1, held.filterMap (·.arrival) ++ r.2)

/-- A counted arrival is released: its unit goes on, or its part is answered (R423). -/
def State.releaseArrival (s : State) (a : Arrival) : State :=
  match a.hdr with
  | some h => s.serviceSend (h.srcCluster % 16) h.srcPart (.arriveAck h 0)
  | none => if (s.core a.core).cmd = some a.cmd then s.arrived a.core (a.pid / 2 ^ 25 % 2) else s

/-- A refused arrival fails its command (R425). -/
def State.refuseArrival (s : State) (a : Arrival) (status : Nat) : State :=
  match a.hdr with
  | some h => s.serviceSend (h.srcCluster % 16) h.srcPart (.arriveAck h status)
  | none => if (s.core a.core).cmd = some a.cmd then s.failCmd a.cmd a.core status else s

/-- Waiting units whose participant's arrival belongs to a completed round wait no more (R424). -/
def State.wakeWaiters (s : State) (b : Barrier) : Barrier :=
  { b with waiters := b.waiters.filter (fun w =>
      let k := s.core (w % 128)
      let pid := pidOf s.pool.partId k.ctx k.rank (w / 128)
      !b.entries.any (fun e => e.pid = pid && e.lastGen ≤ b.round)) }

/-- BARRIER_ARRIVAL (R422, R423, R425): the first arrival on its way reaches the barrier unit. -/
def execBarrierArrival (s : State) : Host.Outcome State Fault Refusal :=
  match s.arrivals with
  | [] => .next s
  | a :: rest =>
    let s := { s with arrivals := rest }
    let found := s.barrierAt a.addr
    match s.arrivalRefused a found, found with
    | some st, _ => .next (s.refuseArrival a st)
    | none, none => .next s
    | none, some b =>
      let (b1, counted) := b.arrive a
      let (b2, released) := b1.rounds 3
      let b2 := s.wakeWaiters b2
      let s := if b2.round ≠ b.round then s.writePlain b2.addr b2.bytes else s
      let s := s.putBarrier b2
      let s := if counted then s.releaseArrival a else s
      .next (released.foldl (fun s a => s.releaseArrival a) s)

/-- BARRIER_HOLD_TIMEOUT (R423): a held arrival outlasts its command's timeout. -/
def execBarrierHoldTimeout (q : QueueId) (seq : BitVec 48) (s : State) : Host.Outcome State Fault Refusal :=
  let key := cmdKey q seq.toNat
  let held := s.barriers.any (fun b => b.entries.any (fun e => e.hold && e.arrival.any (fun a => a.isLocal && a.cmd = key)))
  .next (if held then s.expire key else s)

/-- BARRIER_QUERY (R431). -/
def execBarrierQuery (f : FnId) (slot : Fin 28) (s : State) : Host.Outcome State Fault Refusal :=
  .next (s.serve f slot 0x0A01 false (fun r s =>
    let x := r.u 0 1
    let va := r.u 8 8
    checks s [(s.strangeCtx f x, stProtection), (va % 64 ≠ 0, stBadPattern)]
      (match s.xlateCp false x va false true with
       | (t, .ok (.dev pa)) =>
         let a := pa % devSize
         if pa / devSize ≠ s.pool.partId then .done t stOk (leBytes 42 2)
         else
           match s.barriers.find? (fun b => b.addr = a) with
           | some b =>
             .done t stOk (leBytes 2 1 ++ leBytes 2 b.count ++ leBytes 2 b.arrived ++ leBytes 2 b.held ++ leBytes 8 b.round ++
               leBytes 8 b.lastPid ++ leBytes 16 (bitMask (b.waiters.map (· % 128))) ++ leBytes 2 b.entries.length)
           | none =>
             let h := s.devBytes a 64
             .done t stOk (leBytes 2 0 ++ leBytes 2 (fieldAt h 0 2 % 512) ++ leBytes 2 (fieldAt h 4 2 % 512) ++
               leBytes 2 (fieldAt h 6 2 % 512) ++ leBytes 8 (fieldAt h 8 6) ++ leBytes 8 (fieldAt h 16 4) ++ leBytes 16 0 ++
               leBytes 2 (fieldAt h 14 2 % 512))
       | (t, _) => refuse t stBadPattern)))

end Sys2Proof.Machine
end

