-- ==== Sys2Proof/Machine/Tables.lean ====
section
/-! DEFINITION. Tables (R72 to R90, R591), and the pool's control operations on shard maps and splits (R149, R180, R181). -/

namespace Sys2Proof.Machine

open Sys2Proof

/-! ### Reading for control operations (R432, R433) -/

/-- The access of a control operation of a function. -/
def cpWho (f : Nat) : Who := { isFn := true, ctx := f }

/-- What the CP has read for an operation is forgotten at its end. -/
def State.cpDone (s : State) : State := s.updCore 128 (fun k => { k with rbuf := [], rpend := [], rfail := 0 })

/-- Bytes of a stream read by firmware; poison is consumed (R469). -/
def readCp (w : Who) (va n : Nat) : CM (List Byte) := do
  if 2 ^ 52 < va + n then throw (.fail stBadPattern)
  else
    let (bs, poison, _) ← readStream w va n
    if poison then
      modify (fun s => s.consume { event := 0, unit := 0x0D, addr := va })
      throw (.fail stPoisonConsumed)
    else return bs

/-- Run the work of an operation: it answers, its row is issued again, or it fails with a status. -/
def cpRun {α : Type} (s : State) (m : CM α) (k : State → α → Reply) : Reply :=
  match m.run s with
  | (.ok a, s) => k s.cpDone a
  | (.error .wait, s) => .wait s
  | (.error (.fail st), s) => .done s.cpDone st []

/-! ### Units that firmware holds (R591) -/

/-- Units of 32 MiB below the capture area. -/
abbrev unitCount : Nat := 0x1FF6

/-- Units of the tables and of firmware's own structures. -/
def State.unitsHeld (s : State) : List Nat := s.tables.flatMap (fun e => e.2.units) ++ s.firmUnits.flatMap (·.2)

/-- FIRM_LOW: the lowest unit held, else the capture area. -/
def State.firmLow (s : State) : Nat := s.unitsHeld.foldl min unitCount * 2 ^ 25

/-- The `n` highest units below `u` that are not held, put before `acc`. -/
def topUnits (held : List Nat) : Nat → Nat → List Nat → List Nat
  | 0, _, acc => acc
  | u + 1, n, acc =>
    if n = 0 then acc
    else if held.contains u then topUnits held u n acc
    else topUnits held u (n - 1) (u :: acc)

/-- The `n` highest units not held, rising; none where there are fewer. -/
def State.takeUnits (s : State) (n : Nat) : Option (List Nat) :=
  let l := topUnits s.unitsHeld unitCount n []
  if l.length < n then none else some l

/-- Whole units that `bytes` bytes take. -/
def unitsFor (bytes : Nat) : Nat := cdiv bytes (2 ^ 25)

/-- Units that firmware's structures take (R591), by the sizes that their rules give: the redirect directory of 16 MiB with the held-row
map of 4 MiB (R153, R211), the snapshot directory with its overflow (R204), two epochs of update staging (R199), and the owner arrays of
the tables in SERVING (R152). -/
def State.firmWant (s : State) (i : Nat) : Nat :=
  if i = 0 then unitsFor (20 * 2 ^ 20)
  else if i = 1 then unitsFor (64 * 2 ^ s.epochs.stageRows + 65536)
  else if i = 2 then unitsFor (2 * s.epochs.stageMib * 2 ^ 20)
  else unitsFor (8192 * (s.tables.filter (fun e => e.2.state = 2)).length)

/-- Structure `i` takes the units that it lacks, the highest ones not held, and gives back its lowest beyond its need. DESIGN CHOICE:
where too few units are free it keeps what it has (log entry 8). -/
def State.fitFirm (s : State) (i : Nat) : State :=
  let l := kget [] s.firmUnits i
  let n := s.firmWant i
  if n ≤ l.length then { s with firmUnits := kput s.firmUnits i (l.drop (l.length - n)) }
  else
    match s.takeUnits (n - l.length) with
    | none => s
    | some us => { s with firmUnits := kput s.firmUnits i (us ++ l) }

/-- Firmware holds the units of its structures (R591). -/
def State.takeFirm (s : State) : State := (List.range 4).foldl State.fitFirm s

/-! ### Creating a table (R74, R86, R149) -/

/-- A descriptor fault of R74. -/
def descFault (d : List Byte) : Bool :=
  let t : Table := { desc := d }
  let u := fieldAt d
  let code := u 5 1 % 16
  let whole := t.kind = 0
  u 2 1 ≠ 1 || 4 ≤ u 3 1 || t.kind = 3 || 128 ≤ u 4 1 || 16 ≤ u 5 1 || u 7 1 ≠ 0 || u 13 3 ≠ 0 || u 22 2 ≠ 0 ||
    (d.drop 28).take 32 ≠ List.replicate 32 0 || u 24 4 = 0 || u 16 6 % 65536 ≠ 0 || crc32c (d.take 60) ≠ u 60 4 ||
    (whole && (t.tierMask = 0 || !t.tierMask.testBit t.defaultTier || code ≠ 0)) ||
    (!whole && (t.tierMask ≠ 1 || t.defaultTier ≠ 0 ||
      !(fmtOfCode code = some .int8 || fmtOfCode code = some .int4 || fmtOfCode code = some .int2)))

/-- The master shard map: owners of 4,096 buckets, or none where it cannot be read (R149). -/
def readShardMap (pa : Nat) : CM (Option (List Nat)) := do
  let ws ← (List.range 1024).mapM (fun i => poolLine (cpWho 0) (pa + 64 * i) (65536 - 64 * i))
  let bs := ws.flatMap (·.data)
  let es := (List.range 4096).map (fun i => fieldAt bs (16 * i) 16)
  let s ← get
  if ws.any (·.poison) || es.any (fun e => 1024 ≤ e || !s.member e) then return none else return some es

/-- A shard map that cannot be reached is unreadable. -/
def tryShardMap (pa : Nat) : CM (Option (List Nat)) :=
  tryCatch (readShardMap pa) (fun e => match e with | .wait => throw .wait | .fail _ => return none)

/-- Row-map arrays of the buckets that this part owns, one after the other from the start of the capacity. -/
def Table.layout (t : Table) (part : Nat) : List Nat → Nat → Nat → KMap Nat
  | [], _, _ => []
  | o :: os, b, v =>
    if o = part then (b, shEntry o 0 false (part * devSize + t.phys v) 0) :: t.layout part os (b + 1) (v + 8 * t.bucketRows)
    else (b, shEntry o 0 false 0 0) :: t.layout part os (b + 1) v

/-- Zero a run of the capacity, unit by unit: every row-map entry has VALID = 0. -/
def State.zeroUnits (s : State) (t : Table) : Nat → Nat → Nat → State
  | 0, _, _ => s
  | n + 1, v, len =>
    if len = 0 then s
    else
      let m := min len (2 ^ 25 - v % 2 ^ 25)
      (s.zeroRange (t.phys v) m).zeroUnits t n (v + m) (len - m)

/-- TABLE_CREATE (R86). -/
def execTableCreate (f : FnId) (slot : Fin 28) (s : State) : Host.Outcome State Fault Refusal :=
  .next (s.serve f slot 0x0501 true (fun r s =>
    cpRun s (readCp (cpWho 0) (r.u 0 8) 64) (fun s d =>
      let id := fieldAt d 0 2
      let cap := r.u 8 8
      checks s [(descFault d, stBadPattern), ((s.table id).state ≠ 0, stTableConflict)]
        (cpRun s (tryShardMap (fieldAt d 16 6)) (fun s m =>
          match m with
          | none => refuse s stTableUnavailable
          | some owners =>
            let t : Table := { state := 1, desc := d, capacity := cap }
            let map := (owners.filter (· = s.pool.partId)).length * 8 * t.bucketRows
            match if cap % 2 ^ 25 ≠ 0 || cap < map then none else s.takeUnits (cap / 2 ^ 25) with
            | none => refuse s stTableCapacity
            | some us =>
              let t := { t with units := us, slotNext := map }
              let t := { t with shard := t.layout s.pool.partId owners 0 0 }
              let s := s.zeroUnits t (cap / 2 ^ 25 + 1) 0 map
              let s := { s with tables := kput s.tables id t }
              .done s stOk (leBytes 8 map ++ leBytes 8 (cap - map) ++ leBytes 8 s.firmLow))))))

/-! ### Loading (R87, R88) -/

/-- How far two tier numbers are apart. -/
def tierGap (a b : Nat) : Nat := max a b - min a b

/-- The allowed tier nearest to a requested one, the wider (lower) of two equally near. -/
def Table.nearTier (t : Table) (tier : Nat) : Nat :=
  if t.kind ≠ 0 then 0
  else
    (((List.range 4).filter t.tierMask.testBit).foldl (fun b c => match b with
      | none => some c
      | some d => if tierGap c tier < tierGap d tier then some c else b) (none : Option Nat)).getD 0

/-- Store a row: over its old slot where the tier is the same, else in a fresh slot, the row-map entry last. None: no room. -/
def State.storeRow (s : State) (id r tier : Nat) (payload : List Byte) (acc : Nat) : Option State :=
  let t := s.table id
  let e := s.rowEntry id r
  let bs := t.slotBytes id r tier payload acc
  if rmValid e && rmTier e = tier then some (s.writeSlot (rmSlot e) tier bs)
  else
    match t.alloc tier with
    | none => none
    | some (a, t') =>
      let t' := if rmValid e then t'.free (rmSlot e) (rmTier e) else { t' with rows := t'.rows + 1 }
      let s := { s with tables := kput s.tables id t' }
      some ((s.writeSlot a tier bs).setRowEntry id r (rmEntry tier true false false false a))

/-- Counts of a load: LOADED, NOT_OWNED, RETIERED, OUT_OF_RANGE. -/
structure LoadCount where
  loaded : Nat := 0
  notOwned : Nat := 0
  retiered : Nat := 0
  outOfRange : Nat := 0
deriving DecidableEq, Repr

/-- The response of a load. -/
def LoadCount.bytes (c : LoadCount) : List Byte :=
  leBytes 4 c.loaded ++ leBytes 4 c.notOwned ++ leBytes 4 c.retiered ++ leBytes 4 c.outOfRange

/-- Bytes of one row of the source. -/
def Table.sourceRow (t : Table) (fmt : Nat) : Nat :=
  if t.kind ≠ 0 then t.payload 0 else if fmtOfCode fmt = some .fp32 then 4 * t.len else 2 * t.len

/-- Values of a source row as a payload of a tier. -/
def Table.sourcePayload (t : Table) (fmt tier : Nat) (bs : List Byte) : List Byte :=
  if t.kind ≠ 0 then bs
  else
    let v := fun (i : Nat) => if fmtOfCode fmt = some .fp32 then f32 (fieldAt bs (4 * i) 4) else f32 (fieldAt bs (2 * i) 2 * 2 ^ 16)
    tierPayload (t.fmt tier) ((List.range t.len).map v)

/-- What a load makes of one entry of its request: its row id is out of range, its bucket is another part's, or a row is written with a
tier asked for and its source bytes. -/
inductive LoadItem where
  | outOfRange
  | notOwned
  | row (row want : Nat) (bytes : List Byte)
deriving DecidableEq, Repr

/-- The entries of a request from number `i` on, in array order. All that the load reads is read before it writes a row, so that one whose
source has no translation changes nothing (R87, R433). -/
def readLoad (w : Who) (r : List Byte) (id : Nat) : Nat → Nat → CM (List LoadItem)
  | 0, _ => return []
  | n + 1, i => do
    let t := (← get).table id
    let fmt := fieldAt r 2 1
    let row := leNat (← readCp w (fieldAt r 8 8 + 8 * i) 8)
    let item ←
      if t.rowCount ≤ row then pure LoadItem.outOfRange
      else if shOwner ((← get).shard id (bucketOf row)) ≠ (← get).pool.partId then pure LoadItem.notOwned
      else do
        let bs ← readCp w (fieldAt r 16 8 + t.sourceRow fmt * i) (t.sourceRow fmt)
        let given := bitAt (fieldAt r 3 1) 0
        let tb ← readCp w (if given then fieldAt r 24 8 + i else 0) (b2n given)
        pure (LoadItem.row row (if given then leNat tb % 4 else t.defaultTier) bs)
    return item :: (← readLoad w r id n (i + 1))

/-- Write the rows of a request in array order; the flag says that the capacity was exhausted. DESIGN CHOICE: the load ends at the first
row for which there is no room, and no later row of the request is written though it might fit (R87; log entry 43). -/
def State.storeLoad (id fmt : Nat) : State → LoadCount → List LoadItem → State × LoadCount × Bool
  | s, c, [] => (s, c, false)
  | s, c, .outOfRange :: l => State.storeLoad id fmt s { c with outOfRange := c.outOfRange + 1 } l
  | s, c, .notOwned :: l => State.storeLoad id fmt s { c with notOwned := c.notOwned + 1 } l
  | s, c, .row r want bs :: l =>
    let t := s.table id
    let tier := t.nearTier want
    match s.storeRow id r tier (t.sourcePayload fmt tier bs) 0 with
    | none => (s, c, true)
    | some s => State.storeLoad id fmt s { c with loaded := c.loaded + 1, retiered := c.retiered + b2n (tier ≠ want) } l

/-- Go on with a load: it ends, or waits for data of another part and begins again, since it is idempotent (R88). DESIGN CHOICE (log
entry 43): a load under way goes on when its table is sealed or deleted meanwhile, and one that ends because its source cannot be read
answers that status with no counts. -/
def State.runLoad (s : State) (l : Load) : State :=
  let finish := fun (s : State) (st : Nat) (resp : List Byte) =>
    ({ s with loads := s.loads.erase l } : State).cpDone.opEnd (some (l.fn, l.opId)) st resp
  let id := fieldAt l.req 0 2
  match (readLoad (cpWho l.fn) l.req id (fieldAt l.req 4 4) 0).run s with
  | (.error .wait, s) => s
  | (.error (.fail st), s) => finish s st []
  | (.ok items, s) =>
    match State.storeLoad id (fieldAt l.req 2 1) s {} items with
    | (s, c, full) => finish s (if full then stTableCapacity else stOk) c.bytes

/-- TABLE_LOAD (R87): accepted, or, issued again, goes on with the loads under way. DESIGN CHOICE: an SRC_FMT or N outside R87's ranges is
refused with BAD_PATTERN, after TABLE_STATE_CONFLICT (log entry 43). -/
def execTableLoad (f : FnId) (slot : Fin 28) (s : State) : Host.Outcome State Fault Refusal :=
  let s := s.loads.foldl (fun s l => s.runLoad l) s
  .next (s.serve f slot 0x0502 true (fun r s =>
    let t := s.table (r.u 0 2)
    let fmt := r.u 2 1
    let okFmt := if t.kind = 0 then fmtOfCode fmt = some .fp32 || fmtOfCode fmt = some .bf16 else fmt = t.u 5 1 % 16
    checks s [(t.state ≠ 1, stTableConflict),
              (!okFmt || r.u 4 4 = 0 || 16777216 < r.u 4 4, stBadPattern)]
      (.async (fun s id =>
        let l : Load := ⟨f, id, r.payload⟩
        ({ s with loads := s.loads ++ [l] } : State).runLoad l))))

/-! ### Sealing, asking, deleting (R84, R89, R90, R131) -/

/-- TABLE_SEAL. -/
def execTableSeal (f : FnId) (slot : Fin 28) (s : State) : Host.Outcome State Fault Refusal :=
  .next (s.serve f slot 0x0503 true (fun r s =>
    checks s [((s.table (r.u 0 2)).state ≠ 1, stTableConflict)]
      (.done ((s.updTable (r.u 0 2) (fun t => { t with state := 2 })).fitFirm 3) stOk [])))

/-- Valid rows of the row map at a device offset. -/
def State.mapRows (s : State) (id base : Nat) : Nat :=
  let t := s.table id
  ((List.range t.bucketRows).filter (fun l => rmValid (leNat (s.devBytes (t.phys (t.virt base + 8 * l)) 8)))).length

/-- Valid rows of a table that this part owns (R90): all that stand in its capacity but held rows of other parts' buckets, the rows of a
bucket whose copy has not been cut over to it, and those of a bucket that it has cut over and not yet freed (R209, R211). -/
def State.ownedRows (s : State) (id : Nat) : Nat :=
  let held := (s.epochs.held.filter (fun h => h.table = id && h.filled)).length
  let copied := (s.epochs.copies.filter (fun c => c.table = id && !c.isRow)).map (fun c => s.mapRows id c.rowMap)
  let gone := (s.epochs.migrations.filter (fun m => m.table = id && !m.isRow && m.state = 4)).map (fun m => s.mapRows id m.rowMap)
  (s.table id).rows - held - copied.sum - gone.sum

/-- TABLE_QUERY. -/
def execTableQuery (f : FnId) (slot : Fin 28) (s : State) : Host.Outcome State Fault Refusal :=
  .next (s.serve f slot 0x0504 true (fun r s =>
    let t := s.table (r.u 0 2)
    .done s stOk (leBytes 4 t.state ++ leBytes 4 (if t.state = 0 then 0 else t.gen) ++ leBytes 8 (s.ownedRows (r.u 0 2)) ++ leBytes 8 t.used ++
      leBytes 8 t.capacity ++ leBytes 8 s.firmLow)))

/-- TABLE_DELETE: the table refuses lookups; the answer comes when it is ABSENT (R84, R89, R91). -/
def execTableDelete (f : FnId) (slot : Fin 28) (s : State) : Host.Outcome State Fault Refusal :=
  .next (s.serve f slot 0x0505 true (fun r s =>
    let id := r.u 0 2
    let t := s.table id
    if t.state = 3 && t.delete = some (f.val, slot.val) then .wait s
    else checks s [(t.state ≠ 1 && t.state ≠ 2, stTableConflict)]
      (.wait (s.updTable id (fun t => { t with state := 3, delete := some (f.val, slot.val), fenced := false })))))

/-- An admitted step names a table: a GATHER of it has been issued for a command that has not ended (R84). -/
def State.namesTable (s : State) (id : Nat) : Bool := s.cmds.any (fun e => e.2.phase ≠ .ended && e.2.tables.contains id)

/-- A fence has completed: DELETING tables that no step names any more may go (R84). -/
def State.fenceTables (s : State) : State :=
  { s with tables := s.tables.map (fun (e : Nat × Table) => (e.1, if e.2.state = 3 && !s.namesTable e.1 then { e.2 with fenced := true } else e.2)) }

/-- What a part keeps of a table's moved rows and buckets, copies and snapshots ends with the table (R204, R211, R212). -/
def Epochs.dropTable (p : Epochs) (id : Nat) : Epochs :=
  let other := fun (l : KMap (List Snap)) => (l.map (fun (e : Nat × List Snap) => (e.1, e.2.filter (fun n => n.table ≠ id)))).filter
    (fun e => !e.2.isEmpty)
  { p with held := p.held.filter (fun h => h.table ≠ id), copies := p.copies.filter (fun c => c.table ≠ id),
           moved := p.moved.filter (fun m => m.1 ≠ id), migrations := p.migrations.filter (fun m => m.table ≠ id),
           snaps := other p.snaps, overflow := p.overflow.filter (fun n => n.table ≠ id),
           lostSnaps := p.lostSnaps.filter (fun l => l.1 ≠ id) }

/-- TABLE_FREED (R84, R131): every slice is swept, the table's memory is given back, and TABLE_DELETE is answered. -/
def execTableFreed (t : BitVec 16) (s : State) : Host.Outcome State Fault Refusal :=
  let id := t.toNat
  let v := s.table id
  if v.state ≠ 3 || !v.fenced || s.namesTable id || !s.firmware then .next s
  else
    let s : State := { s with slices := s.slices.map (fun (e : Nat × Slice) => (e.1, e.2.dropTags (fun g => g.2.table = id))),
                              directory := (s.directory.map (fun (e : Nat × List DirEntry) => (e.1, e.2.filter (fun d => d.table ≠ id)))).filter
                                (fun e => !e.2.isEmpty),
                              tables := kdel s.tables id, epochs := s.epochs.dropTable id }
    let s := s.fitFirm 3
    match v.delete with
    | none => .next s
    | some (f, slot) =>
      .next (if (s.fn f).serving slot && (s.req f slot).opcode = 0x0505 then s.respond (s.req f slot) stOk [] false else s)

/-! ### The pool's control operations (R180, R181) -/

/-- SHARD_QUERY. -/
def execShardQuery (f : FnId) (slot : Fin 28) (s : State) : Host.Outcome State Fault Refusal :=
  .next (s.serve f slot 0x0601 false (fun r s =>
    checks s [(4096 ≤ r.u 2 2, stBadPattern), ((s.table (r.u 0 2)).state ≠ 2, stTableUnavailable)]
      (.done s stOk (leBytes 16 (s.shard (r.u 0 2) (r.u 2 2))))))

/-- SPLIT_SET: answered once the split has taken effect at the partition's next step boundary (R173, R181). -/
def execSplitSet (f : FnId) (slot : Fin 28) (s : State) : Host.Outcome State Fault Refusal :=
  .next (s.serve f slot 0x0602 true (fun r s =>
    let p := r.u 0 1
    let me := (f.val, slot.val)
    let out := fun (v : Nat) => v = 0 || 98 < v
    if (s.part p).splitOps.contains me then
      if (s.part p).nextSplit.isSome then .wait s
      else .done (s.updPart p (fun q => { q with splitOps := q.splitOps.erase me })) stOk []
    else checks s [(16 ≤ p, stBadPattern),
                   (out (r.u 1 1) || out (r.u 2 1) || out (r.u 3 1) || r.u 1 1 + r.u 2 1 + r.u 3 1 ≠ 100, stSplitInvalid)]
      (let s := (s.updPart p (fun q => { q with nextSplit := some (r.u 1 1, r.u 2 1, r.u 3 1) })).idleBoundary p
       if (s.part p).nextSplit.isNone then .done s stOk []
       else .wait (s.updPart p (fun q => { q with splitOps := q.splitOps ++ [me] })))))

/-- SPLIT_GET. -/
def execSplitGet (f : FnId) (slot : Fin 28) (s : State) : Host.Outcome State Fault Refusal :=
  .next (s.serve f slot 0x0603 false (fun r s =>
    let p := r.u 0 1
    let q := s.part p
    checks s [(r.foreign p, stProtection), (16 ≤ p, stBadPattern)]
      (.done s stOk (leBytes 1 q.splitRead ++ leBytes 1 q.splitWrite ++ leBytes 1 q.splitRemote))))

/-- SERVICE_SET: answered once every partition with a running step has passed a step boundary (R173, R181). -/
def execServiceSet (f : FnId) (slot : Fin 28) (s : State) : Host.Outcome State Fault Refusal :=
  .next (s.serve f slot 0x0604 true (fun r s =>
    let me := (f.val, slot.val)
    if s.serviceOps.contains me then
      if s.nextService.isSome then .wait s else .done { s with serviceOps := s.serviceOps.erase me } stOk []
    else checks s [(r.u 0 1 < 5 || 50 < r.u 0 1 || r.u 1 1 + r.u 2 1 ≠ 100, stSplitInvalid)]
      (let s := { s with nextService := some (r.u 0 1, r.u 1 1, r.u 2 1), serviceLeft := List.range 16 }
       let s := (List.range 16).foldl State.idleBoundary s
       if s.nextService.isNone then .done s stOk []
       else .wait { s with serviceOps := s.serviceOps ++ [me] })))

/-- REDIRECT_QUERY. -/
def execRedirectQuery (f : FnId) (slot : Fin 28) (s : State) : Host.Outcome State Fault Refusal :=
  .next (s.serve f slot 0x0605 true (fun r s =>
    checks s [((s.table (r.u 0 2)).state ≠ 2, stTableUnavailable)]
      (match s.dirEntry (r.u 0 2) (r.u 8 8) with
       | none => .done s stOk (leBytes 16 0)
       | some d => .done s stOk (leBytes 1 1 ++ leBytes 1 (b2n d.forward) ++ leBytes 2 d.holder ++ leBytes 4 0 ++ leBytes 8 d.cutover))))

end Sys2Proof.Machine
end

