-- ==== Sys2Proof/Machine/Updates.lean ====
section
/-! DEFINITION. Update commands and delta messages (R193 to R199, R592, R593): checking, sending, staging and answering. -/

namespace Sys2Proof.Machine

open Sys2Proof

/-- Change the epoch state. -/
def State.updEp (s : State) (f : Epochs → Epochs) : State := { s with epochs := f s.epochs }

/-- The epoch that update entries accepted now belong to (R189, R195). -/
def Epochs.openEpoch (e : Epochs) : Nat := if e.phase = 0 then e.epoch + 1 else e.epoch + 2

/-- Send a message that is charged to pool service, at cluster 0's exchange unit (R214; log entry 19). -/
def State.poolSend (s : State) (dest : Nat) (m : Msg) : State :=
  s.serviceSend 0 dest m

/-! ### The sender (R195, R197, R198, R593) -/

/-- An update command's status (R593). -/
def updStatus (fail : Nat) : Nat :=
  if bitAt fail 0 then stUpdateLost
  else if bitAt fail 1 then stTableUnavailable
  else if bitAt fail 2 then stEpochClosed
  else if bitAt fail 3 then stRedirect
  else if bitAt fail 4 then stIndexOutOfRange
  else stOk

/-- An update command all of whose entries are answered ends (R198). -/
def State.updEnd (s : State) (key : Nat) : State :=
  match s.cmd? key with
  | none => s
  | some c => if c.phase = .running && c.updSent && c.updLeft = 0 then s.endCmd key (updStatus c.updFail) else s

/-- Entries have been answered: staged for an epoch, or failed as a bit of R593 says. -/
def State.updAnswered (s : State) (es : List SentEntry) (fail : Option Nat) : State :=
  let s := s.updEp (fun p => { p with sent := p.sent.filter (fun e => !es.contains e) })
  es.foldl (fun s e =>
    (s.updCmd e.cmd (fun c =>
      let c := { c with updLeft := c.updLeft - 1 }
      match fail with
      | some b => { c with updFail := c.updFail ||| 2 ^ b }
      | none => { c with epoch := if c.epoch = 0 then e.epoch else min c.epoch e.epoch, epochLast := max c.epochLast e.epoch })).updEnd e.cmd) s

/-- Entries whose owner has left the pool are lost (R191). -/
def State.updLost (s : State) (es : List SentEntry) : State :=
  (s.updAnswered es (some 0)).updEp (fun p => { p with lost := p.lost + es.length })

/-- The row of an entry. -/
def SentEntry.rowId (e : SentEntry) : Nat × Nat := (e.entry.table, e.entry.row)

/-- The entries that travel with the first one: unsent, of its owner, bucket and epoch, at most 127 units (log entry 24). Rows of `wait`
wait for an earlier entry of theirs, so that entries of one row travel in ascending order (R197). -/
def deltaGroup (first : SentEntry) : List (Nat × Nat) → Nat → List SentEntry → List SentEntry
  | _, _, [] => []
  | wait, used, e :: es =>
    let same := e.owner = first.owner && e.entry.table = first.entry.table && bucketOf e.entry.row = bucketOf first.entry.row &&
      e.epoch = first.epoch && e.unit = first.unit && e.part = first.part && e.fullAt.isNone
    if same && !wait.contains e.rowId && used + e.entry.units ≤ 127 then e :: deltaGroup first wait (used + e.entry.units) es
    else deltaGroup first (e.rowId :: wait) used es

/-- Send one DELTA message under an outstanding slot and the partition's WRITE tokens (R159, R171, R197); none while it has to wait. -/
def State.sendDelta (s : State) (g : List SentEntry) : Option State :=
  match g with
  | [] => some s
  | e :: _ =>
    if !s.member e.owner then some (s.updLost g)
    else
      let x := s.exch e.unit
      match x.freeSlot with
      | none => none
      | some i =>
        let seq := kget 0 x.tagSeq i
        let h : MsgHdr := { srcPart := s.pool.partId, srcCluster := e.unit, tagSlot := i, tagSeq := seq, epoch := e.epoch }
        let m := Msg.delta h (g.map (·.entry))
        let bytes := 16 + m.bytes
        if !x.holds (bucketKey e.part 1) bytes then none
        else
          match s.send? e.owner e.part m with
          | none => none
          | some s =>
            let b : Batch := { owner := e.owner, part := e.part, epoch := e.epoch, prefetch := false, redirected := false, entries := [],
                               opened := s.refCount, timeout := x.timeout }
            let s := s.updExch e.unit (fun x => x.occupy i { kind := 4, batch := b, sent := s.refCount, core := 255 } (bucketKey e.part 1) bytes)
            some (s.updEp (fun p => { p with
              sent := p.sent.map (fun v => if g.contains v then { v with tag := some (i * 128 + seq) } else v) }))

/-- Send what is unsent, group by group, in order; rows of `wait` have an earlier entry that cannot go yet. -/
def State.pumpFrom : Nat → State → List (Nat × Nat) → List SentEntry → State
  | 0, s, _, _ => s
  | _ + 1, s, _, [] => s
  | n + 1, s, wait, e :: es =>
    let g := deltaGroup e wait 0 (e :: es)
    if g.head? ≠ some e then State.pumpFrom n s (e.rowId :: wait) es
    else
      let rest := (e :: es).filter (fun v => !g.contains v)
      match s.sendDelta g with
      | some s => State.pumpFrom n s wait rest
      | none => State.pumpFrom n s (g.map (·.rowId) ++ wait) rest

/-- Send every unsent entry that slots, tokens and the wait after STAGE_FULL allow. -/
def State.pumpDeltas (s : State) : State :=
  let l := s.epochs.sent.filter (fun e => e.tag.isNone)
  State.pumpFrom (l.length + 1) s [] l

/-! ### The update command (R193 to R195) -/

/-- Checks of an update descriptor that need no table (R194). -/
def updBad (d : List Byte) : Bool :=
  let u := fieldAt d
  let rule := u 4 1 % 8
  let p0 := f32 (u 32 4)
  let p1 := f32 (u 36 4)
  let finite := fun (v : FVal) => match v with | .fin .. => true | _ => false
  32 ≤ u 4 1 || 4 ≤ rule || u 5 3 ≠ 0 || u 12 4 ≠ 0 || (d.drop 40).any (· ≠ 0) || 2 ^ 52 ≤ u 16 8 || 2 ^ 52 ≤ u 24 8 ||
    u 8 4 = 0 || 16777216 < u 8 4 || !finite p0 || !finite p1 ||
    (rule = 3 && (fvIsZero p0 || fvNegative p0 || (fvNegative p1 && !fvIsZero p1)))

/-- The refusal of an update descriptor, if any (R194). -/
def State.updRefusal (s : State) (d : List Byte) : Option Nat :=
  let t := s.table (fieldAt d 2 2)
  let rule := fieldAt d 4 1 % 8
  if fieldAt d 0 1 ≠ 7 then some stBadPattern
  else if fieldAt d 1 1 ≠ 1 then some stVersionRefused
  else if updBad d then some stBadPattern
  else if t.state ≠ 2 then some stTableUnavailable
  else if (rule = 3 && !t.adapt) || ((rule = 1 || rule = 2) && t.adapt) then some stBadPattern
  else none

/-- Bytes that an update command reads; poison ends it. -/
def updRead (w : Who) (va n : Nat) : CM (List Byte) := do
  if 2 ^ 52 < va + n then throw (.fail stBadPattern)
  else
    let (bs, poison, _) ← readStream w va n
    if poison then
      modify (fun s => s.consume (w.consumed va 0))
      throw (.fail stPoisonConsumed)
    else return bs

/-- Little-endian values of `n` bytes. -/
def valuesOf (n : Nat) : Nat → List Byte → List Nat
  | 0, _ => []
  | k + 1, bs => leNat (bs.take n) :: valuesOf n k (bs.drop n)

/-- The cluster whose exchange unit carries a partition's deltas: its lowest (R193; log entry 19). -/
def State.deltaUnit (s : State) (p : Nat) : Nat := clusterOf ((leastBelow 128 (s.part p).mask.testBit).getD 0)

/-- Accept the entries of an update command in stream order (R194, R195). -/
def State.updAccept (s : State) (c : Cmd) (d : List Byte) : List Nat → List Byte → State
  | [], _ => s
  | r :: rs, vals =>
    let id := fieldAt d 2 2
    let t := s.table id
    let vfmt := b2n (bitAt (fieldAt d 4 1) 3)
    let size := t.len * (if vfmt = 1 then 2 else 4)
    if t.rowCount ≤ r then
      State.updAccept (s.updCmd c.key (fun c => { c with updFail := c.updFail ||| 16 })) c d rs (vals.drop size)
    else
      let seq := (s.epochs.srcSeq + 1) % 2 ^ 48
      let e : UpdEntry := { table := id, row := r, rule := fieldAt d 4 1 % 8, vfmt := vfmt, srcPart := s.pool.partId, srcSeq := seq,
                            gen := t.gen, param0 := fieldAt d 32 4, param1 := fieldAt d 36 4,
                            vals := valuesOf (if vfmt = 1 then 2 else 4) t.len (vals.take size) }
      let v : SentEntry := { entry := e, epoch := s.epochs.openEpoch, owner := shOwner (s.shard id (bucketOf r)), cmd := c.key,
                             unit := s.deltaUnit c.part, part := c.part }
      let s := s.updEp (fun p => { p with srcSeq := seq, sent := p.sent ++ [v] })
      State.updAccept (s.updCmd c.key (fun c => { c with updLeft := c.updLeft + 1 })) c d rs (vals.drop size)

/-- The work of an update command: its descriptor, row ids and values are read, then its entries are accepted. -/
def updWork (c : Cmd) : CM Unit := do
  let w := Who.update c.key c.ctx ((← get).deltaUnit c.part)
  let d ← updRead w (c.u 8 8) 64
  match (← get).updRefusal d with
  | some st => throw (.fail st)
  | none =>
    let n := fieldAt d 8 4
    let iw := if bitAt (fieldAt d 4 1) 4 then 8 else 4
    let l := ((← get).table (fieldAt d 2 2)).len
    let ids ← updRead w (fieldAt d 16 8) (n * iw)
    let vals ← updRead w (fieldAt d 24 8) (n * l * (if bitAt (fieldAt d 4 1) 3 then 2 else 4))
    modify (fun s => (s.updAccept c d (valuesOf iw n ids) vals).updCmd c.key (fun c => { c with updSent := true }))

/-- Run an update command that has begun and not yet accepted its entries. -/
def State.runUpdate (s : State) (c : Cmd) : State :=
  let clear := fun (s : State) => { s with cores := kdel s.cores (256 + c.key) }
  match (updWork c).run s with
  | (.ok _, s) => ((clear s).updEnd c.key).pumpDeltas
  | (.error .wait, s) => s
  | (.error (.fail st), s) => (clear s).endCmd c.key st

/-- UPDATE (R193, R194): the head of a queue begins; issued again, it goes on reading and sending. -/
def execUpdate (q : QueueId) (s : State) : Host.Outcome State Fault Refusal :=
  let s := s.pumpDeltas
  match (s.queueCmds q).find? (fun c => c.kind = kindUpdate && c.phase = .running && !c.updSent) with
  | some c => .next (s.runUpdate c)
  | none =>
    match s.head? q with
    | none => .next s
    | some c =>
      if c.kind ≠ kindUpdate then .next s
      else
        match s.breakHead c with
        | some s => .next s
        | none =>
          if !s.ready c then .next s
          else
            let s := (s.updCmd c.key (fun c => { c with phase := .running, startedAt := s.refCount, ties := s.reduced })).settle
            match s.cmd? c.key with
            | none => .next s
            | some c => .next (s.runUpdate c)

/-! ### The owner (R196, R198, R199, R212, R592) -/

/-- Remember a sequence value of a source as staged (R196). -/
def addSeen (p q : Nat) : List (Nat × Nat × Nat) → List (Nat × Nat × Nat)
  | [] => [(p, q, q)]
  | r :: rs => if r.1 = p && r.2.2 + 1 = q then (r.1, r.2.1, q) :: rs else r :: addSeen p q rs

/-- A pair has been staged for the epoch (R196). -/
def Staging.knows (g : Staging) (e : UpdEntry) : Bool := g.seen.any (fun r => r.1 = e.srcPart && r.2.1 ≤ e.srcSeq && e.srcSeq ≤ r.2.2)

/-- Staging of an epoch. -/
def Epochs.stage (p : Epochs) (n : Nat) : Staging := (p.staging.find? (fun g => g.epoch = n)).getD { epoch := n }

/-- Replace the staging of its epoch. -/
def Epochs.putStage (p : Epochs) (g : Staging) : Epochs :=
  { p with staging := if p.staging.any (fun h => h.epoch = g.epoch) then p.staging.map (fun h => if h.epoch = g.epoch then g else h)
                      else p.staging ++ [g] }

/-- Distinct rows of entries. -/
def rowsOf (es : List UpdEntry) : List (Nat × Nat) := (es.map (fun e => (e.table, e.row))).eraseDups

/-- Stage entries; pairs already staged are not staged again. -/
def Staging.add (g : Staging) (es : List UpdEntry) : Staging :=
  es.foldl (fun g e => if g.knows e then g else { g with entries := g.entries ++ [e], seen := addSeen e.srcPart e.srcSeq g.seen }) g

/-- Bytes of staged entries (R197). -/
def entryBytes (es : List UpdEntry) : Nat := es.foldl (fun n e => n + 64 * e.units) 0

/-- The staging is within STAGE_ROWS and STAGE_MIB (R199). -/
def Epochs.stageFits (p : Epochs) (g : Staging) : Bool :=
  (rowsOf g.entries).length ≤ 2 ^ p.stageRows &&
    Config.rangeBytes * g.seen.length + entryBytes g.entries ≤ p.stageMib * 2 ^ 20

/-- Device offset of a byte of an epoch's staging area (R199, R591; log entry 8). -/
def State.stagingAt (s : State) (epoch x : Nat) : Nat :=
  let o := epoch % 2 * (s.epochs.stageMib * 2 ^ 20) + x
  nthD 0 (kget [] s.firmUnits 2) (o / 2 ^ 25) * 2 ^ 25 + o % 2 ^ 25

/-- Charge `n` bytes written from byte `x` of a staging area on to pool service WRITE (R171, R199, R214). -/
def State.chargeStaging (s : State) (epoch x n : Nat) : State :=
  (List.range (cdiv n 64)).foldl (fun s i => s.dramCharge (bucketKey 16 1) (s.stagingAt epoch (x + 64 * i)) 1) s

/-- Stage entries for an epoch, but for pairs already staged, and charge their bytes (R196, R199). -/
def State.stageEntries (s : State) (n : Nat) (es : List UpdEntry) : State :=
  let g := s.epochs.stage n
  let fresh := es.filter (fun e => !g.knows e)
  if es.isEmpty then s
  else (s.updEp (fun p => p.putStage (g.add es))).chargeStaging n (entryBytes g.entries) (entryBytes fresh)

/-- The migration of this part as A that a row falls under, in a state of R209. -/
def State.migOf (s : State) (t r : Nat) (p : Nat → Bool) : Option Migration :=
  s.epochs.migrations.find? (fun m => m.table = t && p m.state && (if m.isRow then m.row = r else m.bucket = bucketOf r))

/-- A change is the cut-over of a migration. -/
def Migration.cutBy (m : Migration) (c : ShardChange) : Bool :=
  c.kind = 2 && c.table = m.table && c.bucket = m.bucket && c.row = (if m.isRow then some m.row else none)

/-- The fence that this part applies cuts a migration over (R209, R212). -/
def State.cutNow (s : State) (m : Migration) : Bool := m.state = 3 && s.epochs.phase = 3 && s.epochs.applying.any m.cutBy

/-- The cut-over of a migration stands in the FENCE_CLOSED that this part has sent, or in the fence that it applies (R209, R213). -/
def State.cutSent (s : State) (m : Migration) : Bool :=
  s.cutNow m || (m.state = 3 && s.epochs.phase = 2 && s.epochs.closedWith.any m.cutBy)

/-- Where an update entry of an epoch goes at this part: staged here (none), or passed on to another part (R212, R592);
`Except.error` names the holder of a REDIRECT, the owner by this part's own shard map. -/
def State.deltaPlace (s : State) (e : UpdEntry) (epoch : Nat) : Except Nat (Option Nat) :=
  let me := s.pool.partId
  let sh := s.shard e.table (bucketOf e.row)
  let held := s.epochs.held.any (fun h => h.table = e.table && h.row = e.row && h.gone = 0)
  if held then .ok none
  else if shOwner sh = me then
    let here := if rmMoved (s.rowEntry e.table e.row) then (s.dirEntry e.table e.row).map (·.holder) else none
    match s.migOf e.table e.row (fun st => st = 3) with
    | some m => if s.cutNow m && s.epochs.epoch + 1 < epoch then .ok (some m.target) else .ok here
    | none => .ok here
  else if shMigrating sh && shNext sh = me then .ok none
  else
    match s.cutOf e.table e.row with
    | some m => .ok (some m.target)
    | none => .error (shOwner sh)

/-- A REDIRECT that R592 reports: the part has no record of the bucket's migration. -/
def State.deltaStray (s : State) (e : UpdEntry) : Bool := !s.epochs.moved.any (fun m => m.1 = e.table && m.2.1 = bucketOf e.row)

/-- Answer a DELTA message. -/
def State.ackDelta (s : State) (h : MsgHdr) (astatus holder : Nat) : State :=
  s.serviceSend (h.srcCluster % 16) h.srcPart (.deltaAck h astatus holder)

/-- Count entries staged by bucket (R207). -/
def State.skewDelta (s : State) (e : UpdEntry) : State :=
  s.updEp (fun p => { p with watches := p.watches.map (fun (v : Nat × Watch) =>
    if v.2.table = e.table then
      (v.1, { v.2 with counts := kmod {} v.2.counts (bucketOf e.row) (fun c => { c with deltas := satAdd 32 c.deltas 1 }) })
    else v) })

/-- The header of a message that this part sends under a number, which its answer returns: the number stands in TAG_SLOT and TAG_SEQ
(R161, R307). -/
def State.numHdr (s : State) (n epoch : Nat) : MsgHdr :=
  { srcPart := s.pool.partId, srcCluster := 0, tagSlot := n % 512, tagSeq := n / 512 % 128, epoch := epoch }

/-- The number that a header returns. -/
def MsgHdr.num (h : MsgHdr) : Nat := h.tagSeq * 512 + h.tagSlot

/-- Take the next message number. -/
def State.takeNum (s : State) : State × Nat :=
  (s.updEp (fun p => { p with nextNum := (p.nextNum + 1) % 65536 }), s.epochs.nextNum)

/-- Log a staged delta of a row that is being copied to T (R209). Nothing is logged to a part that has left the pool. -/
def State.logDelta (s : State) (epoch : Nat) (wait : Option MsgHdr) (e : UpdEntry) : State :=
  match s.migOf e.table e.row (fun st => st = 2 || st = 3) with
  | none => s
  | some m =>
    if !s.member m.target then s
    else
      let (s, n) := s.takeNum
      let s := s.updEp (fun p => { p with logs := p.logs ++ [⟨n, epoch, m.target, m.table, m.isRow, m.bucket, m.row, e, wait⟩] })
      s.poolSend m.target (.migrateLog (s.numHdr n epoch) m.table m.bucket m.isRow m.row e)

/-- The part that a moved row is being copied to from its holder (R558): what is passed on to the holder is logged there too. -/
def State.rowLeaves (s : State) (e : UpdEntry) : Option Nat :=
  (s.epochs.migrations.find? (fun m =>
    m.isRow && m.via.isSome && m.table = e.table && m.row = e.row && (m.state = 2 || m.state = 3))).map (·.target)

/-- Pass entries on to T under the number that its answer names (R212). -/
def State.passDelta (s : State) (h : MsgHdr) (target : Nat) (es : List UpdEntry) : State :=
  let (s, n) := s.takeNum
  let s := s.updEp (fun p => { p with fwds := p.fwds ++ [⟨n, target, h, es⟩] })
  s.poolSend target (.delta { s.numHdr n h.epoch with forward := true } es)

/-- A DELTA waits for an acknowledgement from T. -/
def State.deltaWaits (s : State) (h : MsgHdr) : Bool :=
  s.epochs.logs.any (fun l => l.wait = some h) || s.epochs.fwds.any (fun f => f.hdr = h)

/-- Stage the entries of a DELTA that this part serves itself, count them and log them to T where their rows are being copied (R199, R207,
R209). -/
def State.stageDelta (s : State) (h : MsgHdr) (es : List UpdEntry) : State :=
  let fresh := es.filter (fun e => !(s.epochs.stage h.epoch).knows e)
  fresh.foldl (fun s e => s.logDelta h.epoch (some h) e) (fresh.foldl State.skewDelta (s.stageEntries h.epoch es))

/-- DELTA (R191, R196, R198, R199, R212, R592): entries passed on come first, and this part stages its own once they have been staged, so
that a STAGE_FULL leaves none staged here. What would go to a part that has left the pool is answered with REDIRECT to it, and so counted
as lost by its sender. -/
def execDelta (h : MsgHdr) (es : List UpdEntry) (s : State) : Host.Outcome State Fault Refusal :=
  let s := s.takeMsg (.delta h es)
  let n := h.epoch
  if s.deltaWaits h then .next s
  else if n ≤ s.epochs.epoch then .next (s.ackDelta h 3 0)
  else if es.any (fun e => (s.table e.table).state ≠ 2 || (s.table e.table).gen ≠ e.gen || (s.table e.table).rowCount ≤ e.row) then
    .next (s.ackDelta h 4 0)
  else
    match es.findSome? (fun e => match s.deltaPlace e n with | .error holder => some (e, holder) | .ok _ => none) with
    | some (e, holder) => .next ((if s.deltaStray e then s.logEvent 8 else s).ackDelta h 2 holder)
    | none =>
      let mine := es.filter (fun e => match s.deltaPlace e n with | .ok none => true | _ => false)
      let away := es.filterMap (fun e => match s.deltaPlace e n with | .ok (some p) => some (p, e) | _ => none)
      let held := (s.epochs.holds.filter (fun d => d.hdr.epoch = n)).flatMap (·.entries)
      match away.find? (fun a => !s.member a.1) with
      | some a => .next (s.ackDelta h 2 a.1)
      | none =>
      if !s.epochs.stageFits ((s.epochs.stage n).add (held ++ mine)) then .next (s.ackDelta h 1 0)
      else
        let s := if away.isEmpty then s.stageDelta h mine
          else s.updEp (fun p => { p with holds := p.holds ++ [⟨h, mine⟩] })
        let s := (away.filter (fun a => (s.rowLeaves a.2).any (· ≠ a.1))).foldl
          (fun s a => s.logDelta n (some h) a.2) s
        let s := (away.map (·.1)).eraseDups.foldl (fun s p => s.passDelta h p ((away.filter (fun a => a.1 = p)).map (·.2))) s
        .next (if s.deltaWaits h then s else s.ackDelta h 0 0)

/-! ### Answers (R198, R592) -/

/-- The sender acts on the answer to its entries. -/
def State.deltaAnswer (s : State) (g : List SentEntry) (astatus holder : Nat) : State :=
  let change := fun (s : State) (f : SentEntry → SentEntry) =>
    s.updEp (fun p => { p with sent := p.sent.map (fun e => if g.contains e then f e else e) })
  if astatus = 0 then s.updAnswered g none
  else if astatus = 1 then
    let late := fun (e : SentEntry) => e.epoch < s.epochs.openEpoch
    let s := s.updEp (fun p => { p with deferred := p.deferred + (g.filter late).length })
    change s (fun e => { e with tag := none, fullAt := some s.refCount, epoch := if late e then e.epoch + 1 else e.epoch })
  else if astatus = 2 then
    let s := s.updAnswered (g.filter (fun e => 4 ≤ e.redirects)) (some 3)
    change s (fun e => { e with tag := none, owner := holder, redirects := e.redirects + 1 })
  else if astatus = 3 then s.updAnswered g (some 2)
  else (if 4 < astatus then s.logEvent 8 else s).updAnswered g (some 1)

/-- Once every part has answered for the entries passed on, this part stages its own (R212). -/
def State.stageHeld (s : State) (h : MsgHdr) : State :=
  match s.epochs.holds.find? (fun d => d.hdr = h) with
  | none => s
  | some d =>
    if s.epochs.fwds.any (fun f => f.hdr = h) then s
    else (s.updEp (fun p => { p with holds := p.holds.erase d })).stageDelta h d.entries

/-- Part of a DELTA has been answered elsewhere: its sender has a failure at once, and STAGED once all of it has come (R209, R212). -/
def State.settleDelta (s : State) (h : MsgHdr) (astatus holder : Nat) : State :=
  let s := if astatus ≠ 0 then s else s.stageHeld h
  if astatus ≠ 0 then
    (s.updEp (fun p => { p with fwds := p.fwds.filter (fun g => g.hdr ≠ h), holds := p.holds.filter (fun d => d.hdr ≠ h),
                                logs := p.logs.map (fun l => if l.wait = some h then { l with wait := none } else l) })).ackDelta h astatus holder
  else if s.deltaWaits h then s else s.ackDelta h 0 0

/-- T's answer to entries that this part passed on goes to their sender once all of it has come (R212). -/
def State.fwdAnswer (s : State) (num astatus holder : Nat) : State :=
  match s.epochs.fwds.find? (fun f => f.num = num) with
  | none => s
  | some f => (s.updEp (fun p => { p with fwds := p.fwds.filter (fun g => g.num ≠ num) })).settleDelta f.hdr astatus holder

/-- A part has left the pool (R191): what this part logged to it and passed on to it goes. The senders of entries that it alone was to
apply are sent to it with REDIRECT, and so count them lost; the others' entries are staged here. -/
def State.dropTarget (s : State) (p : Nat) : State :=
  let logs := s.epochs.logs.filter (fun l => l.target = p)
  let alone := fun (l : LogOut) => s.epochs.epoch < l.epoch &&
    (s.migOf l.table l.entry.row (fun st => st = 3)).any (fun m => m.target = p && s.cutSent m)
  let lost := ((s.epochs.fwds.filter (fun f => f.target = p)).map (·.hdr) ++ (logs.filter alone).filterMap (·.wait)).eraseDups
  let rest := (logs.filterMap (·.wait)).eraseDups.filter (fun h => !lost.contains h)
  let s := s.updEp (fun q => { q with logs := q.logs.filter (fun l => l.target ≠ p), fwds := q.fwds.filter (fun f => f.target ≠ p) })
  rest.foldl (fun s h => s.settleDelta h 0 0) (lost.foldl (fun s h => s.settleDelta h 2 p) s)

/-- DELTA_ACK (R198). -/
def execDeltaAck (h : MsgHdr) (astatus : Nat) (holder : Nat) (s : State) : Host.Outcome State Fault Refusal :=
  let s := s.takeMsg (.deltaAck h astatus holder)
  let tag := h.tagSlot * 128 + h.tagSeq
  if h.forward then .next (s.fwdAnswer h.num astatus holder)
  else
    match s.answered? h 4 with
    | none => .next (s.late h 0)
    | some _ =>
      let k := h.srcCluster % 16
      let g := s.epochs.sent.filter (fun e => e.unit = k && e.tag = some tag)
      .next ((s.freeOut k h.tagSlot).deltaAnswer g astatus holder).pumpDeltas

/-- STAGE_FULL_RESEND (R198): entries refused 1 µs ago are sent again. -/
def execStageFullResend (s : State) : Host.Outcome State Fault Refusal :=
  let s := s.updEp (fun p => { p with sent := p.sent.map (fun e => match e.fullAt with
    | some t => if s.since t 1 then { e with fullAt := none } else e
    | none => e) })
  .next s.pumpDeltas

end Sys2Proof.Machine
end

