-- ==== Sys2Proof/Machine/Combine.lean ====
section
/-! DEFINITION. Applying an epoch's deltas to rows: combining (R200, R201), storing (R202, R203), snapshots (R204 to R206, R189), and
poisoned rows (R469). -/

namespace Sys2Proof.Machine

open Sys2Proof

/-! ### Combining (R200, R201) -/

/-- A value of an update entry as FP32 (R56). -/
def UpdEntry.val (e : UpdEntry) (v : Nat) : Nat := if e.vfmt = 1 then v * 2 ^ 16 % 2 ^ 32 else v

/-- Order of entries: SRC_PART, then SRC_SEQ. -/
def updBefore (a b : UpdEntry) : Bool := a.srcPart < b.srcPart || (a.srcPart = b.srcPart && a.srcSeq ≤ b.srcSeq)

/-- Insert an entry in order; a pair that is there already is not added. -/
def insertUpd (e : UpdEntry) : List UpdEntry → List UpdEntry
  | [] => [e]
  | f :: fs => if f.srcPart = e.srcPart && f.srcSeq = e.srcSeq then f :: fs else if updBefore e f then e :: f :: fs else f :: insertUpd e fs

/-- Entries in order. -/
def sortUpd (es : List UpdEntry) : List UpdEntry := es.foldl (fun l e => insertUpd e l) []

/-- Base values and the entries after the last REPLACE (step 1). -/
def splitReplace (base : List Nat) : List UpdEntry → List UpdEntry → List Nat × List UpdEntry
  | rest, [] => (base, rest)
  | rest, e :: es => if e.rule = 0 then splitReplace (e.vals.map e.val) [] es else splitReplace base (rest ++ [e]) es

/-- 1.0 in FP32. -/
abbrev one32 : Nat := 0x3F800000

/-- The sums D of step 2: fused multiply-adds in order, each rounded once with ties to even. -/
def deltaSum (l : Nat) (es : List UpdEntry) : List Nat :=
  es.foldl (fun d e => List.zipWith (fun g a => (ffma32 false (if e.rule = 2 then e.param0 else one32) g a).1) (e.vals.map e.val) d)
    (List.replicate l 0)

/-- A row's new values and accumulator from its value as of the epoch before and the sorted entries. -/
def combine (l : Nat) (v : List Nat) (acc : Nat) (es : List UpdEntry) : List Nat × Nat :=
  let (base, rest) := splitReplace v [] es
  let d := deltaSum l rest
  match rest.reverse.find? (fun e => e.rule = 3) with
  | none => (if rest.isEmpty then base else List.zipWith (fun b x => (fadd32 false b x).1) base d, acc)
  | some last =>
    let sq := d.foldl (fun q g => (ffma32 false g g q).1) 0
    let q := (fdiv32 false sq (floatEncode (floatSpec .fp32) false (intVal l)).1).1
    let a := (fadd32 false acc q).1
    let den := (fadd32 false (fsqrt32 false a).1 last.param1).1
    (List.zipWith (fun b g => (ffma32 false (last.param0 ^^^ 2 ^ 31) (fdiv32 false g den).1 b).1) base d, a)

/-- Collisions among a row's entries of one epoch (R201). -/
def collisionsOf (es : List UpdEntry) : Nat :=
  let ps := ((es.filter (fun e => e.rule = 3)).map (fun e => (e.param0, e.param1))).eraseDups
  ((es.filter (fun e => e.rule = 0)).length - 1) + b2n (2 ≤ ps.length)

/-! ### Storing (R202, R203) -/

/-- The exact quotient of two finite values rounded to an integer, ties to even. -/
def quotInt (m1 m2 : Nat) (e1 e2 : Int) : Nat :=
  let num := m1 * 2 ^ (e1 - e2).toNat
  let den := m2 * 2 ^ (e2 - e1).toNat
  let q := num / den
  let r := num % den
  if den < 2 * r || (2 * r = den && q % 2 = 1) then q + 1 else q

/-- The quotient of a difference and a scale, as R202 gives it. -/
def scaledQuot (d scale : FVal) : FVal :=
  match d, scale with
  | .nan, _ => .nan
  | _, .nan => .nan
  | .inf _, .inf _ => .nan
  | .inf a, .fin b _ _ => .inf (a ≠ b)
  | .fin .., .inf _ => .fin false 0 0
  | .fin a m1 e1, .fin b m2 e2 =>
    if m2 = 0 then (if m1 = 0 then .nan else .inf (a ≠ b)) else .fin (a ≠ b) (quotInt m1 m2 e1 e2) 0

/-- Scale of a new row of a scaled integer table (R203). -/
def Table.newScale (t : Table) (vs : List Nat) : Nat :=
  let fins := vs.filter (fun v => match f32 v with | .fin .. => true | _ => false)
  let m := fins.foldl (fun a v => max a (v % 2 ^ 31)) 0
  if m = 0 then one32
  else (fdiv32 false m (floatEncode (floatSpec .fp32) false (intVal (intMax (fmtWidth t.elem)))).1).1

/-- A row's payload in a tier from FP32 values; `old` is the slot whose scale and bias stay (R202, R203). -/
def Table.restore (t : Table) (tier : Nat) (vs : List Nat) (old : Option (List Byte)) : List Byte :=
  let w := fmtWidth t.elem
  if t.kind = 0 then tierPayload (t.fmt tier) (vs.map f32)
  else if t.kind = 1 then packCodes w (vs.map (fun v => (intEncode w false (f32 v)).1))
  else
    let scale := match old with | some b => fieldAt b 0 4 | none => t.newScale vs
    let bias := match old with | some b => fieldAt b 4 4 | none => 0
    leBytes 4 scale ++ leBytes 4 bias ++
      packCodes w (vs.map (fun v => (intEncode w false (scaledQuot (fvAdd (f32 v) (fvNeg (f32 bias))) (f32 scale))).1))

/-- A row's values as FP32 (R56, R81). -/
def Table.values32 (t : Table) (tier : Nat) (slot : List Byte) : List Nat :=
  (t.values tier slot).map (fun v => (floatEncode (floatSpec .fp32) false v).1)

/-! ### Where a row stands at this part (R76, R209, R211) -/

/-- A row that this part updates: whether it is a held row, and its row-map entry. -/
def State.rowRef (s : State) (t r : Nat) : Option (Bool × Nat) :=
  match s.epochs.held.find? (fun h => h.table = t && h.row = r) with
  | some h =>
    if h.gone = 0 && (h.filled || h.active || s.copyWhole t r true) then some (true, rmEntry h.tier h.filled false h.snap false h.slot)
    else none
  | none =>
    let copy := s.epochs.copies.any (fun c => c.table = t && !c.isRow && c.bucket = bucketOf r && (c.complete || c.rows.contains r))
    let e := s.rowEntry t r
    if (copy || shOwner (s.shard t (bucketOf r)) = s.pool.partId) && !rmMoved e then some (false, e) else none

/-- Write the entry of a row back. -/
def State.setRef (s : State) (held : Bool) (t r e : Nat) : State :=
  if held then
    s.updEp (fun p => { p with held := p.held.map (fun h =>
      if h.table = t && h.row = r then { h with tier := rmTier e, slot := rmSlot e, snap := rmSnap e, filled := rmValid e } else h) })
  else s.setRowEntry t r e

/-- Set or clear RETIER of a row of this part's own row map. -/
def State.setRetier (s : State) (t r : Nat) (on : Bool) : State :=
  match s.rowRef t r with
  | some (false, e) => s.setRowEntry t r (rmEntry (rmTier e) (rmValid e) (rmMoved e) (rmSnap e) on (rmSlot e))
  | _ => s

/-- Clear LOCAL in the tags that `p` selects, and count them (R127, R144); each goes on serving the epoch it served (log entry 24). -/
def Slice.freeze (sl : Slice) (p : BobTag → Bool) : Slice :=
  let hit := fun (g : Nat × BobTag) => p g.2 && g.2.isLocal
  { sl with
    counters := bump sl.counters 0x88 (sl.tags.filter hit).length,
    tags := sl.tags.map (fun g => if hit g then (g.1, { g.2 with isLocal := false, epoch := sl.recorded g.2 }) else g) }

/-- The same in every slice. -/
def State.clearLocal (s : State) (p : BobTag → Bool) : State :=
  { s with slices := s.slices.map (fun (e : Nat × Slice) => (e.1, e.2.freeze p)) }

/-! ### Snapshots (R204 to R206) -/

/-- Add a snapshot entry: in its set of four, else in the overflow area; none where both are full. -/
def Epochs.addSnap (p : Epochs) (n : Snap) : Option Epochs :=
  let set := foldKey p.stageRows (rowKey n.table n.row)
  let l := kget [] p.snaps set
  if l.length < 4 then some { p with snaps := kput p.snaps set (l ++ [n]) }
  else if p.overflow.length < 4096 then some { p with overflow := p.overflow ++ [n] }
  else none

/-- Every snapshot entry. -/
def Epochs.allSnaps (p : Epochs) : List Snap := p.snaps.flatMap (·.2) ++ p.overflow

/-- Give a slot back to its table. -/
def State.freeSlot (s : State) (t a tier : Nat) : State :=
  match kfind s.tables t with
  | none => s
  | some v => { s with tables := kput s.tables t (v.free a tier) }

/-- Keep a row's superseded slot for the readers before fence `n`, or count that it cannot be kept and free it; with whether SNAP
is to stand. A slot that fence `n` itself wrote is freed: nothing reads it. -/
def State.keepSlot (s : State) (t r n e : Nat) : State × Bool :=
  if (s.epochs.snapsOf t r).any (fun x => x.sepoch = n % 256) then
    (if rmValid e then s.freeSlot t (rmSlot e) (rmTier e) else s, true)
  else
    let x : Snap := { sepoch := n % 256, tier := if rmValid e then rmTier e else 0, zero := !rmValid e, slot := if rmValid e then rmSlot e else 0,
                      table := t, row := r }
    match s.epochs.addSnap x with
    | some p => ({ s with epochs := p }, true)
    | none =>
      let s := s.updEp (fun p => { p with lostSnaps := p.lostSnaps ++ [(t, r, n)], counts := { p.counts with snapOver := p.counts.snapOver + 1 } })
      (if rmValid e then s.freeSlot t (rmSlot e) (rmTier e) else s, rmSnap e)

/-- Release the entries of every fence before `n`, the slots they name, and SNAP of rows left without one (R189, R205). -/
def State.releaseSnaps (s : State) (n : Nat) : State :=
  let old := s.epochs.allSnaps.filter (fun x => x.sepoch ≠ n % 256)
  let s := s.updEp (fun p => { p with
    snaps := (p.snaps.map (fun (e : Nat × List Snap) => (e.1, e.2.filter (fun x => x.sepoch = n % 256)))).filter (fun e => !e.2.isEmpty),
    overflow := p.overflow.filter (fun x => x.sepoch = n % 256),
    lostSnaps := p.lostSnaps.filter (fun l => n ≤ l.2.2) })
  old.foldl (fun s x =>
    let s := if x.zero then s else s.freeSlot x.table x.slot x.tier
    match s.rowRef x.table x.row with
    | none => s
    | some (held, e) =>
      if rmSnap e && (s.epochs.snapsOf x.table x.row).isEmpty then
        s.setRef held x.table x.row (rmEntry (rmTier e) (rmValid e) (rmMoved e) false (rmRetier e) (rmSlot e))
      else s) s

/-- A new STAGE_ROWS gives the directory another number of sets (R204, R219). -/
def Epochs.resizeSnaps (p : Epochs) (rows : Nat) : Epochs :=
  if rows = p.stageRows then p
  else p.allSnaps.foldl (fun q x => (q.addSnap x).getD { q with overflow := q.overflow ++ [x] })
    { p with stageRows := rows, snaps := [], overflow := [] }

/-! ### Applying (R189, R200, R469) -/

/-- A row slot read for applying or requantising; a mismatch counts as poison and is read again (R464, R466, R469). -/
def State.readForFence (s : State) (t r tier slot : Nat) : State × ReplyEntry × Bool :=
  let v := s.table t
  let (s, rep) := s.readSlot (bucketKey 16 0) v tier slot (s.poisoned (s.rowMapAt t r) 8)
  if rep.poison then (s, rep, true)
  else if rep.badMeta || !v.tagOk t r tier rep.slot then
    (s.mismatch { addr := slot, size := v.slotSize tier, blockId := rowBlockId t v.gen r, isRow := true, tier := tier, queue := 0xFFFF,
                  seq := 0 }, rep, true)
  else (s, rep, false)

/-- The record of a poisoned row, with the entries discarded (R469, R486). -/
def State.consumeRow (s : State) (t r slot discarded : Nat) : State :=
  s.consume { event := 0, unit := 0x08, addr := s.pool.partId * devSize + slot, blockId := rowBlockId t (s.table t).gen r,
              detail := leBytes 4 discarded }

/-- A pass's prepared slot of a row (R216). -/
def RetierPass.prepared? (p : RetierPass) (t r : Nat) : Option (Nat × Nat) :=
  if p.table = t && p.bucket = bucketOf r then (p.shadow.find? (fun x => x.1 = localOf r)).map (·.2) else none

/-- A fence's new value of a row in a block being re-tiered goes to a fresh prepared slot as well (R216); without room for it the row leaves
the block and keeps its tier. -/
def State.prepareAgain (s : State) (t r : Nat) (vs : List Nat) (acc : Nat) : State :=
  match s.epochs.passes.find? (fun p => (p.prepared? t r).isSome && (p.state = 1 || p.state = 2)) with
  | none => s
  | some p =>
    match p.prepared? t r with
    | none => s
    | some (old, tier) =>
      let v := s.table t
      let upd := fun (s : State) (f : RetierPass → RetierPass) => s.updEp (fun q => { q with
        passes := q.passes.map (fun x => if x.passId = p.passId then f x else x) })
      let s := s.freeSlot t old tier
      match (s.table t).alloc tier with
      | none =>
        (upd s (fun x => { x with shadow := x.shadow.filter (fun y => y.1 ≠ localOf r),
                                  targets := x.targets.filter (fun y => y.1 ≠ localOf r) })).setRetier t r false
      | some (a, v') =>
        let s := { s with tables := kput s.tables t v' }
        let s := s.writeSlot a tier (v.slotBytes t r tier (tierPayload (v.fmt tier) (vs.map f32)) acc)
        upd s (fun x => { x with shadow := x.shadow.map (fun y => if y.1 = localOf r then (y.1, a, tier) else y) })

/-- The entries of a row for fence `n` are discarded (R203, R469). -/
def State.dropEntries (s : State) (n t r : Nat) : State :=
  let mine := fun (e : UpdEntry) => e.table = t && e.row = r
  s.updEp (fun p => { p with
    staging := p.staging.map (fun g => if g.epoch = n then { g with entries := g.entries.filter (fun e => !mine e) } else g),
    copies := p.copies.map (fun c => { c with log := c.log.filter (fun l => !(l.1 = n && mine l.2)) }) })

/-- Apply a row's entries of epoch `n` (R200 to R206). `quiet` keeps no snapshot: nobody reads the copy yet (R210). -/
def State.applyRow (s : State) (n : Nat) (quiet : Bool) (t r : Nat) (es : List UpdEntry) : State :=
  let v := s.table t
  match s.rowRef t r with
  | none => s
  | some (held, e) =>
    if v.state ≠ 2 || es.isEmpty then s
    else
      let es := sortUpd (es.filter (fun u => u.gen = v.gen && u.vals.length = v.len))
      let count := fun (s : State) (f : FenceStats → FenceStats) => s.updEp (fun p => { p with counts := f p.counts })
      let s := count s (fun c => { c with collisions := c.collisions + collisionsOf es })
      let tier := if rmValid e then rmTier e else v.defaultTier
      let (s, rep, bad) := if rmValid e then s.readForFence t r (rmTier e) (rmSlot e) else (s, bareReply 1 0, false)
      let others := (es.filter (fun u => u.rule ≠ 0)).length
      let s := if bad then s.consumeRow t r (rmSlot e) others else s
      let es := if bad then es.filter (fun u => u.rule = 0) else es
      if es.isEmpty then s.dropEntries n t r
      else
        let old := if rmValid e then some rep.slot else none
        let v0 := if rmValid e then v.values32 (rmTier e) rep.slot else List.replicate v.len 0
        let acc0 := if rmValid e then v.accOf (rmTier e) rep.slot else 0
        let (vs, acc) := combine v.len v0 acc0 es
        match v.alloc tier with
        | none => (count s (fun c => { c with capDrops := c.capDrops + 1 })).dropEntries n t r
        | some (a, v') =>
          let v' := if rmValid e then v' else { v' with rows := v'.rows + 1 }
          let s := { s with tables := kput s.tables t v' }
          let s := s.writeSlot a tier (v.slotBytes t r tier (v.restore tier vs old) acc)
          let (s, snap) :=
            if quiet then (if rmValid e then s.freeSlot t (rmSlot e) (rmTier e) else s, rmSnap e) else s.keepSlot t r n e
          let s := s.setRef held t r (rmEntry tier true false snap (rmRetier e) a)
          let s := s.clearLocal (fun g => g.table = t && g.row = r)
          let s := s.prepareAgain t r vs acc
          count s (fun c => { c with rows := c.rows + 1 })

end Sys2Proof.Machine
end

