-- ==== Sys2Proof/Machine/Retier.lean ====
section
/-! DEFINITION. Re-tiering passes (R215 to R217) and the skew monitor's control operations (R207, R208). -/

namespace Sys2Proof.Machine

open Sys2Proof

/-! ### Blocks (R216) -/

/-- Local indices in a row block. -/
abbrev blockRows : Nat := 131072

/-- Change a pass. -/
def State.updPass (s : State) (id : Nat) (f : RetierPass → RetierPass) : State :=
  s.updEp (fun p => { p with passes := p.passes.map (fun x => if x.passId = id then f x else x) })

/-- A pass. -/
def State.pass? (s : State) (id : Nat) : Option RetierPass := s.epochs.passes.find? (fun p => p.passId = id)

/-- Units of shadow maps that no pass uses any more are given back (R216, R591). -/
def State.fitShadows (s : State) : State :=
  let used := s.epochs.passes.filterMap (·.shadowAt)
  { s with firmUnits := kset [] s.firmUnits 4 ((kget [] s.firmUnits 4).filter (fun u => used.any (fun a => a / 2 ^ 25 = u))) }

/-- The first free MiB of the units that shadow maps have. -/
def freeShadow (units used : List Nat) : Option Nat :=
  (units.flatMap (fun u => (List.range 32).map (fun i => u * 2 ^ 25 + i * 2 ^ 20))).find? (fun a => !used.contains a)

/-- Allocate a pass's 1 MiB shadow map (R216), in a fresh unit where the others are full; none while no unit is free. -/
def State.takeShadow (s : State) (p : RetierPass) : Option State :=
  let l := kget [] s.firmUnits 4
  let used := s.epochs.passes.filterMap (·.shadowAt)
  let give := fun (s : State) (a : Nat) => s.updPass p.passId (fun p => { p with shadowAt := some a })
  if p.shadowAt.isSome then some s
  else
    match freeShadow l used with
    | some a => some (give s a)
    | none =>
      match s.takeUnits 1 with
      | some [u] => some (give { s with firmUnits := kput s.firmUnits 4 (u :: l) } (u * 2 ^ 25))
      | _ => none

/-- A pass ends: it is forgotten and its RETIER_PASS is answered with PASS_ID. -/
def State.endPass (s : State) (p : RetierPass) (status : Nat) : State :=
  (s.updEp (fun q => { q with passes := q.passes.filter (fun x => x.passId ≠ p.passId) })).fitShadows.opEnd (some (p.fn, p.passId)) status
    (leBytes 4 p.passId)

/-- Roll back the block in hand: the prepared slots and the shadow map go, RETIER is cleared (R217). -/
def State.rollBack (s : State) (p : RetierPass) : State :=
  if p.state = 1 || p.state = 2 then
    let s := p.shadow.foldl (fun s x => s.freeSlot p.table x.2.1 x.2.2) s
    let s := p.targets.foldl (fun s x => s.setRetier p.table (rowOf p.bucket x.1) false) s
    (s.updPass p.passId (fun p => { p with state := 0, shadow := [], targets := [], shadowAt := none })).fitShadows
  else s

/-- A 4-bit entry of the tier map. -/
def nibbleAt (bs : List Byte) (i : Nat) : Nat := fieldAt bs (i / 2) 1 / 16 ^ (i % 2) % 16

/-- Take the block in hand: mark the rows whose tier changes (R215, R216). -/
def takeBlock (p : RetierPass) : CM Unit := do
  let t := (← get).table p.table
  let first := p.block * blockRows
  let n := min blockRows (t.bucketRows - first)
  let bs ← readCp (cpWho p.fn) (p.map + (p.bucket - p.first) * up64 (cdiv t.bucketRows 2) + first / 2) (cdiv n 2)
  let s ← get
  let want := fun (i : Nat) =>
    match s.rowRef p.table (rowOf p.bucket (first + i)) with
    | some (false, e) =>
      let k := nibbleAt bs i
      if !rmValid e || 4 ≤ k || t.nearTier k = rmTier e then none else some (first + i, t.nearTier k)
    | _ => none
  let targets := (List.range n).filterMap want
  modify (fun s =>
    let s := targets.foldl (fun s x => s.setRetier p.table (rowOf p.bucket x.1) true) s
    s.updPass p.passId (fun p => { p with state := 1, targets := targets, shadow := [] }))

/-- The next block of the range, or none after the last (R216). -/
def RetierPass.next (p : RetierPass) (rows : Nat) : Option RetierPass :=
  let p := { p with state := 0, targets := [], shadow := [], shadowAt := none }
  if (p.block + 1) * blockRows < rows then some { p with block := p.block + 1 }
  else if p.bucket < p.last then some { p with bucket := p.bucket + 1, block := 0 }
  else none

/-- Take the next block of a pass that has none in hand; buckets of other parts are passed over. DESIGN CHOICE: a pass waits in IDLE while
there is no room for its shadow map (R216; log entry 24). -/
def State.nextBlock : Nat → State → Nat → State
  | 0, s, _ => s
  | n + 1, s, id =>
    match s.pass? id with
    | none => s
    | some p =>
      if p.state ≠ 0 then s
      else if (s.table p.table).state ≠ 2 then s.endPass p stTableUnavailable
      else if shOwner (s.shard p.table p.bucket) ≠ s.pool.partId then
        match p.next 0 with
        | none => s.endPass p stOk
        | some q => State.nextBlock n (s.updPass id (fun _ => q)) id
      else
        match s.takeShadow p with
        | none => s
        | some s =>
          match (takeBlock p).run s with
          | (.ok _, s) => s.cpDone
          | (.error .wait, s) => s
          | (.error (.fail st), s) => s.cpDone.endPass p st

/-- Requantise a row into a prepared slot (R216); a poisoned row, and one for which there is no room, keeps its slot and tier. -/
def State.prepareRow (s : State) (id : Nat) (t r l tier : Nat) : State :=
  let v := s.table t
  match s.rowRef t r with
  | some (false, e) =>
    if !rmValid e then s
    else
      let (s, rep, bad) := s.readForFence t r (rmTier e) (rmSlot e)
      if bad then (s.consumeRow t r (rmSlot e) 0).setRetier t r false
      else
        match (s.table t).alloc tier with
        | none => s.setRetier t r false
        | some (a, v') =>
          let s := { s with tables := kput s.tables t v' }
          let s := s.writeSlot a tier (v.slotBytes t r tier (tierPayload (v.fmt tier) (v.values (rmTier e) rep.slot)) (v.accOf (rmTier e) rep.slot))
          s.updPass id (fun p => { p with shadow := p.shadow ++ [(l, a, tier)] })
  | _ => s

/-- RETIER_BLOCK_PREPARED (R216): every row of the block in hand is prepared; a pass that waits for its tier map goes on. -/
def execRetierBlockPrepared (pass : BitVec 32) (s : State) : Host.Outcome State Fault Refusal :=
  let id := pass.toNat
  match s.pass? id with
  | none => .next s
  | some p =>
    if p.state = 0 then .next (State.nextBlock 4097 s id)
    else if p.state ≠ 1 then .next s
    else
      let s := p.targets.foldl (fun s x => s.prepareRow id p.table (rowOf p.bucket x.1) x.1 x.2) s
      .next (s.updPass id (fun p => { p with state := 2 }))

/-- Switch a prepared row to its shadow entry (R216). -/
def State.switchRow (s : State) (n : Nat) (p : RetierPass) (x : Nat × Nat × Nat) : State :=
  let r := rowOf p.bucket x.1
  match s.rowRef p.table r with
  | some (false, e) =>
    let (s, snap) := s.keepSlot p.table r n e
    let s := s.setRowEntry p.table r (rmEntry x.2.2 true false snap false x.2.1)
    let s := s.clearLocal (fun g => g.table = p.table && g.row = r)
    s.updPass p.passId (fun p => { p with retiered := p.retiered + 1 })
  | _ => s.freeSlot p.table x.2.1 x.2.2

/-- The snapshot directory has room for a block's rows (R216). -/
def State.snapRoom (s : State) (n : Nat) (p : RetierPass) : Bool :=
  (p.shadow.foldl (fun q x =>
    let r := rowOf p.bucket x.1
    match q with
    | none => none
    | some e =>
      if (e.snapsOf p.table r).any (fun y => y.sepoch = n % 256) then some e
      else e.addSnap { sepoch := n % 256, tier := 0, zero := false, slot := 0, table := p.table, row := r }) (some s.epochs)).isSome

/-- At a fence, switch the prepared blocks that fit; `away` says which buckets the fence cuts over (R216). -/
def State.switchBlocks (s : State) (n : Nat) (away : Nat → Nat → Bool) : State :=
  s.epochs.passes.foldl (fun s p0 =>
    match s.pass? p0.passId with
    | none => s
    | some p =>
      if away p.table p.bucket then s.rollBack p
      else if p.state ≠ 2 || !s.snapRoom n p then s
      else
        let s := p.shadow.foldl (fun s x => s.switchRow n p x) s
        s.updPass p.passId (fun p => { p with state := 3, switchEpoch := n, shadow := [], targets := [] })) s

/-- Once the fence that switched a block is complete, the pass goes on with the next block (R216). -/
def State.blocksDone (s : State) : State :=
  (s.epochs.passes.filter (fun p => p.state = 3)).foldl (fun s p =>
    match p.next (s.table p.table).bucketRows with
    | none => s.endPass p stOk
    | some q => State.nextBlock 4097 (s.updPass p.passId (fun _ => q)).fitShadows p.passId) s

/-! ### Control operations (R215, R218, R219) -/

/-- RETIER_PASS. -/
def execRetierPass (f : FnId) (slot : Fin 28) (s : State) : Host.Outcome State Fault Refusal :=
  .next (s.serve f slot 0x050F true (fun r s =>
    let t := r.u 0 2
    checks s [(4096 ≤ r.u 2 2 || 4096 ≤ r.u 4 2 || r.u 4 2 < r.u 2 2 || 2 ^ 52 ≤ r.u 8 8, stBadPattern),
              ((s.table t).state ≠ 2, stTableUnavailable),
              (s.epochs.passes.any (fun p => p.table = t), stMigrationConflict)]
      (.async (fun s id =>
        let p : RetierPass := { passId := id, fn := f, table := t, first := r.u 2 2, last := r.u 4 2, map := r.u 8 8, bucket := r.u 2 2 }
        State.nextBlock 4097 (s.updEp (fun q => { q with passes := q.passes ++ [p] })) id))))

/-- RETIER_QUERY. DESIGN CHOICE: STATE is encoded in the order of R216's table: 0 IDLE, 1 PREPARING, 2 PREPARED, 3 SWITCHED (log
entry 24). -/
def execRetierQuery (f : FnId) (slot : Fin 28) (s : State) : Host.Outcome State Fault Refusal :=
  .next (s.serve f slot 0x0510 true (fun r s =>
    match s.pass? (r.u 0 4) with
    | none => refuse s stMigrationConflict
    | some p => .done s stOk (leBytes 2 p.state ++ leBytes 2 p.bucket ++ leBytes 4 p.block ++ leBytes 8 p.retiered)))

/-- A status that the spec leaves open: any of the classes of R14, 0x00 (OK alone) to 0x07. -/
def openStatus (v : Nat) : Nat := if v % 2048 < 256 then stOk else v % 2048

/-- RETIER_CANCEL (R217): rolls the block in hand back; the status of the pass's own answer is open (log entry 6). -/
def execRetierCancel (f : FnId) (slot : Fin 28) (s : State) : Host.Outcome State Fault Refusal :=
  .next (s.serve f slot 0x0511 true (fun r s =>
    match s.pass? (r.u 0 4) with
    | none => refuse s stMigrationConflict
    | some p =>
      let (s, d) := (s.rollBack p).draw
      .done (s.endPass p (openStatus (Config.freeValue 1 d))) stOk []))

/-! ### Writing for control operations -/

/-- Split bytes at multiples of 64. -/
def lineSplit : Nat → Nat → List Byte → List (Nat × List Byte)
  | 0, _, _ => []
  | _ + 1, _, [] => []
  | n + 1, a, bs => (a, bs.take (64 - a % 64)) :: lineSplit n (a / 64 * 64 + 64) (bs.drop (64 - a % 64))

/-- Write bytes that lie in one line. A line of another part is read, changed and written back. -/
def writeCpLine (w : Who) (va : Nat) (bs : List Byte) : CM Unit := do
  match ← place w va true true with
  | .host h => modify (fun s => if s.mayWriteHost w then s.writeHost h bs else s)
  | .dev pa =>
    if pa / devSize = (← get).pool.partId then modify (fun s => s.writePlain (pa % devSize) bs ({ w with va := va } : Who).via)
    else
      let old ← if bs.length = 64 then pure ({ data := bs } : WireWord) else poolLine { w with va := va } pa 64
      writeWords { w with va := va } (.dev (pa / 64 * 64))
        [{ data := (old.data.take (pa % 64)) ++ bs ++ old.data.drop (pa % 64 + bs.length), poison := old.poison }]

/-- Write bytes for a control request of a function, and wait until writes to another part are acknowledged (log entry 19). -/
def writeCp (w : Who) (me : Nat × Nat) (va : Nat) (bs : List Byte) : CM Unit := do
  if 2 ^ 52 < va + bs.length then throw (.fail stBadPattern)
  else
    let s ← get
    match s.cpWrite with
    | some o =>
      if o ≠ me || (s.core 128).wpend ≠ 0 then throw .wait
      else
        set ({ s with cpWrite := none } : State)
        if (s.core 128).rfail ≠ 0 then throw (.fail (s.core 128).rfail) else return ()
    | none =>
      let ls := lineSplit (bs.length + 1) va bs
      ls.forM (fun l => discard (place w l.1 true true))
      ls.forM (fun l => writeCpLine w l.1 l.2)
      if ((← get).core 128).wpend ≠ 0 then
        modify (fun s => { s with cpWrite := some me })
        throw .wait
      else return ()

/-! ### Skew counters (R207, R208) -/

/-- SKEW_WATCH. -/
def execSkewWatch (f : FnId) (slot : Fin 28) (s : State) : Host.Outcome State Fault Refusal :=
  .next (s.serve f slot 0x050D true (fun r s =>
    checks s [(16 ≤ r.u 2 1 || 2 ≤ r.u 3 1, stBadPattern), ((s.table (r.u 0 2)).state ≠ 2, stTableUnavailable)]
      (let ws := s.epochs.watches
       let ws := if r.u 3 1 = 1 then kput ws (r.u 2 1) { table := r.u 0 2, cleared := s.refCount } else kdel ws (r.u 2 1)
       .done (s.updEp (fun p => { p with watches := ws })) stOk [])))

/-- Bytes of the hot-row table. -/
def hotBytes (l : List HotRow) : List Byte :=
  (List.range 256).flatMap (fun i => match l[i]? with
    | some h => leBytes 2 h.table ++ leBytes 5 h.row ++ leBytes 1 0 ++ leBytes 2 h.notices ++ leBytes 2 h.clusters ++ leBytes 4 0
    | none => leBytes 16 0)

/-- SKEW_QUERY. -/
def execSkewQuery (f : FnId) (slot : Fin 28) (s : State) : Host.Outcome State Fault Refusal :=
  .next (s.serve f slot 0x050E true (fun r s =>
    let i := r.u 0 1
    let w := kget { table := 0 } s.epochs.watches i
    let bs := (List.range 4096).flatMap (fun b => let c := kget {} w.counts b; leBytes 4 c.lookups ++ leBytes 4 c.deltas) ++ hotBytes s.epochs.hot
    checks s [(16 ≤ i || 2 ≤ r.u 1 1 || 2 ^ 52 ≤ r.u 8 8, stBadPattern)]
      (cpRun s (writeCp (cpWho f) (f, slot) (r.u 8 8) bs) (fun s _ =>
        let ws := match kfind s.epochs.watches i with
          | some w => kput s.epochs.watches i { w with counts := [], cleared := s.refCount }
          | none => s.epochs.watches
        let s := if r.u 1 1 = 1 then s.updEp (fun p => { p with hot := [], watches := ws }) else s
        .done s stOk (leBytes 8 (s.refCount - w.cleared))))))

end Sys2Proof.Machine
end

