-- ==== Sys2Proof/Machine/Migrate.lean ====
section
/-! DEFINITION. Bucket and row migration (R209 to R214): requests, copies and logs at A and at T, and shard changes at a fence. -/

namespace Sys2Proof.Machine

open Sys2Proof

/-! ### Bookkeeping -/

/-- A migration's key. -/
def Migration.isFor (m : Migration) (t : Nat) (isRow : Bool) (b r : Nat) : Bool :=
  m.table = t && m.isRow = isRow && (if isRow then m.row = r else m.bucket = b)

/-- The migration of a bucket or row, if this part keeps one as A. -/
def State.mig? (s : State) (t : Nat) (isRow : Bool) (b r : Nat) : Option Migration :=
  s.epochs.migrations.find? (fun m => m.isFor t isRow b r)

/-- Change a migration. -/
def State.updMig (s : State) (m : Migration) (f : Migration → Migration) : State :=
  s.updEp (fun p => { p with migrations := p.migrations.map (fun x => if x.isFor m.table m.isRow m.bucket m.row then f x else x) })

/-- A migration in progress: announced, copying, ready or cut (R214). -/
def Migration.live (m : Migration) : Bool := 1 ≤ m.state && m.state ≤ 4

/-- The change that a migration reports (R213). -/
def Migration.change (m : Migration) (me kind : Nat) : ShardChange :=
  { table := m.table, bucket := m.bucket, owner := me, next := m.target, kind := kind, row := if m.isRow then some m.row else none }

/-- Report a change with the next FENCE_CLOSED. -/
def State.report (s : State) (c : ShardChange) : State := s.updEp (fun p => { p with changes := p.changes ++ [c] })

/-- Change a copy at T. -/
def State.updCopy (s : State) (t : Nat) (isRow : Bool) (b r : Nat) (f : CopyIn → CopyIn) : State :=
  s.updEp (fun p => { p with copies := p.copies.map (fun c =>
    if c.table = t && c.isRow = isRow && (if isRow then c.row = r else c.bucket = b) then f c else c) })

/-- A copy at T. -/
def State.copy? (s : State) (t : Nat) (isRow : Bool) (b r : Nat) : Option CopyIn :=
  s.epochs.copies.find? (fun c => c.table = t && c.isRow = isRow && (if isRow then c.row = r else c.bucket = b))

/-! ### A: sending copies (R209, R214) -/

/-- A row as a copy carries it: its slot, or its directory entry where the row has moved (R214). While a fence is being applied the
slots are those of its epoch. -/
def State.copyOf (s : State) (t r : Nat) : State × Option (Nat × ReplyEntry) :=
  let e := s.rowEntry t r
  if rmMoved e then
    match s.dirEntry t r with
    | some d => (s, some (d.cutover, { bareReply 2 d.holder with forwarded := d.forward }))
    | none => (s, none)
  else if rmValid e then
    let (s, a, bad) := s.readForFence t r (rmTier e) (rmSlot e)
    (s, some (s.epochs.epoch + b2n (s.epochs.phase = 3), if bad then { a with poison := true, estatus := 5 } else a))
  else (s, none)

/-- What a migration copies of a row: what the holder of a moved row has given, else what this part has (R209, R558). -/
def State.copyFor (s : State) (m : Migration) (r : Nat) : State × Option (Nat × ReplyEntry) :=
  if m.via.isSome then (s, m.got) else s.copyOf m.table r

/-- Ask a moved row's holder for the row as of the local epoch, once every delta of a later epoch has been logged (R558; log entry 24). -/
def State.askHolder (s : State) (m : Migration) : State :=
  match m.via with
  | none => s
  | some p =>
    if m.asked || s.epochs.epoch < m.askFrom then s
    else
      let e : XchgEntry := { table := m.table, row := m.row, gen := (s.table m.table).gen, core := askCore, gid := 0, entry := 0, cmd := 0 }
      let b : Batch := { owner := p, part := 16, epoch := s.epochs.epoch, prefetch := false, redirected := false, entries := [e],
                         opened := s.refCount, timeout := (s.exch 0).timeout }
      ((s.updMig m (fun m => { m with asked := true })).sendBatch 0 b true).getD s

/-- The end marker in a migration's list of outstanding rows. -/
abbrev endMark : Nat := 2 ^ 40

/-- Send a copy of a row, or the end marker, under the next number (R209, R307). -/
def State.sendCopy (s : State) (m : Migration) (r epoch : Nat) (a : ReplyEntry) : State × Nat :=
  let (s, n) := s.takeNum
  let final := decide (r = endMark)
  (s.poolSend m.target (.migrateCopy (s.numHdr n epoch) m.table m.bucket m.isRow (if final then m.row else r) a final), n)

/-- Send copies from local index `m.next` on while no message of pool service waits for tokens; after the last row, the end marker. -/
def State.pumpCopies : Nat → State → Migration → State
  | 0, s, _ => s
  | n + 1, s, m =>
    let rows := if m.isRow then 1 else (s.table m.table).bucketRows
    if m.state ≠ 2 || m.ended || !(kget [] s.outbox 0).isEmpty then s
    else if rows ≤ m.next then
      let (s, num) := s.sendCopy m endMark s.epochs.epoch (bareReply 1 0)
      s.updMig m (fun m => { m with ended := true, out := m.out ++ [(endMark, num)] })
    else if m.via.isSome && m.got.isNone then s.askHolder m
    else
      let r := if m.isRow then m.row else rowOf m.bucket m.next
      match s.copyFor m r with
      | (s, none) =>
        let m' := { m with next := m.next + 1 }
        State.pumpCopies n (s.updMig m (fun _ => m')) m'
      | (s, some (epoch, a)) =>
        let (s, num) := s.sendCopy m r epoch a
        let m' := { m with next := m.next + 1, out := m.out ++ [(r, num)] }
        State.pumpCopies n (s.updMig m (fun _ => m')) m'

/-- Go on with a migration's copies. -/
def State.pumpMig (s : State) (m : Migration) : State := State.pumpCopies ((s.table m.table).bucketRows + 2) s m

/-- Go on with every migration's copies. -/
def State.pumpMigs (s : State) : State := s.epochs.migrations.foldl (fun s m => s.pumpMig m) s

/-- Copying begins: entries already staged for the rows are logged to T, then the rows are copied. -/
def State.beginCopy (s : State) (m : Migration) : State :=
  let s := s.updMig m (fun m => { m with state := 2 })
  let hit := fun (e : UpdEntry) => e.table = m.table && (if m.isRow then e.row = m.row else bucketOf e.row = m.bucket)
  let s := s.epochs.staging.foldl (fun s g =>
    (g.entries.filter (fun e => hit e && s.epochs.epoch < g.epoch)).foldl (fun s e => s.logDelta g.epoch none e) s) s
  s.pumpMig { m with state := 2 }

/-! ### Requests (R209, R214, R219) -/

/-- Checks common to both kinds: ownership, target and limits. -/
def State.migConflict (s : State) (t b target : Nat) (isRow : Bool) (r : Nat) : Bool :=
  let sh := s.shard t b
  let l := s.epochs.migrations.filter (·.live)
  shOwner sh ≠ s.pool.partId || target = s.pool.partId || !s.member target || shMigrating sh ||
    l.any (fun m => m.table = t && (if isRow && m.isRow then m.row = r else m.bucket = b)) ||
    (if isRow then 4096 ≤ (l.filter (·.isRow)).length else 64 ≤ (l.filter (fun m => !m.isRow)).length)

/-- BUCKET_MIGRATE: ANNOUNCED. Whether T has room is an open value (log entry 8). -/
def execBucketMigrate (f : FnId) (slot : Fin 28) (s : State) : Host.Outcome State Fault Refusal :=
  .next (s.serve f slot 0x0509 true (fun r s =>
    let t := r.u 0 2
    let b := r.u 2 2
    let m : Migration := { table := t, isRow := false, bucket := b, row := 0, target := r.u 4 2, state := 1 }
    checks s [(4096 ≤ b, stBadPattern), ((s.table t).state ≠ 2, stTableUnavailable),
              (s.migConflict t b (r.u 4 2) false 0, stMigrationConflict)]
      (let (s, d) := s.draw
       if !Config.targetRoom d then refuse s stTableCapacity
       else
         let s := s.updEp (fun p => { p with migrations := p.migrations.filter (fun x => !x.isFor t false b 0) ++ [m] })
         .done (s.report (m.change s.pool.partId 1)) stOk [])))

/-- Write a directory entry; none where the row's set is full (R153). -/
def State.addDir (s : State) (d : DirEntry) : Option State :=
  let set := foldKey 18 (rowKey d.table d.row)
  let l := (kget [] s.directory set).filter (fun x => !(x.table = d.table && x.row = d.row))
  if 4 ≤ l.length then none else some { s with directory := kput s.directory set (l ++ [d]) }

/-- Change or clear a directory entry. -/
def State.updDir (s : State) (t r : Nat) (f : DirEntry → Option DirEntry) : State :=
  let set := foldKey 18 (rowKey t r)
  let l := (kget [] s.directory set).filterMap (fun d => if d.table = t && d.row = r then f d else some d)
  { s with directory := if l.isEmpty then kdel s.directory set else kput s.directory set l }

/-- The part that holds a moved row (R155). -/
def State.holderOf (s : State) (t r : Nat) : Option Nat :=
  if rmMoved (s.rowEntry t r) then (s.dirEntry t r).map (·.holder) else none

/-- The cancel of an earlier copy to the same part has not been applied yet: copying begins once that part has given the copy up. -/
def State.cancelling (s : State) (m : Migration) : Bool :=
  s.epochs.changes.any (fun c => c.kind = 3 && c.table = m.table && c.row = some m.row && c.next = m.target)

/-- ROW_MIGRATE: the directory entry stands and the row is COPYING. A moved row is copied from its present holder, and its entry
stands until the cut-over (R558); its present holder is refused as its target (log entry 24). -/
def execRowMigrate (f : FnId) (slot : Fin 28) (s : State) : Host.Outcome State Fault Refusal :=
  .next (s.serve f slot 0x050A true (fun r s =>
    let t := r.u 0 2
    let row := r.u 8 8
    let b := bucketOf row
    let m : Migration := { table := t, isRow := true, bucket := b, row := row, target := r.u 2 2, state := 2 }
    checks s [(2 ≤ r.u 4 1 || (s.table t).rowCount ≤ row && (s.table t).state = 2, stBadPattern),
              ((s.table t).state ≠ 2, stTableUnavailable),
              (s.migConflict t b (r.u 2 2) true row || s.holderOf t row = some (r.u 2 2), stMigrationConflict)]
      (match s.holderOf t row, s.addDir { cutover := 0, holder := r.u 2 2, forward := r.u 4 1 = 1, table := t, row := row } with
       | some p, _ =>
         let (s', d) := s.draw
         if !Config.targetRoom d then refuse s' stTableCapacity
         else
           let m := { m with via := some p, forward := decide (r.u 4 1 = 1), askFrom := s.epochs.epoch + 2, state := if s.cancelling m then 1 else 2 }
           .done (s'.updEp (fun p => { p with migrations := p.migrations.filter (fun x => !x.isFor t true b row) ++ [m] })) stOk []
       | none, none => refuse s stTableCapacity
       | none, some s' =>
         let (s', d) := s'.draw
         if !Config.targetRoom d then refuse { s with freeCtr := s'.freeCtr } stTableCapacity
         else
           let m := { m with state := if s.cancelling m then 1 else 2 }
           let s' := s'.updEp (fun p => { p with migrations := p.migrations.filter (fun x => !x.isFor t true b row) ++ [m] })
           .done (if m.state = 1 then s' else s'.beginCopy m) stOk [])))

/-- A MIGRATE_QUERY or MIGRATE_CANCEL has a field outside its range (R218, R219). -/
def State.migReqBad (s : State) (r : Req) : Bool :=
  let t := s.table (r.u 0 2)
  2 ≤ r.u 2 1 || (r.u 2 1 = 0 && 4096 ≤ r.u 4 2) || (r.u 2 1 = 1 && (2 ^ 40 ≤ r.u 8 8 || (t.state = 2 && t.rowCount ≤ r.u 8 8)))

/-- The migration that a MIGRATE_QUERY or MIGRATE_CANCEL names. -/
def State.reqMig (s : State) (r : Req) : Option Migration :=
  s.mig? (r.u 0 2) (r.u 2 1 = 1) (if r.u 2 1 = 1 then bucketOf (r.u 8 8) else r.u 4 2) (if r.u 2 1 = 1 then r.u 8 8 else 0)

/-- MIGRATE_QUERY. -/
def execMigrateQuery (f : FnId) (slot : Fin 28) (s : State) : Host.Outcome State Fault Refusal :=
  .next (s.serve f slot 0x050B true (fun r s =>
    checks s [(s.migReqBad r, stBadPattern), ((s.table (r.u 0 2)).state ≠ 2, stTableUnavailable)]
      (match s.reqMig r with
       | none => .done s stOk (leBytes 24 0)
       | some m => .done s stOk (leBytes 1 (if m.isRow then max 2 m.state else m.state) ++ leBytes 7 0 ++ leBytes 5 m.cut ++ leBytes 3 0 ++
           leBytes 8 m.copied))))

/-- MIGRATE_CANCEL: in COPYING or READY; T learns of it by the next fence. -/
def execMigrateCancel (f : FnId) (slot : Fin 28) (s : State) : Host.Outcome State Fault Refusal :=
  .next (s.serve f slot 0x050C true (fun r s =>
    checks s [(s.migReqBad r, stBadPattern), ((s.table (r.u 0 2)).state ≠ 2, stTableUnavailable)]
      (match s.reqMig r with
       | none => refuse s stMigrationConflict
       | some m =>
         if !(m.state = 2 || m.state = 3 || (m.isRow && m.state = 1)) || s.cutSent m then refuse s stMigrationConflict
         else
           let mine := fun (l : LogOut) => l.table = m.table && l.isRow = m.isRow && l.bucket = m.bucket && (!m.isRow || l.row = m.row)
           let owed := (s.epochs.logs.filter mine).filterMap (·.wait)
           let s := s.updEp (fun p => { p with
             migrations := p.migrations.filter (fun x => !x.isFor m.table m.isRow m.bucket m.row),
             changes := p.changes.filter (fun c => !m.cutBy c),
             logs := p.logs.filter (fun l => !mine l) })
           let s := owed.eraseDups.foldl (fun s h => if s.deltaWaits h then s else s.ackDelta h 0 0) s
           let s := if m.isRow && m.via.isNone then s.updDir m.table m.row (fun _ => none) else s
           .done (s.report (m.change s.pool.partId 3)) stOk [])))

/-- MIGRATION_READY (R209): T has every row and has applied every logged epoch; copies not yet sent go on. `index` is the bucket, or
the row of a row migration. -/
def execMigrationReady (table : Nat) (isRow : Bool) (index : Nat) (s : State) : Host.Outcome State Fault Refusal :=
  let s := s.pumpMigs
  match s.mig? table isRow (if isRow then bucketOf index else index) (if isRow then index else 0) with
  | none => .next s
  | some m =>
    let logs := s.epochs.logs.any (fun l => l.table = m.table && l.isRow = m.isRow && l.bucket = m.bucket && (!m.isRow || l.row = m.row))
    if m.state ≠ 2 || !m.ended || !m.out.isEmpty || logs then .next s
    else .next ((s.updMig m (fun m => { m with state := 3 })).report (m.change s.pool.partId 2))

/-! ### T: receiving copies and logs (R209 to R211) -/

/-- Held-row map: sets of four by a fold of the key to 16 bits (R211). -/
def State.heldRoom (s : State) (t r : Nat) : Bool :=
  (s.epochs.held.filter (fun h => foldKey 16 (rowKey h.table h.row) = foldKey 16 (rowKey t r))).length < 4

/-- Give up a held row: its slot and its entry. -/
def State.freeHeld (s : State) (t r : Nat) : State :=
  let s := match s.epochs.held.find? (fun h => h.table = t && h.row = r) with
    | none => s
    | some h => if h.filled then (s.freeSlot t h.slot h.tier).updTable t (fun v => { v with rows := v.rows - 1 }) else s
  s.updEp (fun p => { p with held := p.held.filter (fun h => !(h.table = t && h.row = r)) })

/-- T begins a row's copy: the held-row entry with ACTIVE = 0 (R209, R211). -/
def State.beginHeld (s : State) (t r src : Nat) : State :=
  if (s.copy? t true (bucketOf r) r).isSome || s.epochs.held.any (fun h => h.table = t && h.row = r && h.active) || !s.heldRoom t r then s
  else (s.freeHeld t r).updEp (fun p => { p with
    held := p.held ++ [{ table := t, row := r, slot := 0, tier := 0, snap := false, active := false, filled := false }],
    copies := p.copies ++ [{ table := t, isRow := true, bucket := bucketOf r, row := r, source := src }] })

/-- Logged entries of a row that fences applied here, or the one being applied, have passed are applied at once, in epoch order, from epoch
`k + 1` on (R210); the copy holds those up to epoch `k`. -/
def State.catchUp (s : State) (t : Nat) (isRow : Bool) (b r k : Nat) : State :=
  match s.copy? t isRow b r with
  | none => s
  | some c =>
    let now := s.epochs.epoch + b2n (s.epochs.phase = 3)
    let mine := c.log.filter (fun l => l.2.row = r && l.1 ≤ now)
    let before := mine.filter (fun l => k < l.1)
    let epochs := sortBy id (before.map (·.1)).eraseDups
    let s := epochs.foldl (fun s n => s.applyRow n true t r ((before.filter (fun l => l.1 = n)).map (·.2))) s
    s.updCopy t isRow b r (fun c => { c with log := c.log.filter (fun l => !(l.2.row = r && l.1 ≤ max k now)) })

/-- T stores a row's copy (R209, R210); none where it has no room. -/
def State.storeCopy (s : State) (t : Nat) (isRow : Bool) (r : Nat) (a : ReplyEntry) : Option State :=
  let v := s.table t
  if a.slot.length ≠ v.slotSize a.tier then none
  else
    match v.alloc a.tier with
    | none => none
    | some (p, v') =>
      let bad := a.poison || a.badMeta || !v.tagOk t r a.tier a.slot
      let s := { s with tables := kput s.tables t { v' with rows := v'.rows + 1 } }
      let s := s.writeSlot p a.tier a.slot
      let s := if bad then s.poisonRange p a.slot.length else s
      some (if isRow then
          s.updEp (fun q => { q with held := q.held.map (fun h =>
            if h.table = t && h.row = r then { h with slot := p, tier := a.tier, filled := true } else h) })
        else s.setRowEntry t r (rmEntry a.tier true false false false p))

/-! ### Shard changes at a fence (R150, R152, R209, R213) -/

/-- Drop the owner-cache lines that hold a bucket's owner-array entry (R152). -/
def State.dropOwnerLine (s : State) (t b : Nat) : State :=
  { s with exchanges := s.exchanges.map (fun (e : Nat × Exchange) =>
      (e.1, { e.2 with ownerCache := e.2.ownerCache.map (fun (l : Nat × List (Nat × Nat)) => (l.1, l.2.filter (fun x => x ≠ (t, b / 32)))) })) }

/-- Set a bucket's shard-map entry. -/
def State.setShard (s : State) (t b e : Nat) : State :=
  match kfind s.tables t with
  | none => s
  | some v => ({ s with tables := kput s.tables t { v with shard := kput v.shard b e } } : State).dropOwnerLine t b

/-- T reserves the bucket's row map in its table's capacity, every entry invalid (R209). -/
def State.reserveMap (s : State) (t : Nat) : Option (State × Nat) :=
  match kfind s.tables t with
  | none => none
  | some v =>
    let n := 8 * v.bucketRows
    match v.freeMaps with
    | a :: rest =>
      let v := { v with freeMaps := rest }
      some (({ s with tables := kput s.tables t v } : State).zeroUnits v (n / 2 ^ 25 + 2) (v.virt a) n, a)
    | [] =>
      let o := v.fit (up64 v.slotNext) n
      if v.capacity < o + n then none
      else
        let v := { v with slotNext := o + n }
        some (({ s with tables := kput s.tables t v } : State).zeroUnits v (n / 2 ^ 25 + 2) o n, v.phys o)

/-- Free the slots of a bucket's row map, and the map. -/
def State.freeMap (s : State) (t base : Nat) : State :=
  match kfind s.tables t with
  | none => s
  | some v =>
    let s := (List.range v.bucketRows).foldl (fun s l =>
      let e := leNat (s.devBytes (v.phys (v.virt base + 8 * l)) 8)
      if rmValid e then (s.freeSlot t (rmSlot e) (rmTier e)).updTable t (fun v => { v with rows := v.rows - 1 }) else s) s
    s.updTable t (fun v => { v with freeMaps := v.freeMaps ++ [base] })

/-- T gives a copy up. -/
def State.dropCopy (s : State) (c : CopyIn) : State :=
  let s := if c.isRow then s.freeHeld c.table c.row else s.freeMap c.table c.rowMap
  s.updEp (fun p => { p with copies := p.copies.erase c })

/-- The entries logged for later fences than `n` are staged at T, which is from now on the owner or holder (R210). -/
def State.stageLogged (s : State) (n : Nat) (c : CopyIn) : State :=
  (c.log.filter (fun l => n < l.1)).foldl (fun s l => s.stageEntries l.1 [l.2]) s

/-- Begin (R209): every part marks the bucket, T reserves its row map, A starts to copy once the fence is complete. -/
def State.changeBegin (s : State) (n : Nat) (c : ShardChange) : State :=
  let e := s.shard c.table c.bucket
  let s := s.setShard c.table c.bucket (shEntry (shOwner e) c.next true (shRowMap e) n)
  let s := if c.next = s.pool.partId then
      match s.reserveMap c.table with
      | none => s
      | some (s, a) => s.updEp (fun p => { p with
          copies := p.copies ++ [{ table := c.table, isRow := false, bucket := c.bucket, row := 0, source := c.owner, rowMap := a }],
          moved := p.moved.filter (fun m => !(m.1 = c.table && m.2.1 = c.bucket)) })
    else s
  if c.owner = s.pool.partId then
    match s.mig? c.table false c.bucket 0 with
    | some m => if m.state = 1 then s.updMig m (fun m => { m with state := 2 }) else s
    | none => s
  else s

/-- Cut-over of a bucket at fence `n` (R209): a redirect record of an earlier migration of it ends, at every part (R212). -/
def State.changeCut (s : State) (n : Nat) (c : ShardChange) : State :=
  let me := s.pool.partId
  let e := s.shard c.table c.bucket
  let map := match s.copy? c.table false c.bucket 0 with
    | some y => if c.next = me then me * devSize + y.rowMap else 0
    | none => 0
  let s := s.updEp (fun p => { p with moved := p.moved.filter (fun m => !(m.1 = c.table && m.2.1 = c.bucket)) })
  let s := if c.owner = me then
      let s := s.clearLocal (fun g => g.table = c.table && bucketOf g.row = c.bucket)
      let s := s.updMig { table := c.table, isRow := false, bucket := c.bucket, row := 0, target := c.next, state := 3 }
        (fun m => { m with state := 4, cut := n, rowMap := shRowMap e % devSize })
      s.updEp (fun p => { p with moved := p.moved ++ [(c.table, c.bucket, c.next)] })
    else s
  let s := s.setShard c.table c.bucket (shEntry c.next 0 false map n)
  if c.next = me then
    let s := match s.copy? c.table false c.bucket 0 with | some y => s.stageLogged n y | none => s
    s.updEp (fun p => { p with copies := p.copies.filter (fun y => !(y.table = c.table && !y.isRow && y.bucket = c.bucket)) })
  else s

/-- Cut-over of a row at fence `n` (R209, R558): A rewrites its directory entry, the new holder serves, and an earlier one ends. -/
def State.changeCutRow (s : State) (n : Nat) (c : ShardChange) (r : Nat) : State :=
  let me := s.pool.partId
  if c.owner = me then
    let via := (s.mig? c.table true c.bucket r).bind (fun m => m.via.map (fun _ => m.forward))
    let s := s.updDir c.table r (fun d => some { d with cutover := n, holder := c.next, forward := via.getD d.forward })
    let e := s.rowEntry c.table r
    let s := s.setRowEntry c.table r (rmEntry (rmTier e) (rmValid e) true (rmSnap e) false (rmSlot e))
    let s := s.clearLocal (fun g => g.table = c.table && g.row = r)
    s.updMig { table := c.table, isRow := true, bucket := c.bucket, row := r, target := c.next, state := 3 } (fun m => { m with state := 4, cut := n })
  else if c.next = me then
    let s := match s.copy? c.table true c.bucket r with | some y => s.stageLogged n y | none => s
    s.updEp (fun p => { p with
      held := p.held.map (fun h => if h.table = c.table && h.row = r then { h with active := true } else h),
      copies := p.copies.filter (fun y => !(y.table = c.table && y.isRow && y.row = r)) })
  else if s.epochs.held.any (fun h => h.table = c.table && h.row = r && h.active) then
    (s.updEp (fun p => { p with
      held := p.held.map (fun h => if h.table = c.table && h.row = r then { h with active := false, gone := n } else h) })).clearLocal
      (fun g => g.table = c.table && g.row = r)
  else s

/-- Cancel: MIGRATING is cleared everywhere, and T frees its copies. -/
def State.changeCancel (s : State) (n : Nat) (c : ShardChange) : State :=
  let isRow := c.row.isSome
  let s := if isRow then s
    else
      let e := s.shard c.table c.bucket
      s.setShard c.table c.bucket (shEntry (shOwner e) 0 false (shRowMap e) n)
  if c.next = s.pool.partId then
    match s.copy? c.table isRow c.bucket (c.row.getD 0) with
    | some y => s.dropCopy y
    | none => s
  else s

/-- Apply a shard change of fence `n`, where the part has the table. -/
def State.applyChange (s : State) (n : Nat) (c : ShardChange) : State :=
  if (kfind s.tables c.table).isNone then s
  else if c.kind = 1 then s.changeBegin n c
  else if c.kind = 2 then (match c.row with | none => s.changeCut n c | some r => s.changeCutRow n c r)
  else if c.kind = 3 then s.changeCancel n c
  else s

/-- A change that begins or cancels a copy which a message of epoch `k` belongs to, in the fence that this part still applies: A has gone
through it already (R209). -/
def State.earlyChange (s : State) (t : Nat) (isRow : Bool) (b r k : Nat) : Option ShardChange :=
  if s.epochs.phase ≠ 3 || k ≤ s.epochs.epoch then none
  else s.epochs.applying.find? (fun c => (c.kind = 1 || c.kind = 3) && c.table = t && c.bucket = b && c.next = s.pool.partId &&
    c.row = (if isRow then some r else none))

/-- Take such a change in advance (R209). -/
def State.takeEarly (s : State) (t : Nat) (isRow : Bool) (b r k : Nat) : State :=
  match s.earlyChange t isRow b r k with
  | none => s
  | some c => (s.applyChange (s.epochs.epoch + 1) c).updEp (fun p => { p with applying := p.applying.erase c })

/-- MIGRATE_COPY: T stores the row and acknowledges it. A copy that fails its check is requested again, once (R464). -/
def execMigrateCopy (h : MsgHdr) (table : Nat) (bucket : Nat) (isRow : Bool) (row : Nat) (reply : ReplyEntry) (final : Bool) (s : State) :
    Host.Outcome State Fault Refusal :=
  let s := (s.takeMsg (.migrateCopy h table bucket isRow row reply final)).takeEarly table isRow bucket row h.epoch
  let s := if isRow && (s.table table).state = 2 then s.beginHeld table row h.srcPart else s
  let ack := fun (s : State) => s.poolSend h.srcPart (.migrateAck h table bucket isRow (if final then endMark else row) false)
  match s.copy? table isRow bucket row with
  | none => .next s
  | some c =>
    if final then
      let s := s.updCopy table isRow bucket row (fun c => { c with complete := true })
      let rest := (c.log.map (fun l => l.2.row)).eraseDups.filter (fun r => !c.rows.contains r)
      .next (ack (rest.foldl (fun s r => s.catchUp table isRow bucket r 0) s))
    else if c.rows.contains row then .next (ack s)
    else
      let got := fun (s : State) => s.updCopy table isRow bucket row (fun c => { c with rows := c.rows ++ [row] })
      if reply.estatus = 2 then
        match s.addDir { cutover := h.epoch, holder := reply.holder, forward := reply.forwarded, table := table, row := row } with
        | none => .next s
        | some s => .next (ack (got (s.setRowEntry table row (rmEntry 0 false true false false 0))))
      else
        let bad := reply.badMeta || !(s.table table).tagOk table row reply.tier reply.slot
        let s := if bad && !reply.poison then s.rasCount 0x220 1 else s
        if bad && !reply.poison && !c.asked.contains row then
          .next ((s.updCopy table isRow bucket row (fun c => { c with asked := c.asked ++ [row] })).poolSend h.srcPart
            (.migrateAck h table bucket isRow row false true))
        else
        match s.storeCopy table isRow row reply with
        | none => .next s
        | some s => .next (ack ((got s).catchUp table isRow bucket row h.epoch))

/-- MIGRATE_LOG: T keeps the delta for its own fences and acknowledges it. -/
def execMigrateLog (h : MsgHdr) (table : Nat) (bucket : Nat) (isRow : Bool) (row : Nat) (entry : UpdEntry) (s : State) :
    Host.Outcome State Fault Refusal :=
  let s := (s.takeMsg (.migrateLog h table bucket isRow row entry)).takeEarly table isRow bucket row h.epoch
  let s := if isRow && (s.table table).state = 2 then s.beginHeld table row h.srcPart else s
  match s.copy? table isRow bucket row with
  | none => .next s
  | some c =>
    let known := c.log.any (fun l => l.1 = h.epoch && l.2.srcPart = entry.srcPart && l.2.srcSeq = entry.srcSeq)
    let before := c.log.filter (fun l => l.1 = h.epoch)
    let s := if known then s
      else (s.updCopy table isRow bucket row (fun c => { c with log := c.log ++ [(h.epoch, entry)] })).chargeStaging h.epoch
        (entryBytes (before.map (·.2))) (64 * entry.units)
    .next (s.poolSend h.srcPart (.migrateAck h table bucket isRow row true))

/-- A reads a row again and sends its copy under a new number (R464). -/
def State.copyAgain (s : State) (m : Migration) (row num : Nat) : State :=
  match s.copyFor m row with
  | (s, none) => s
  | (s, some (epoch, a)) =>
    let (s, n) := s.sendCopy m row epoch a
    s.updMig m (fun m => { m with out := m.out.map (fun o => if o.2 = num then (o.1, n) else o) })

/-- MIGRATE_ACK: A counts a copied row, or answers the sender of a logged delta (R209). With `again`, T requests a copy again (R464; log
entry 11). -/
def execMigrateAck (h : MsgHdr) (table : Nat) (bucket : Nat) (isRow : Bool) (row : Nat) (isLog : Bool) (s : State) (again : Bool := false) :
    Host.Outcome State Fault Refusal :=
  let s := s.takeMsg (.migrateAck h table bucket isRow row isLog again)
  if isLog then
    match s.epochs.logs.find? (fun l => l.num = h.num) with
    | none => .next s
    | some l =>
      let s := s.updEp (fun p => { p with logs := p.logs.filter (fun x => x.num ≠ l.num) })
      match l.wait with
      | none => .next s
      | some d => .next (if s.deltaWaits d then s else s.ackDelta d 0 0)
  else
    match s.epochs.migrations.find? (fun m => m.table = table && m.isRow = isRow && m.bucket = bucket && m.out.contains (row, h.num)) with
    | none => .next s.pumpMigs
    | some m =>
      if again then .next (s.copyAgain m row h.num)
      else .next (s.updMig m (fun m => { m with out := m.out.erase (row, h.num), copied := if row = endMark then m.copied else m.copied + 1 })).pumpMigs

/-! ### The end of a migration (R209) -/

/-- Row migrations that waited for the cancel of an earlier copy begin. -/
def State.beginWaiting (s : State) : State :=
  (s.epochs.migrations.filter (fun m => m.isRow && m.state = 1 && !s.cancelling m)).foldl (fun s m =>
    if m.via.isSome then s.updMig m (fun m => { m with state := 2, askFrom := s.epochs.epoch + 2 }) else s.beginCopy m) s

/-- Fence C + 1 is complete: at A the copied slots go, and a bucket's row map (R209); so does a row at the holder it has left. -/
def State.migDone (s : State) (n : Nat) : State :=
  let s := (s.epochs.held.filter (fun h => h.gone ≠ 0 && h.gone + 1 ≤ n)).foldl (fun s h => s.freeHeld h.table h.row) s
  (s.epochs.migrations.filter (fun m => m.state = 4 && m.cut + 1 ≤ n)).foldl (fun s m =>
    let s := if m.isRow then
        let e := s.rowEntry m.table m.row
        if rmValid e && rmMoved e then
          ((s.freeSlot m.table (rmSlot e) (rmTier e)).updTable m.table (fun v => { v with rows := v.rows - 1 })).setRowEntry m.table m.row
            (rmEntry 0 false true (rmSnap e) false 0)
        else s
      else s.freeMap m.table m.rowMap
    s.updMig m (fun m => { m with state := 5 })) s

end Sys2Proof.Machine
end

