-- ==== Sys2Proof/Machine/Fences.lean ====
section
/-! DEFINITION. The epoch fence at the leader and at a member (R186 to R192, R127, R128), and EPOCH_CONFIG and EPOCH_QUERY (R218,
R219). -/

namespace Sys2Proof.Machine

open Sys2Proof

/-! ### Control requests that are resent until answered (R307) -/

/-- Send a control request and keep it until it is answered (R307); fence messages are charged to pool service (R214). -/
def State.ctrlSend (s : State) (dest : Nat) (m : Msg) : State :=
  let l : List CtrlReq := s.pool.ctrl.filter (fun c => !(c.dest = dest && c.msg = m)) ++ [⟨dest, m, s.refCount⟩]
  let s := { s with pool := { s.pool with ctrl := l } }
  if 0x20 ≤ m.kind && m.kind ≤ 0x23 then s.poolSend dest m else s.sendMsg dest 0 m

/-- Requests to a part that `p` selects are answered. -/
def State.ctrlDone (s : State) (dest : Nat) (p : Msg → Bool) : State :=
  { s with pool := { s.pool with ctrl := s.pool.ctrl.filter (fun (c : CtrlReq) => !(c.dest = dest && p c.msg)) } }

/-- Members of the pool. -/
def State.memberList (s : State) : List Nat := bitList 1024 s.pool.members

/-- Take a fence message, and charge its bytes to pool service WRITE (R214). -/
def State.takeFence (s : State) (m : Msg) (epoch : Nat) : State := (s.takeMsg m).chargeStaging epoch 0 (16 + m.bytes)

/-! ### The leader (R187, R188, R192, R213) -/

/-- Change the fence in progress. -/
def State.updFence (s : State) (f : Fence → Fence) : State := s.updEp (fun p => { p with fence := p.fence.map f })

/-- Changes that FENCE_APPLY carries: in (member, position) order, at most 256 (R213). -/
def Fence.carried (f : Fence) : List ShardChange := (f.changes.flatMap (·.2)).take 256

/-- The response of EPOCH_FENCE (R218). -/
def Fence.response (f : Fence) : List Byte :=
  leBytes 5 f.epoch ++ leBytes 3 0 ++ leBytes 8 f.stats.rows ++ leBytes 4 f.stats.collisions ++ leBytes 4 f.stats.capDrops ++
    leBytes 4 f.stats.snapOver ++ leBytes 4 f.stats.lost ++ leBytes 2 f.departed

/-- Status of a complete fence (R192). -/
def Fence.status (f : Fence) : Nat :=
  if f.departed ≠ 0 then stPartLeftPool
  else if f.stats.capDrops ≠ 0 then stTableCapacity
  else if f.stats.collisions ≠ 0 then stUpdateCollision
  else stOk

/-- Send a phase's message to every member. -/
def State.fencePhase (s : State) (m : Msg) : State := s.memberList.foldl (fun s p => s.ctrlSend p m) s

/-- The epoch of the first fence that closes after now, as far as this part knows: the fence that it runs as leader, and those whose
FENCE_CLOSE it has seen, close earlier (R309). -/
def State.nextClose (s : State) : Nat :=
  max s.epochs.openEpoch (match s.epochs.fence with | some f => f.epoch + 1 | none => 0)

/-- A member has left the pool: deltas to it are lost (R191), and its id waits for a fence that closes later (R196, R309). A part that has
left is alone in its own map. -/
def State.removeMember (s : State) (p : Nat) : State :=
  if p = s.pool.partId then { s with pool := { s.pool with members := 2 ^ p, joined := false, ctrl := [] } }
  else
    let s := { s with pool := { s.pool with members := if s.member p then s.pool.members - 2 ^ p else s.pool.members,
                                            grants := kdel s.pool.grants p,
                                            leftIds := s.pool.leftIds.filter (fun (l : Nat × Nat) => l.1 ≠ p) ++ [(p, s.nextClose)] } }
    ((s.updLost (s.epochs.sent.filter (fun e => e.owner = p))).dropTarget p).ctrlDone p (fun _ => true)

/-- The leader removes a part, and every member is told (R311). -/
def State.expel (s : State) (p : Nat) : State := (s.broadcast (.memberDown p) false).removeMember p

/-- The fence goes on once every member has answered the phase (R188). -/
def State.fenceAdvance (s : State) : State :=
  match s.epochs.fence with
  | none => s
  | some f =>
    let me := s.pool.partId
    let l := s.memberList
    if f.phase = 1 && l.all f.closed.contains then
      let s := s.updFence (fun f => { f with phase := 2, phaseStart := s.refCount })
      s.fencePhase (.fenceApply f.epoch me f.carried)
    else if f.phase = 2 && l.all f.applied.contains then
      let s := s.updEp (fun p => { p with fence := none })
      let s := s.pool.leaveAsked.foldl State.expel { s with pool := { s.pool with leaveAsked := [] } }
      f.ops.foldl (fun s o => s.opEnd (some (o.1, o.2.1)) f.status f.response) s
    else s

/-- EPOCH_FENCE (R186, R187). DESIGN CHOICE: the leader's local epoch is refused while it runs the next fence, as R220 says of a request
during a fence (log entry 24). -/
def execEpochFence (f : FnId) (slot : Fin 28) (s : State) : Host.Outcome State Fault Refusal :=
  .next (s.serve f slot 0x0506 true (fun r s =>
    let n := r.u 0 5
    let e := s.epochs
    let own := match e.fence with | some x => x.epoch = n | none => false
    let fresh := e.fence.isNone && ((n = e.epoch + 1 && n < 2 ^ 40 - 1) || (n = e.epoch && 1 ≤ n))
    checks s [(e.leader ≠ s.pool.partId, stNotEpochLeader), (!own && !fresh, stEpochMismatch)]
      (.async (fun s id =>
        let op := (f.val, id, s.refCount)
        if own then s.updFence (fun x => { x with ops := x.ops ++ [op] })
        else
          let s := s.updEp (fun p => { p with fence := some { epoch := n, phase := 1, phaseStart := s.refCount, ops := [op] } })
          s.fencePhase (.fenceClose n s.pool.partId)))))

/-- A fence message is for an epoch more than one ahead of the open epoch, local epoch + 1: it is discarded with a RAS event (R189). -/
def State.tooFar (s : State) (epoch : Nat) : Bool := s.epochs.epoch + 2 < epoch

/-- FENCE_CLOSED (R188): the leader collects the answers and the shard changes. -/
def execFenceClosed (epoch : Nat) (src : Nat) (changes : List ShardChange) (s : State) : Host.Outcome State Fault Refusal :=
  let s := s.takeFence (.fenceClosed epoch src changes) epoch
  let s := if s.tooFar epoch then s.logEvent 8 else s
  match s.epochs.fence with
  | none => .next s
  | some f =>
    if f.epoch ≠ epoch || f.phase ≠ 1 || f.closed.contains src then .next s
    else
      let s := s.ctrlDone src (fun m => match m with | .fenceClose n _ => n = epoch | _ => false)
      .next (s.updFence (fun f => { f with closed := f.closed ++ [src], changes := kput f.changes src changes })).fenceAdvance

/-- Sum of two members' counts. -/
def FenceStats.add (a b : FenceStats) : FenceStats :=
  ⟨a.rows + b.rows, a.collisions + b.collisions, a.capDrops + b.capDrops, a.snapOver + b.snapOver, a.lost + b.lost⟩

/-- FENCE_APPLIED (R188): the leader completes the fence when all members have answered. -/
def execFenceApplied (epoch : Nat) (src : Nat) (stats : FenceStats) (s : State) : Host.Outcome State Fault Refusal :=
  let s := s.takeFence (.fenceApplied epoch src stats) epoch
  let s := if s.tooFar epoch then s.logEvent 8 else s
  match s.epochs.fence with
  | none => .next s
  | some f =>
    if f.epoch ≠ epoch || f.phase ≠ 2 || f.applied.contains src then .next s
    else
      let s := s.ctrlDone src (fun m => match m with | .fenceApply n _ _ => n = epoch | _ => false)
      .next (s.updFence (fun f => { f with applied := f.applied ++ [src], stats := f.stats.add stats })).fenceAdvance

/-- FENCE_LIMIT_EXPIRY (R192): requests that have waited for LIMIT are answered; the fence continues. -/
def execFenceLimitExpiry (s : State) : Host.Outcome State Fault Refusal :=
  match s.epochs.fence with
  | none => .next s
  | some f =>
    let old := fun (o : Nat × Nat × Nat) => s.since o.2.2 (1000 * s.epochs.limitMs)
    .next ((f.ops.filter old).foldl (fun s o => s.opEnd (some (o.1, o.2.1)) stTimeout f.response)
      (s.updFence (fun f => { f with ops := f.ops.filter (fun o => !old o) })))

/-- A member has left the pool, and the fence goes on without it (R191). -/
def State.fenceDrop (s : State) (p : Nat) : State :=
  ((s.removeMember p).updFence (fun f => { f with departed := f.departed + 1, changes := kdel f.changes p })).fenceAdvance

/-- The leader declares a member departed (R311). -/
def State.declareDeparted (s : State) (p : Nat) : State :=
  let s := s.expel p
  (s.updFence (fun f => { f with departed := f.departed + 1, changes := kdel f.changes p })).fenceAdvance

/-! ### A member (R189, R190) -/

/-- Every delta of the closing epoch that this part sent or logged is acknowledged (R189, R196, R209). -/
def State.deltasStaged (s : State) : Bool :=
  let n := s.epochs.epoch + 1
  !s.epochs.sent.any (fun e => e.epoch ≤ n) && !s.epochs.logs.any (fun l => l.epoch ≤ n)

/-- No admitted step of a read epoch two or more below the closing epoch is running (R189, R190). -/
def State.oldStepsDone (s : State) : Bool :=
  !s.cmds.any (fun e => e.2.kind = kindStep && e.2.phase = .running && e.2.epoch + 2 ≤ s.epochs.epoch + 1)

/-- Send FENCE_CLOSED with the changes that this part reports for the epoch: the fence at hand, or the one applied last, for which a new
leader may ask (R187, R189, R213). -/
def State.sendClosed (s : State) (n : Nat) : State :=
  let e := s.epochs
  s.poolSend e.fenceSrc (.fenceClosed n s.pool.partId (if n = e.epoch + 1 then e.closedWith else if n = e.epoch then e.lastWith else []))

/-- CLOSING ends. -/
def State.closeFence (s : State) : State :=
  (s.updEp (fun p => { p with phase := 2, closedWith := p.changes })).sendClosed (s.epochs.epoch + 1)

/-- FENCE_CLOSE (R189): new entries go to the next epoch, as do those that wait after STAGE_FULL (R198). -/
def execFenceClose (epoch : Nat) (src : Nat) (s : State) : Host.Outcome State Fault Refusal :=
  let s := s.takeFence (.fenceClose epoch src) epoch
  let e := s.epochs
  if s.tooFar epoch then .next (s.logEvent 8)
  else if epoch ≤ e.epoch || (epoch = e.epoch + 1 && 2 ≤ e.phase) then
    .next ((s.updEp (fun p => { p with fenceSrc := src })).sendClosed epoch)
  else if epoch ≠ e.epoch + 1 then .next s
  else if e.phase = 1 then .next (s.updEp (fun p => { p with fenceSrc := src }))
  else
    let late := fun (v : SentEntry) => v.epoch = epoch && v.fullAt.isSome
    .next (s.updEp (fun p => { p with
      phase := 1, closeAt := s.refCount, fenceSrc := src, deferred := p.deferred + (p.sent.filter late).length,
      sent := p.sent.map (fun v => if late v then { v with epoch := epoch + 1 } else v) })).pumpDeltas

/-- CLOSE_CONDITION_MET (R189). -/
def execCloseConditionMet (s : State) : Host.Outcome State Fault Refusal :=
  let s := s.pumpDeltas
  if s.epochs.phase = 1 && s.deltasStaged && s.oldStepsDone then .next s.closeFence else .next s

/-- GRACE_EXPIRY (R189): old steps may still run; deltas must be staged (R196). -/
def execGraceExpiry (s : State) : Host.Outcome State Fault Refusal :=
  let s := s.pumpDeltas
  if s.epochs.phase = 1 && s.deltasStaged && s.since s.epochs.closeAt s.epochs.graceUs then .next s.closeFence else .next s

/-- The fence being applied cuts a bucket, or a row, over from this part, as its owner or as the holder it leaves (R209, R558). -/
def State.cutsAway (s : State) (t b : Nat) (r : Option Nat) : Bool :=
  s.epochs.applying.any (fun c => c.kind = 2 && c.table = t && c.bucket = b &&
    ((c.row.isNone && c.owner = s.pool.partId) || (c.row.isSome && c.row = r && c.next ≠ s.pool.partId)))

/-- Entries of epoch `n` by row: staged here, and logged for rows of which this part has a copy (R200, R210). -/
def State.entriesOf (s : State) (n : Nat) : List UpdEntry :=
  (s.epochs.stage n).entries ++ s.epochs.copies.flatMap (fun c =>
    (c.log.filter (fun l => l.1 = n && (c.complete || c.rows.contains l.2.row))).map (·.2))

/-- Apply the deltas of epoch `n`, row by row, but for rows cut over from here (R200, R209) and for rows that the fence has changed already
(R217). -/
def State.applyDeltas (s : State) (n : Nat) : State :=
  let es := s.entriesOf n
  let rows := (rowsOf es).filter (fun x => !s.cutsAway x.1 (bucketOf x.2) (some x.2))
  rows.foldl (fun s x =>
    let done := (s.epochs.snapsOf x.1 x.2).any (fun y => y.sepoch = n % 256) || s.epochs.lostSnaps.contains (x.1, x.2, n)
    if done then s else s.applyRow n false x.1 x.2 (es.filter (fun e => e.table = x.1 && e.row = x.2))) s

/-- FENCE_APPLY (R127, R189, R200): the deltas and block switches of the epoch are applied; the shard changes wait for the end of the
apply, so that lookups in the meantime are served as before (R212). -/
def execFenceApply (epoch : Nat) (src : Nat) (changes : List ShardChange) (s : State) : Host.Outcome State Fault Refusal :=
  let s := s.takeFence (.fenceApply epoch src changes) epoch
  let e := s.epochs
  if s.tooFar epoch then .next (s.logEvent 8)
  else if epoch ≤ e.epoch then
    .next ((s.updEp (fun p => { p with fenceSrc := src })).poolSend src (.fenceApplied epoch s.pool.partId e.last))
  else if epoch ≠ e.epoch + 1 || e.phase ≠ 2 then .next s
  else
    let s := s.updEp (fun p => { p with phase := 3, fenceSrc := src, applying := changes, counts := {} })
    let s := (List.range 16).foldl (fun s k => s.updSlice k (fun v => { v with applying := true })) s
    let s := s.applyDeltas epoch
    .next (s.switchBlocks epoch (fun t b => s.cutsAway t b none))

/-- FENCE_APPLY_DONE (R127, R128, R189): the shard changes take effect, the local epoch advances in every slice, snapshot entries of
the fence before and the staging are freed, and FENCE_APPLIED is sent. -/
def execFenceApplyDone (s : State) : Host.Outcome State Fault Refusal :=
  if s.epochs.phase ≠ 3 then .next s
  else
    let n := s.epochs.epoch + 1
    let s := s.releaseSnaps n
    let cs := s.epochs.applying
    let s := cs.foldl (fun s c => s.applyChange n c) s
    let s := s.updEp (fun p =>
      let p := p.resizeSnaps p.nextRows
      let stats := { p.counts with lost := p.lost }
      { p with epoch := n, phase := 0, stageMib := p.nextMib, last := stats, lost := 0, applying := [],
               closedWith := [], lastWith := p.closedWith,
               staging := p.staging.filter (fun g => g.epoch ≠ n),
               copies := p.copies.map (fun c => { c with log := c.log.filter (fun l => l.1 ≠ n || !(c.complete || c.rows.contains l.2.row)) }),
               changes := p.changes.filter (fun c => !cs.contains c) })
    let s := (List.range 16).foldl (fun s k => s.updSlice k (fun v => { v with applying := false, epoch := n })) s
    let s := (List.range 4).foldl State.fitFirm s
    let s := s.migDone n
    let s := s.blocksDone
    let s := s.fenceTables
    let s := (List.range 16).foldl State.releaseHeld s
    let fresh := cs.filter (fun c => c.kind = 1 && c.owner = s.pool.partId)
    let s := fresh.foldl (fun s c => match s.mig? c.table false c.bucket 0 with | some m => s.beginCopy m | none => s) s
    let s := s.beginWaiting
    let s := s.pumpMigs
    .next (s.poolSend s.epochs.fenceSrc (.fenceApplied n s.pool.partId s.epochs.last)).pumpDeltas

/-! ### Control operations (R218, R219) -/

/-- EPOCH_QUERY. -/
def execEpochQuery (f : FnId) (slot : Fin 28) (s : State) : Host.Outcome State Fault Refusal :=
  .next (s.serve f slot 0x0507 false (fun _ s =>
    let e := s.epochs
    .done s stOk (leBytes 5 e.epoch ++ leBytes 1 e.phase ++ leBytes 2 e.leader ++
      leBytes 4 (e.staging.map (fun g => (rowsOf g.entries).length)).sum ++ leBytes 4 e.deferred)))

/-- EPOCH_CONFIG. -/
def execEpochConfig (f : FnId) (slot : Fin 28) (s : State) : Host.Outcome State Fault Refusal :=
  .next (s.serve f slot 0x0508 true (fun r s =>
    let mib := r.u 12 4
    checks s [(poolSize s.pool ≤ r.u 0 2 || 1000000 < r.u 4 4 || r.u 8 1 < 16 || 24 < r.u 8 1 || mib < 32 || 8192 < mib || mib % 32 ≠ 0 ||
               r.u 16 4 < 1 || 60000 < r.u 16 4, stBadPattern)]
      (.done (s.updEp (fun p => { p with leader := r.u 0 2, graceUs := r.u 4 4, limitMs := r.u 16 4, nextRows := r.u 8 1, nextMib := mib }))
        stOk [])))

end Sys2Proof.Machine
end

