-- ==== Sys2Proof/Machine/Membership.lean ====
section
/-! DEFINITION. Pool shape and membership (R291, R309 to R313), and access lists (R303). -/

namespace Sys2Proof.Machine

open Sys2Proof

/-- A port faces a neighbour in the pool shape (R291). -/
def State.cabled (s : State) (q : Nat) : Bool := (neighbour s.pool s.pool.partId (q / 2) (q % 2 = 0)).isSome

/-- FABRIC_CONFIG (R291, R313): the shape and ids are taken, and ports that face a neighbour begin to train (R292). -/
def execFabricConfig (f : FnId) (slot : Fin 28) (s : State) : Host.Outcome State Fault Refusal :=
  .next (s.serve f slot 0x0606 true (fun r s =>
    let dx := r.u 0 1
    let dy := r.u 1 1
    let dz := r.u 2 1
    let rings := r.u 3 1
    let id := r.u 4 2
    let ringBad := 8 ≤ rings || (bitAt rings 0 && dx < 3) || (bitAt rings 1 && dy < 3) || (bitAt rings 2 && dz < 3)
    checks s [(dx = 0 || 8 < dx || dy = 0 || 8 < dy || dz = 0 || 16 < dz || ringBad || dx * dy * dz ≤ id, stBadPattern),
              (2 ≤ popCount 1024 s.pool.members, stJoinRefused)]
      (let s := { s with pool := { s.pool with
         configured := true, dx := dx, dy := dy, dz := dz, rings := rings, partId := id, poolId := r.u 8 4, members := 2 ^ id, grants := [],
         fenced := ((List.range 6).filter (fun q => (s.port q).state = 6)).map (fun q => (id, q)) } }
       .done ((List.range 6).foldl (fun s q =>
         if s.cabled q && (s.port q).state = 0 then s.updPort q (fun p => { p with state := 1, trainAt := s.refCount }) else s) s) stOk [])))

/-! ### Joining (R309) -/

/-- Send JOIN_REQ to the leader. -/
def State.sendJoin (s : State) : State :=
  let p := s.pool
  ({ s with pool := { p with joinAt := s.refCount } } : State).sendMsg p.joinLeader 0 (.joinReq p.poolId p.dx p.dy p.dz p.rings p.partId)

/-- POOL_JOIN; a second one while one is in progress is refused. -/
def execPoolJoin (f : FnId) (slot : Fin 28) (s : State) : Host.Outcome State Fault Refusal :=
  .next (s.serve f slot 0x060C true (fun r s =>
    checks s [(poolSize s.pool ≤ r.u 0 2, stBadPattern), (s.pool.join.isSome, stJoinRefused)]
      (.async (fun s id =>
        (({ s with pool := { s.pool with join := some (f.val, id), joinLeader := r.u 0 2 } } : State).updEp
          (fun p => { p with leader := r.u 0 2 })).sendJoin))))

/-- JOIN_REQ_RESEND: every 100 µs until it is answered. -/
def execJoinReqResend (s : State) : Host.Outcome State Fault Refusal :=
  .next (if s.pool.join.isSome && s.since s.pool.joinAt 100 then s.sendJoin else s)

/-- JOIN_REQ: the leader denies, defers or grants; a granted id that asks again has the same grant (R549). -/
def execJoinReq (poolId : Nat) (dx : Nat) (dy : Nat) (dz : Nat) (part : Fin 1024) (s : State) (rings : Nat := 0) :
    Host.Outcome State Fault Refusal :=
  let s := s.takeMsg (.joinReq poolId dx dy dz rings part)
  let p := s.pool
  let deny := fun (check : Nat) => s.sendMsg part 0 (.joinDeny part check)
  if s.epochs.leader ≠ p.partId then .next s
  else if poolId ≠ p.poolId then .next (deny 1)
  else if dx ≠ p.dx || dy ≠ p.dy || dz ≠ p.dz || rings ≠ p.rings then .next (deny 2)
  else if s.member part then
    match kfind p.grants part with
    | some (epoch, map) => .next (s.sendMsg part 0 (.joinGrant epoch map))
    | none => .next (deny 3)
  else if s.epochs.fence.isSome || p.leftIds.any (fun l => l.1 = part && s.epochs.epoch < l.2) then .next s
  else
    let s := { s with pool := { p with members := p.members + 2 ^ part.val, leftIds := p.leftIds.filter (fun l => l.1 ≠ part),
                                            grants := kput p.grants part (s.epochs.epoch, p.members + 2 ^ part.val) } }
    .next ((s.sendMsg part 0 (.joinGrant s.epochs.epoch s.pool.members)).broadcast (.memberUp part) false)

/-- JOIN_GRANT: the joining part adopts the epoch, in every slice, and the map. -/
def execJoinGrant (epoch : Nat) (members : Nat) (s : State) : Host.Outcome State Fault Refusal :=
  let s := s.takeMsg (.joinGrant epoch members)
  match s.pool.join with
  | none => .next s
  | some op =>
    let s := { s with pool := { s.pool with members := members, joined := true, join := none } }
    let s := s.updEp (fun p => { p with epoch := epoch, phase := 0 })
    let s := (List.range 16).foldl (fun s k => s.updSlice k (fun v => { v with epoch := epoch })) s
    .next (s.opEnd (some op) stOk (leBytes 5 epoch))

/-- POOL_JOIN in progress ends with JOIN_REFUSED. -/
def State.joinRefused (s : State) : State :=
  match s.pool.join with
  | none => s
  | some op => ({ s with pool := { s.pool with join := none } } : State).opEnd (some op) stJoinRefused []

/-- JOIN_DENY. -/
def execJoinDeny (part : Fin 1024) (check : Nat) (s : State) : Host.Outcome State Fault Refusal :=
  let s := s.takeMsg (.joinDeny part check)
  .next (if part.val = s.pool.partId then s.joinRefused else s)

/-- MEMBER_UP. -/
def execMemberUp (part : Fin 1024) (s : State) : Host.Outcome State Fault Refusal :=
  let s := s.takeMsg (.memberUp part)
  .next (if s.member part then s
    else { s with pool := { s.pool with
      members := s.pool.members + 2 ^ part.val, leftIds := s.pool.leftIds.filter (fun (l : Nat × Nat) => l.1 ≠ part.val) } })

/-! ### Leaving (R191, R311) -/

/-- The leader takes a part out of the pool, at once or after the fence in progress (R311). -/
def State.leaveBetween (s : State) (p : Nat) : State :=
  if s.epochs.fence.isSome then { s with pool := { s.pool with leaveAsked := s.pool.leaveAsked.filter (· ≠ p) ++ [p] } } else s.expel p

/-- MEMBER_DOWN: a member takes the part out of its map. The leader, which alone sends the message to members, has it from a part that asks
to leave (log entry 11). -/
def execMemberDown (part : Fin 1024) (s : State) : Host.Outcome State Fault Refusal :=
  let s := s.takeMsg (.memberDown part)
  .next (if s.epochs.leader = s.pool.partId && part.val ≠ s.pool.partId then (if s.member part then s.leaveBetween part else s)
    else s.fenceDrop part)

/-- DEPARTURE_TIMEOUT: a member has not answered a fence phase within 10 ms. -/
def execDepartureTimeout (part : Fin 1024) (s : State) : Host.Outcome State Fault Refusal :=
  match s.epochs.fence with
  | none => .next s
  | some f =>
    let answered := if f.phase = 1 then f.closed.contains part.val else f.applied.contains part.val
    if part.val = s.pool.partId || !s.member part || answered || !s.since f.phaseStart 10000 then .next s
    else .next (s.declareDeparted part)

/-- The part owns a bucket or holds a migrated row (R311). -/
def State.ownsRows (s : State) : Bool :=
  s.tables.any (fun e => e.2.state ≠ 0 && e.2.shard.any (fun b => shOwner b.2 = s.pool.partId)) || s.epochs.held.any (·.active)

/-- POOL_LEAVE: the leader removes itself between fences; another part asks the leader to remove it, with MEMBER_DOWN of itself (log
entry 11). -/
def execPoolLeave (f : FnId) (slot : Fin 28) (s : State) : Host.Outcome State Fault Refusal :=
  .next (s.serve f slot 0x060D true (fun r s =>
    checks s [(2 ≤ r.u 0 1, stBadPattern), (r.u 0 1 = 0 && s.ownsRows, stMigrationConflict)]
      (let s := s.joinRefused
       let me := s.pool.partId
       .done (if s.epochs.leader = me then s.leaveBetween me
         else if s.member s.epochs.leader then s.ctrlSend s.epochs.leader (.memberDown me) else s) stOk [])))

/-- POOL_QUERY. -/
def execPoolQuery (f : FnId) (slot : Fin 28) (s : State) : Host.Outcome State Fault Refusal :=
  .next (s.serve f slot 0x060E false (fun _ s =>
    let p := s.pool
    .done s stOk (leBytes 4 p.poolId ++ leBytes 2 p.partId ++ leBytes 2 s.epochs.leader ++ leBytes 1 p.dx ++ leBytes 1 p.dy ++
      leBytes 1 p.dz ++ leBytes 1 p.rings ++ leBytes 4 0 ++ leBytes 128 p.members)))

/-! ### Access lists (R303) -/

/-- Headers of the accesses from other parts that have passed the check of a region and are not yet performed: arrivals, and writes that
wait for the host. -/
def State.passedIn (s : State) (first last : Nat) : List MsgHdr :=
  let inside := fun (a : Nat) => first ≤ a / 2 ^ 30 && a / 2 ^ 30 ≤ last
  (s.arrivals.filter (fun a => !a.isLocal && inside a.addr)).filterMap (·.hdr) ++
    ((s.link.pendingInv.filter (fun b => inside (64 * b.line))).filterMap (·.hdr)).eraseDups

/-- An ACL_SET still waits for an access. -/
def State.aclWaits (s : State) (d : AclDrain) : Bool :=
  s.arrivals.any (fun a => a.hdr.any d.waits.contains) || s.link.pendingInv.any (fun b => b.hdr.any d.waits.contains)

/-- ACL_SET: at once for later accesses; answered once those that had passed are performed. A bitmap is read for MODE 0b01 alone. -/
def execAclSet (f : FnId) (slot : Fin 28) (s : State) : Host.Outcome State Fault Refusal :=
  .next (s.serve f slot 0x060A true (fun r s =>
    let first := r.u 0 1
    let last := r.u 1 1
    let mine := fun (d : AclDrain) => d.fn = f.val && d.slot = slot.val
    let passed := s.passedIn first last
    if s.pool.aclDrains.any mine then
      if s.pool.aclDrains.any (fun d => mine d && s.aclWaits d) then .wait s
      else .done { s with pool := { s.pool with aclDrains := s.pool.aclDrains.filter (fun d => !mine d) } } stOk []
    else checks s [(last < first || r.u 8 1 % 4 = 3, stBadPattern)]
      (cpRun s (if r.u 8 1 % 4 = 1 then readCp (cpWho f) (r.u 16 8) 128 else pure []) (fun s bs =>
        let e := r.u 8 8
        let e := e / 2 ^ 48 * 2 ^ 48 + e % 32
        let gs := (List.range (last + 1 - first)).map (· + first)
        let s := gs.foldl (fun s g => { s with pool := { s.pool with
          acl := kset 0 s.pool.acl g e,
          aclMap := if e % 4 = 1 then kset 0 s.pool.aclMap g (leNat bs) else s.pool.aclMap } }) s
        if !passed.isEmpty then .wait { s with pool := { s.pool with
          aclDrains := s.pool.aclDrains ++ [⟨f, slot, first, last, s.refCount, passed⟩] } }
        else .done s stOk []))))

/-- Discard the WRITEs of some headers of which no codeword has been accepted, answered with PROTECTION (R303). -/
def State.dropWrites (s : State) (late : MsgHdr → Bool) : State :=
  let gone := fun (b : BackInv) => b.whole && b.hdr.any late
  let hs := ((s.link.pendingInv.filter gone).filterMap (·.hdr)).eraseDups
  let s := { s with link := { s.link with pendingInv := s.link.pendingInv.map (fun b =>
    if gone b then { b with mask := List.replicate 64 false, hdr := none, whole := false } else b) } }
  hs.foldl (fun s h => s.serviceSend (h.srcCluster % 16) h.srcPart (.writeAck h stProtection)) s

/-- ACL_DRAIN_TIMEOUT: what is not performed 30 µs after the request is answered with PROTECTION, but for a WRITE of which a codeword has been
accepted. -/
def execAclDrainTimeout (s : State) : Host.Outcome State Fault Refusal :=
  let late := s.pool.aclDrains.filter (fun d => s.since d.start 30)
  let gone := fun (a : Arrival) => late.any (fun d => a.hdr.any d.waits.contains)
  let out := s.arrivals.filter gone
  let s := { s with arrivals := s.arrivals.filter (fun a => !gone a) }
  .next ((out.foldl (fun s a => match a.hdr with
    | some h => s.serviceSend (h.srcCluster % 16) h.srcPart (.arriveAck h stProtection)
    | none => s) s).dropWrites (fun h => late.any (fun d => d.waits.contains h)))

/-- ACL_GET. -/
def execAclGet (f : FnId) (slot : Fin 28) (s : State) : Host.Outcome State Fault Refusal :=
  .next (s.serve f slot 0x060B true (fun r s =>
    let g := r.u 0 1
    cpRun s (writeCp (cpWho f) (f, slot) (r.u 8 8) (leBytes 128 (kget 0 s.pool.aclMap g))) (fun s _ =>
      .done s stOk (leBytes 8 (kget 0 s.pool.acl g)))))

end Sys2Proof.Machine
end

