-- ==== Sys2Proof/Machine/Fabric.lean ====
section
/-! DEFINITION. Filet ports (R289 to R308): training, flits, forwarding, fencing, and what a requester does about a dropped packet. -/

namespace Sys2Proof.Machine

open Sys2Proof

/-! ### Fencing a port (R304 to R306) -/

/-- Cut-through: a packet that is still arriving goes on at another port (R300, R305). -/
def State.relink (s : State) (old new : Nat × Packet) : State :=
  let move := fun (r : RxPacket) => if r.out = some old then { r with out := some new } else r
  { s with ports := s.ports.map (fun (e : Nat × Port) =>
      (e.1, { e.2 with rx := e.2.rx.map (fun (v : Nat × List RxPacket) => (v.1, v.2.map move)) })) }

/-- Send a packet that waited for port `q` another way, or discard it (R305). -/
def State.reroute (s : State) (q : Nat) (t : TxPacket) : State :=
  let k := { t.packet with hops := t.packet.hops - 1 }
  match s.route k (q / 2) false with
  | none => s.dropPacket k false (some q)
  | some (o, k') =>
    let s := if k'.reversed && !k.reversed then s.updPort q (fun p => { p with counters := bump p.counters 0x30 1 }) else s
    (s.enqueuePort o { packet := k', avail := t.avail }).relink (q, t.packet) (o, k')

/-- A member whose every port faces a link that its neighbour has reported down (R311). -/
def State.cutOff (s : State) (m : Nat) : Bool :=
  let ns := (List.range 6).filterMap (fun q => (neighbour s.pool m (q / 2) (q % 2 = 0)).map (fun n => (n, oppositePort q)))
  !ns.isEmpty && ns.all s.pool.fenced.contains

/-- As the leader, declare departed every member that is cut off (R311). -/
def State.checkDepartures (s : State) : State :=
  if s.epochs.leader ≠ s.pool.partId then s
  else s.memberList.foldl (fun s m => if m ≠ s.pool.partId && s.cutOff m then s.declareDeparted m else s) s

/-- Announce a fenced link of this part to every member, and apply it here (R305, R311). -/
def State.announceDown (s : State) (q cause : Nat) : State :=
  let me := s.pool.partId
  let s := { s with pool := { s.pool with fenced := s.pool.fenced.filter (fun l => l ≠ (me, q)) ++ [(me, q)] } }
  (s.broadcast (.linkDown me q cause (s.port q).rxSeq) false).checkDepartures

/-- Start training (R292). -/
def State.train (s : State) (q : Nat) : State := s.updPort q (fun p => { p with state := 1, trainAt := s.refCount })

/-- A planned fence that firmware begins (R306, R544, R556). -/
def State.planFence (s : State) (q : Nat) : State :=
  (s.updPort q (fun p => { p with state := 5, drainAt := s.refCount })).announceDown q 7

/-- Begin with the next port of those to be retrained at full rate; one that is no longer ACTIVE is passed over (R544). -/
def State.nextRetrain : Nat → State → State
  | 0, s => s
  | n + 1, s =>
    match s.service.retrain with
    | [] => s
    | q :: rest =>
      if (s.port q).state = 4 then s.planFence q
      else State.nextRetrain n { s with service := { s.service with retrain := rest } }

/-- A rollout ends: its request is answered (R554, R556). -/
def State.endRollout (s : State) (r : Rollout) (status : Nat) : State :=
  ({ s with service := { s.service with rollouts := s.service.rollouts.filter (fun x => x.kind ≠ r.kind) } } : State).opEnd
    (some (r.fn, r.opId)) status []

/-- The rollout that has port `q` in hand. -/
def State.portRollout (s : State) (q : Nat) : Option Rollout := s.service.rollouts.find? (fun r => r.kind = 3 && r.taken.contains q)

/-- Firmware goes on with a port that has come to FENCED: it loads an image, or retrains it; after any other fence the port stays
FENCED, the rollout stops, and a full-rate retraining is reported as failed (R544, R546, R556). -/
def State.afterFence (s : State) (q cause : Nat) : State :=
  match s.portRollout q with
  | some r =>
    if cause = 7 then ({ s with service := { s.service with fabSlot := kput s.service.fabSlot q r.slot } } : State).train q
    else s.endRollout r stUpdateFailed
  | none =>
    if s.service.retrain.head? ≠ some q then s
    else if cause = 7 then s.train q
    else State.nextRetrain 6 (({ s with service := { s.service with retrain := s.service.retrain.tail } } : State).raise
      { event := 0x0202, severity := 0, unit := 0x0A, port := q })

/-- A port of a rollout runs the new image; after the last one the image runs on the part (R556). -/
def State.portUpdated (s : State) (r : Rollout) (q : Nat) : State :=
  let left := r.left.filter (· ≠ q)
  if left.isEmpty then
    (({ s with service := { s.service with running := kput s.service.running 3 r.slot, fabSlot := [] } } : State).raise
      { event := 0x0206, severity := 3, unit := 0x0D, detail := leBytes 1 3 }).endRollout r stOk
  else { s with service := { s.service with rollouts := s.service.rollouts.map (fun (x : Rollout) =>
    if x.kind = 3 then { x with left := left, taken := [] } else x) } }

/-- Firmware goes on after a port has come to ACTIVE. -/
def State.afterTrain (s : State) (q : Nat) : State :=
  match s.portRollout q with
  | some r => s.portUpdated r q
  | none =>
    if s.service.retrain.head? = some q then
      State.nextRetrain 6 { s with service := { s.service with retrain := s.service.retrain.tail } }
    else s

/-- The port is FENCED: counted, recorded and left out of routes, and its requests are answered with a status (R299, R304, R313). A
PORT_UNFENCE that waited for the end of a drain trains it at once (R306, R312). -/
def State.portFenced (s : State) (q cause status : Nat) : State :=
  let p := s.port q
  let again := p.runs && !p.upOps.isEmpty
  let ops := if again then p.fenceOps else p.fenceOps ++ p.upOps
  let s := s.updPort q (fun p => { p with state := 6, cause := cause, fences := satAdd 16 p.fences 1, fencedAt := s.refCount, fenceOps := [],
                                          upOps := if again then p.upOps else [], closing := false })
  let link := (s.pool.partId, q)
  let s := { s with pool := { s.pool with fenced := s.pool.fenced.filter (fun l => l ≠ link) ++ [link] } }
  let s := s.raise { event := 0x0050, severity := 0, status := stLinkFenced, unit := 0x0A, port := q, detail := leBytes 1 cause }
  let s := (ops.foldl (fun s op => s.opEnd (some op) status []) s).afterFence q cause
  if again then s.train q else s

/-- Abandon a packet that this part has begun to send on by cut-through: STOMP goes down its path, and credits for what was not sent are
kept (R305 step 1). The part before this one sends the packet again, so that this one does not. -/
def Port.abandon (p : Port) (k : Packet) : Port :=
  let p := { p with stomped := k :: p.stomped, left := p.left.filter (fun l => l.packet ≠ k) }
  match kfind p.cur k.vc with
  | some t =>
    if t.packet = k then
      ({ p with cur := kdel p.cur k.vc, credits := kput p.credits k.vc (kget 0 p.credits k.vc + (k.length - t.sent)),
                stompDue := p.stompDue ++ [k] } : Port).send
    else { p with queue := p.queue.filter (fun t => t.packet ≠ k) }
  | none => { p with queue := p.queue.filter (fun t => t.packet ≠ k) }

/-- Abandon the packets that port `q` has begun to receive, on one channel or on all: their buffers are freed, and those forwarded already
are stomped on their way (R305 step 1). -/
def State.stompRx (s : State) (q : Nat) (vc : Option Nat) : State :=
  let part := fun (v : Nat) (r : RxPacket) => r.units < r.packet.length && (vc.isNone || vc = some v)
  let gone := (s.port q).rx.flatMap (fun v => v.2.filter (part v.1))
  let s := s.updPort q (fun p => { p with
    rx := p.rx.map (fun (v : Nat × List RxPacket) => (v.1, v.2.filter (fun r => !part v.1 r))),
    freed := p.rx.foldl (fun m v => kset 0 m v.1 (kget 0 m v.1 + ((v.2.filter (part v.1)).map (·.units)).sum)) p.freed })
  gone.foldl (fun s r => match r.out with | some (o, k) => s.updPort o (fun p => p.abandon k) | none => s) s

/-- Packets in flight on a port: those whose last flit is not acknowledged, and those begun (R305). -/
def Port.inFlight (p : Port) : List LeftPacket :=
  (p.retry.filter (·.final)).map (fun f => ⟨f.packet, some f.flit.seq⟩) ++ p.cur.map (fun e => ⟨e.2.packet, none⟩)

/-- An unplanned fence (R305): as the receiver it stomps and announces, as the transmitter it sends what waits another way and
keeps what is in flight until the other end says how much it has. -/
def State.fencePort (s : State) (q cause : Nat) : State :=
  let s := (s.stompRx q none).announceDown q cause
  let waiting := (s.port q).queue
  let s := s.updPort q (fun p => { p with queue := [], cur := [], retry := [], stompDue := [], left := p.inFlight, leftBase := p.txAcked,
                                          awaitDown := !p.inFlight.isEmpty })
  let s := s.portFenced q cause (if cause = 5 then stMiscabled else if cause = 7 then stOk else stLinkFenced)
  waiting.foldl (fun s t => s.reroute q t) s

/-- A port that carries traffic: ACTIVE or DRAINING. -/
def State.portUp (s : State) (q : Nat) : Bool := (s.port q).runs

/-- LANE_LOST (R304). -/
def execLaneLost (p : PortId) (s : State) : Host.Outcome State Fault Refusal := .next (if s.portUp p then s.fencePort p 1 else s)

/-- A second in reference ticks. -/
abbrev ticksPerSecond : Nat := 100000000

/-- Close the seconds that have passed since corrected symbols were last counted (R304). -/
def Port.ceRoll (p : Port) (now limit : Nat) : Port :=
  let n := (now - p.ceStart) / ticksPerSecond
  if n = 0 then p
  else { p with ceStart := p.ceStart + n * ticksPerSecond, ceCount := 0,
                ceOver := if n = 1 && limit < p.ceCount then p.ceOver + 1 else 0 }

/-- DEGRADED (R304): for 10 s in a row more symbols than CE_LIMIT were corrected in each second. -/
def execDegraded (p : PortId) (s : State) : Host.Outcome State Fault Refusal :=
  let s := s.updPort p (fun t => t.ceRoll s.refCount s.pool.ceLimit)
  .next (if s.portUp p && s.pool.ceLimit ≠ 0 && 10 ≤ (s.port p).ceOver then s.fencePort p 6 else s)

/-- PORT_DRAIN_COMPLETE (R306): nothing waits and everything is acknowledged. What has begun to arrive is ended as R305 says. -/
def execPortDrainComplete (p : PortId) (s : State) : Host.Outcome State Fault Refusal :=
  let t := s.port p
  .next (if t.state = 5 && t.queue.isEmpty && t.cur.isEmpty && t.retry.isEmpty && t.stompDue.isEmpty then (s.stompRx p none).portFenced p 7 stOk
    else s)

/-- PORT_DRAIN_TIMEOUT (R306): 30 µs after LINK_DOWN. -/
def execPortDrainTimeout (p : PortId) (s : State) : Host.Outcome State Fault Refusal :=
  .next (if (s.port p).state = 5 && s.since (s.port p).drainAt 30 then s.fencePort p 7 else s)

/-- What was in flight is discarded with UNCERTAIN (R305 step 6). -/
def State.dropLeft (s : State) (q : Nat) : State :=
  (s.port q).left.foldl (fun s k => s.dropPacket k.packet true (some q)) (s.updPort q (fun p => { p with left := [], awaitDown := false }))

/-- LINK_DOWN_TIMEOUT (R305 step 6): 20 µs without LINK_DOWN from the other end. -/
def execLinkDownTimeout (p : PortId) (s : State) : Host.Outcome State Fault Refusal :=
  let t := s.port p
  .next (if t.awaitDown && s.since t.fencedAt 20 then s.dropLeft p else s)

/-! ### Notices of links (R299, R305, R306, R311) -/

/-- The port of this part across the link that part `n` names by its own port. -/
def State.portAcross (s : State) (n q : Nat) : Option Nat :=
  let o := oppositePort q
  if neighbour s.pool s.pool.partId (o / 2) (o % 2 = 0) = some n then some o else none

/-- T resends, from their first flit, the packets that V did not receive in full: those whose last flit lies beyond LAST_SEQ (R305
step 4). -/
def State.resendBeyond (s : State) (q lastSeq : Nat) : State :=
  let t := s.port q
  let place := fun (n : Nat) => (n + 1024 - t.leftBase) % 1024
  let beyond := fun (k : LeftPacket) => match k.last with | none => true | some n => place lastSeq < place n
  let s := s.updPort q (fun p => { p with left := [], awaitDown := false })
  (t.left.filter beyond).foldl (fun s k => s.reroute q { packet := k.packet, avail := k.packet.length }) s

/-- The other end has begun a planned fence: no further packet goes to the port, and those that wait go another way; what has begun ends
over the link, which stays up (R305 step 3, R306; log entry 39). -/
def State.closePort (s : State) (q : Nat) : State :=
  let waiting := (s.port q).queue
  waiting.foldl (fun s t => s.reroute q t) (s.updPort q (fun p => { p with queue := [], closing := true }))

/-- LINK_DOWN: the link is left out of routes. Across it, this part stops its own end and resends what the other did not receive; a planned
fence comes first with the link still up, and again if its drain has not ended (R305, R306). -/
def execLinkDown (part : Fin 1024) (port : PortId) (cause : Nat) (lastSeq : Nat) (s : State) : Host.Outcome State Fault Refusal :=
  if !s.module.powered then .next s
  else
  let s := s.takeMsg (.linkDown part port cause lastSeq)
  let s := { s with pool := { s.pool with fenced := s.pool.fenced.filter (fun l => l ≠ (part.val, port.val)) ++ [(part.val, port.val)] } }
  let s := match s.portAcross part port with
    | none => s
    | some q =>
      if !s.portUp q then (s.stompRx q none).resendBeyond q lastSeq
      else if cause = 7 && !(s.port q).closing then s.closePort q
      else (s.fencePort q cause).resendBeyond q lastSeq
  .next s.checkDepartures

/-- LINK_UP. -/
def execLinkUp (part : Fin 1024) (port : PortId) (s : State) (cause : Nat := 0) (lastSeq : Nat := 0) : Host.Outcome State Fault Refusal :=
  let s := s.takeMsg (.linkUp part port cause lastSeq)
  .next { s with pool := { s.pool with fenced := s.pool.fenced.filter (fun l => l ≠ (part.val, port.val)) } }

/-! ### Training (R292) -/

/-- TRAIN_LOCK. -/
def execTrainLock (p : PortId) (s : State) : Host.Outcome State Fault Refusal :=
  .next (s.updPort p (fun t => if t.state = 1 then { t with state := 2 } else t))

/-- The identity block that this part sends on a port (R292). -/
def State.idBlock (s : State) (q : Nat) : IdBlock :=
  let p := s.pool
  { poolId := p.poolId, part := p.partId, port := q, dx := p.dx, dy := p.dy, dz := p.dz, rings := p.rings }

/-- EQUALISE_DONE: the identity block goes out. -/
def execEqualiseDone (p : PortId) (s : State) : Host.Outcome State Fault Refusal :=
  .next (s.updPort p (fun t => if t.state = 2 then { t with state := 3, idSent := some (s.idBlock p) } else t))

/-- TRAIN_TIMEOUT: 20 ms without reaching IDENTIFY. -/
def execTrainTimeout (p : PortId) (s : State) : Host.Outcome State Fault Refusal :=
  let t := s.port p
  .next (if (t.state = 1 || t.state = 2) && s.since t.trainAt 20000 then s.portFenced p 4 stLinkFenced else s)

/-- A trained port: SEQ and ACK at 0, full credits, nothing in flight (R292). DEDUCED: the first data flit then takes SEQ 1, since ACK 0
would acknowledge a flit of SEQ 0 (R294; log entry 39). -/
def Port.activate (p : Port) (full : Bool) : Port :=
  { p with state := 4, full := full, txLast := 0, txAcked := 0, retry := [], cur := [], stompDue := [],
           credits := (List.range 8).map (fun v => (v, 1024)), closing := false, rxSeq := 0, ackTold := 0, nakDue := false, discards := 0, discardAt := [], rx := [], freed := [],
           fenceOps := [], upOps := [] }

/-- The identity block that port `q` expects of its neighbour (R292). -/
def State.idExpected (s : State) (q : Nat) : Option IdBlock :=
  (neighbour s.pool s.pool.partId (q / 2) (q % 2 = 0)).map (fun n => { s.idBlock (oppositePort q) with part := n })

/-- IDENTITY_BLOCK: ACTIVE where it matches, else fenced as MISCABLED; a retrained link is announced with LINK_UP (R306). What a fence had
left in flight, and LINK_DOWN has not settled, is discarded (R305 step 6). -/
def execIdentityBlock (p : PortId) (poolId : Nat) (part : Nat) (port : Nat) (dx : Nat) (dy : Nat) (dz : Nat) (rings : Nat) (peerFull : Bool)
    (fab : Image) (s : State) : Host.Outcome State Fault Refusal :=
  let q := p.val
  let t := s.port q
  if t.state ≠ 3 then .next s
  else if s.idExpected q ≠ some ⟨poolId, part, port, dx, dy, dz, rings⟩ then .next (s.portFenced q 5 stMiscabled)
  else
    let s := s.dropLeft q
    let s := s.updPort q (fun p => { p.activate (peerFull && s.fullService) with peerFab := fab })
    let s := (t.fenceOps ++ t.upOps).foldl (fun s op => s.opEnd (some op) stOk []) s
    let me := s.pool.partId
    let s := if s.pool.fenced.contains (me, q) then
        ({ s with pool := { s.pool with fenced := s.pool.fenced.filter (fun l => l ≠ (me, q)) } } : State).broadcast
          (.linkUp me q (s.port q).cause (s.port q).rxSeq) false
      else s
    .next (s.afterTrain q)

/-! ### Flits (R294, R295, R304) -/

/-- Apply a flit's ACK: what it covers leaves the retry buffer. -/
def Port.acked (p : Port) (ack : Nat) : Port :=
  let place := fun (k : Nat) => (k + 1024 - p.txAcked) % 1024
  if p.unacked < place ack then p
  else { p with txAcked := ack, retry := p.retry.filter (fun f => place ack < place f.flit.seq) }

/-- A NAK replays every unacknowledged flit in order and with its content, the credits it returns among it, and a current ACK (R295). -/
def Port.replay (p : Port) : Port :=
  { p with sent := (p.retry.map (fun f => { f.flit with ack := p.rxSeq, nak := false })).reverse ++ p.sent,
           counters := bump (bump p.counters 0x28 p.retry.length) 0x08 p.retry.length }

/-- Units of an accepted data flit reach their packet's receive buffer (R295, R300). -/
def Port.receive (p : Port) (fl : Flit) : Port :=
  let l := kget [] p.rx fl.vc
  let l : List RxPacket := match fl.packet with
    | some k => l ++ [{ packet := k, units := fl.units }]
    | none =>
      match l.getLast? with
      | none => l
      | some r => l.dropLast ++ [{ r with units := r.units + fl.units }]
  { p with rx := kput p.rx fl.vc l }

/-- A complete packet that has gone on, or was discarded, leaves its receive buffer. -/
def Port.clearRx (p : Port) (vc : Nat) : Port :=
  let done := fun (r : RxPacket) => (r.out.isSome || r.drop) && r.packet.length ≤ r.units
  let l := kget [] p.rx vc
  let n := ((l.filter done).map (fun r => r.packet.length)).sum
  { p with rx := kput p.rx vc (l.filter (fun r => !done r)), freed := kset 0 p.freed vc (kget 0 p.freed vc + n) }

/-- Units of a packet that goes on by cut-through have come in: they can be sent on (R300). -/
def Port.feed (p : Port) (k : Packet) (n : Nat) : Port :=
  let add := fun (t : TxPacket) => if t.packet = k && t.avail < k.length then { t with avail := t.avail + n } else t
  ({ p with queue := p.queue.map add, cur := p.cur.map (fun (e : Nat × TxPacket) => (e.1, add e.2)) } : Port).send

/-- The payload of an accepted flit (R295, R300). -/
def State.takePayload (s : State) (q : Nat) (fl : Flit) : State :=
  let s := s.updPort q (fun t => t.receive fl)
  let s := match (kget [] (s.port q).rx fl.vc).getLast? with
    | some r => (match r.out with | some (o, k) => s.updPort o (fun p => p.feed k fl.units) | none => s)
    | none => s
  s.updPort q (fun t => t.clearRx fl.vc)

/-- The outcome of decoding a flit (R293, R295): whether it is discarded as uncorrectable. What the decoder does with more than three wrong
symbols in a codeword is open (log entry 15). -/
def State.decodeFlit (s : State) (fl : Flit) : State × Bool :=
  if fl.detected then (s, true)
  else if fl.beyond then (let (s, d) := s.draw; (s, !Config.miscorrects d))
  else (s, false)

/-- FLIT_RECEIVE (R295): discarded whole with NAK, and with a fence for repeated discards, or taken. A flit that is no data flit carries the
next SEQ and consumes none (R294). -/
def execFlitReceive (p : PortId) (fl : Flit) (s : State) : Host.Outcome State Fault Refusal :=
  let q := p.val
  if !s.portUp q then .next s
  else
    let (s, bad) := s.decodeFlit fl
    let t := s.port q
    let s := s.updPort q (fun t =>
      let t := t.ceRoll s.refCount s.pool.ceLimit
      { t with counters := bump t.counters 0x18 fl.corrected, ceCount := t.ceCount + fl.corrected })
    let expected := fl.seq = (t.rxSeq + 1) % 1024
    if bad || fl.type = 3 || !expected then
      let times := s.refCount :: t.discardAt.filter (fun d => s.refCount ≤ d + 1000 * ticksPerUs)
      let n := if expected then t.discards + 1 else t.discards
      let s := s.updPort q (fun t => ({ t with nakDue := true, discards := n, discardAt := times, counters := bump t.counters 0x20 1 } : Port).send)
      .next (if 8 ≤ n then s.fencePort q 2 else if 4096 < times.length then s.fencePort q 3 else s)
    else
      let s := s.updPort q (fun t =>
        let t := t.acked fl.ack
        let t := if fl.nak then t.replay else t
        { t with credits := kput t.credits fl.creditVc (min 1024 (kget 0 t.credits fl.creditVc + fl.credits)), discards := 0 })
      let s := if fl.stomp then s.stompRx q (some fl.vc) else s
      let s := if fl.type = 1 then
          let s := s.updPort q (fun t => { t with rxSeq := fl.seq, counters := bump t.counters 0x10 1 })
          if fl.stomp then s else s.takePayload q fl
        else s
      .next (s.updPort q Port.send)

/-! ### Forwarding (R298, R300) -/

/-- A packet leaves its receive buffer, at once or, while its tail is still arriving, marked with where it goes on or as discarded. -/
def Port.forwardHead (p : Port) (vc : Nat) (out : Option (Nat × Packet)) : Port :=
  match kget [] p.rx vc with
  | [] => p
  | r :: rs =>
    if r.packet.length ≤ r.units then
      ({ p with rx := kput p.rx vc rs, freed := kset 0 p.freed vc (kget 0 p.freed vc + r.units) } : Port).send
    else { p with rx := kput p.rx vc ({ r with out := out, drop := out.isNone } :: rs) }

/-- An output port can begin a packet now: nothing of its channel waits or is under way, and the channel holds credits for its whole length
(R300). -/
def Port.canBegin (p : Port) (k : Packet) : Bool :=
  p.usable && (kfind p.cur k.vc).isNone && !p.queue.any (fun t => t.packet.vc = k.vc) && k.length ≤ kget 0 p.credits k.vc

/-- PACKET_FORWARD: the oldest packet of a virtual channel goes on, reaches this part once it is complete, or is discarded. -/
def execPacketForward (p : PortId) (vc : Fin 8) (s : State) : Host.Outcome State Fault Refusal :=
  let q := p.val
  match kget [] (s.port q).rx vc.val with
  | [] => .next s
  | r :: _ =>
    let k := r.packet
    let gone := s.updPort q (fun p => p.forwardHead vc.val none)
    if r.out.isSome || r.drop then .next s
    else if poolSize s.pool ≤ k.dest then .next ((gone.dropPacket k false (some q)).logEvent 0x0A)
    else if 64 ≤ k.hops then .next (gone.logEvent 0x0A)
    else
      match routeDim s.pool s.pool.partId k.dest with
      | none => .next (if k.length ≤ r.units then gone.deliver k else s)
      | some d =>
        match s.route k d (d ≠ q / 2) with
        | none => .next (gone.dropPacket k false (some q))
        | some (o, k') =>
          if !(s.port o).canBegin k' then .next s
          else
            let s := s.updPort q (fun p => p.forwardHead vc.val (some (o, k')))
            let s := if k'.reversed && !k.reversed then s.updPort (portOf d (k.dir d)) (fun p => { p with counters := bump p.counters 0x30 1 }) else s
            .next (s.enqueuePort o { packet := k', avail := min r.units k.length })

/-! ### Dropped packets and resending (R307) -/

/-- The message that this part sent under a header. -/
def State.sentMsg (s : State) (h : MsgHdr) (kind : Nat) : Option Packet :=
  s.pool.tx.find? (fun k => k.msg.kind = kind && k.msg.hdr? = some h)

/-- A request of an outstanding slot is to be sent again under a new tag (R307): lines are asked for anew, a write waits in order, and an
arrival is made again. -/
def State.reissueOut (s : State) (h : MsgHdr) (o : OutSlot) : State :=
  let k := h.srcCluster % 16
  let sent := s.sentMsg h 0x05
  let s := s.freeOut k h.tagSlot
  if o.kind = 1 then
    let first := o.addr / 64
    s.updCore o.core (fun q => { q with rpend := q.rpend.filter (fun l => l % 2 ^ 60 < first || first + cdiv o.len 64 ≤ l % 2 ^ 60) })
  else if o.kind = 2 then
    match sent.map (fun (k : Packet) => k.msg) with
    | some (.write _ a ws) => s.updCore o.core (fun q => { q with wqueue := ⟨a, ws, o.via, o.sent⟩ :: q.wqueue })
    | _ => if o.core < 128 then s.failCmd o.cmd o.core stLinkFenced else s.failOther o stLinkFenced
  else if o.len = 1 then s.updCore o.core (fun q => q.mxMove 3 2)
  else s.updSeq o.core (fun q => { q with arrHeld := false })

/-- The MIGRATE_COPY that this part sent under a number: its epoch and row. -/
def State.sentCopy (s : State) (target num : Nat) : Option (Nat × ReplyEntry) :=
  s.pool.tx.findSome? (fun k => match k.msg with
    | .migrateCopy h _ _ _ _ a _ => if k.dest = target && h.num = num then some (h.epoch, a) else none
    | _ => none)

/-- Send the copy of a migration that has a number again as it was, under a new one (R307). -/
def State.recopyOne (s : State) (m : Migration) (num : Nat) : State :=
  match m.out.find? (fun o => o.2 = num), s.sentCopy m.target num with
  | some (r, _), some (epoch, a) =>
    let (s, n) := s.sendCopy m r epoch a
    s.updMig m (fun m => { m with out := m.out.map (fun o => if o.2 = num then (o.1, n) else o) })
  | _, _ => s

/-- Send a migration's unacknowledged copies again (R217). -/
def State.recopy (s : State) (m : Migration) : State := (m.out.map (·.2)).foldl (fun s n => s.recopyOne m n) s

/-- Send a logged delta, or one passed on, again under a new number (R217, R307). -/
def State.relog (s : State) (num : Nat) : State :=
  match s.epochs.logs.find? (fun l => l.num = num) with
  | some l =>
    let (s, n) := s.takeNum
    (s.updEp (fun p => { p with logs := p.logs.map (fun x => if x.num = num then { x with num := n } else x) })).poolSend l.target
      (.migrateLog (s.numHdr n l.epoch) l.table l.bucket l.isRow l.row l.entry)
  | none =>
    match s.epochs.fwds.find? (fun f => f.num = num) with
    | none => s
    | some f =>
      let (s, n) := s.takeNum
      (s.updEp (fun p => { p with fwds := p.fwds.map (fun x => if x.num = num then { x with num := n } else x) })).poolSend f.target
        (.delta { s.numHdr n f.hdr.epoch with forward := true } f.entries)

/-- What a requester does about a packet that was discarded, its own or the reply to it (R307). -/
def State.onDropped (s : State) (uncertain : Bool) (kind : Nat) (h : MsgHdr) : State :=
  let k := h.srcCluster % 16
  let fail := fun (o : OutSlot) =>
    let s := s.freeOut k h.tagSlot
    if o.core < 128 then s.failCmd o.cmd o.core stLinkFenced else s.failOther o stLinkFenced
  if kind = 0x16 || kind = 0x17 || kind = 0x18 then
    s.epochs.migrations.foldl (fun s m => s.recopyOne m h.num) (s.relog h.num)
  else if h.forward && (kind = 0x10 || kind = 0x11) then s.relog h.num
  else if kind = 0x01 || kind = 0x02 then
    match s.answered? h 0 with
    | none => s
    | some o =>
      let s := s.freeOut k h.tagSlot
      if o.batch.entries.any (·.isForward) then s
      else s.updExch k (fun x => { x with closed := x.closed ++ [{ o.batch with resent := true }] })
  else if kind = 0x03 || kind = 0x04 then
    match s.answered? h 1 with
    | none => s
    | some o => s.reissueOut h o
  else if kind = 0x05 || kind = 0x06 then
    match s.answered? h 2 with
    | none => s
    | some o => if uncertain then fail o else s.reissueOut h o
  else if kind = 0x07 || kind = 0x08 then
    match s.answered? h 3 with
    | none => s
    | some o => if uncertain then fail o else s.reissueOut h o
  else if kind = 0x10 || kind = 0x11 then
    match s.answered? h 4 with
    | none => s
    | some _ => ((s.freeOut k h.tagSlot).unsendDelta k (h.tagSlot * 128 + h.tagSeq)).pumpDeltas
  else s

/-- The first 32 bytes of a packet, as a DROPPED notice gives them: the route header, the message's type byte and the rest of its header
(R161, R296, R310). -/
def dropHead (route : BitVec 128) (kind : BitVec 8) (hdr : BitVec 120) : List Byte :=
  leBytes 16 route.toNat ++ leBytes 1 kind.toNat ++ leBytes 15 hdr.toNat

/-- DROPPED (R305, R307): the notice names the packet by its first 32 bytes. -/
def execDropped (uncertain : Bool) (route : BitVec 128) (kind : BitVec 8) (hdr : BitVec 120) (s : State) : Host.Outcome State Fault Refusal :=
  let head := dropHead route kind hdr
  .next ((s.takeMsg (.dropped uncertain head)).onDropped uncertain (headKind head) (headHdr head))

/-- CTRL_RESEND (R307): unanswered control requests go out again every 100 µs. -/
def execCtrlResend (s : State) : Host.Outcome State Fault Refusal :=
  let due := s.pool.ctrl.filter (fun c => s.since c.last 100)
  .next (due.foldl (fun s c => s.ctrlSend c.dest c.msg) s)

/-! ### Control operations (R306, R312, R313) -/

/-- PORT_QUERY. -/
def execPortQuery (f : FnId) (slot : Fin 28) (s : State) : Host.Outcome State Fault Refusal :=
  .next (s.serve f slot 0x0607 false (fun r s =>
    let p := s.port (r.u 0 1)
    checks s [(6 ≤ r.u 0 1, stBadPattern)]
      (.done s stOk (leBytes 1 p.state ++ leBytes 1 p.cause ++ leBytes 1 (b2n p.full) ++ leBytes 5 0 ++ leBytes 8 (kget 0 p.counters 0x18) ++
        leBytes 8 (kget 0 p.counters 0x20)))))

/-- PORT_FENCE (R306): LINK_DOWN, then the drain, at whose end it answers; so does one that meets the drain. A port that carries no traffic
has nothing to fence. -/
def execPortFence (f : FnId) (slot : Fin 28) (s : State) : Host.Outcome State Fault Refusal :=
  .next (s.serve f slot 0x0608 true (fun r s =>
    let q := r.u 0 1
    checks s [(6 ≤ q, stBadPattern)]
      (.async (fun s id =>
        let wait := fun (s : State) => s.updPort q (fun p => { p with fenceOps := p.fenceOps ++ [(f.val, id)] })
        if (s.port q).state = 5 then wait s
        else if (s.port q).state ≠ 4 then s.opEnd (some (f.val, id)) stOk []
        else (wait s).planFence q))))

/-- PORT_UNFENCE (R306, R312): answered when the port is ACTIVE. A FENCED or DOWN port trains again; one that trains, or drains, is waited
for. -/
def execPortUnfence (f : FnId) (slot : Fin 28) (s : State) : Host.Outcome State Fault Refusal :=
  .next (s.serve f slot 0x0609 true (fun r s =>
    let q := r.u 0 1
    checks s [(6 ≤ q || !s.cabled q, stBadPattern)]
      (.async (fun s id =>
        let st := (s.port q).state
        if st = 4 then s.opEnd (some (f.val, id)) stOk []
        else
          let s := s.updPort q (fun p => { p with upOps := p.upOps ++ [(f.val, id)] })
          if st = 6 || st = 0 then s.train q else s))))

end Sys2Proof.Machine
end

