-- ==== Sys2Proof/Machine/Translate.lean ====
section
/-! DEFINITION. Translation at work (R432 to R458): setting roots, withdrawing translations and draining them, fault batches and
rings, resolving faults, and migrating pages. -/

namespace Sys2Proof.Machine

open Sys2Proof

/-! ### Withdrawing a translation (R450 to R452) -/

/-- The page that a cached translation is derived from, and its size: its leaf's, or for one that ATS gave its own. -/
def TlbEntry.page (e : TlbEntry) : Nat × Nat :=
  let n := 2 ^ levelShift e.level
  if e.entry = 0 then (e.va, e.size) else (e.va / n * n, n)

/-- A cached translation whose page meets a range of a context (R450). -/
def TlbEntry.meets (e : TlbEntry) (isFn : Bool) (ctx first last : Nat) : Bool :=
  e.isFn = isFn && e.ctx = ctx && e.page.1 ≤ last && first < e.page.1 + e.page.2

/-- Every cached translation. -/
def Xlt.cached (x : Xlt) : List TlbEntry :=
  x.coreTlb.flatMap (·.2) ++ x.clusterTlb.flatMap (·.2) ++ x.devTlb.flatMap (·.2)

/-- Remove cached translations from every cache (R450). -/
def State.dropTlb (s : State) (p : TlbEntry → Bool) : State :=
  let f := fun (m : KMap (List TlbEntry)) => m.map (fun (e : Nat × List TlbEntry) => (e.1, e.2.filter (fun t => !p t)))
  { s with xlt := { s.xlt with coreTlb := f s.xlt.coreTlb, clusterTlb := f s.xlt.clusterTlb, devTlb := f s.xlt.devTlb } }

/-- The range of a withdrawal, widened to the pages that it meets. -/
def State.pageSpan (s : State) (isFn : Bool) (ctx first last : Nat) : Nat × Nat :=
  let hit := s.xlt.cached.filter (fun e => e.meets isFn ctx first last)
  (hit.foldl (fun a e => min a e.page.1) (first / 2 ^ 25 * 2 ^ 25),
   hit.foldl (fun a e => max a (e.page.1 + e.page.2 - 1)) (last / 2 ^ 25 * 2 ^ 25 + 2 ^ 25 - 1))

/-- A transfer goes through a translation of a range and began no later than the withdrawal. -/
def viaMeets (via : Option (Bool × Nat × Nat)) (isFn : Bool) (ctx first last sent start : Nat) : Bool :=
  match via with
  | none => false
  | some (f, x, va) => f = isFn && x = ctx && first ≤ va && va ≤ last && sent ≤ start

/-- Remote reads and writes in flight under a withdrawn range: exchange unit and slot (R451). -/
def State.remoteUnder (s : State) (isFn : Bool) (ctx first last start : Nat) : List (Nat × Nat) :=
  s.exchanges.flatMap (fun e => (e.2.slots.filter (fun o =>
    (o.2.kind = 1 || o.2.kind = 2) && viaMeets o.2.via isFn ctx first last o.2.sent start)).map (fun o => (e.1, o.1)))

/-- Cores whose writes to another part wait to be sent under a withdrawn range. -/
def State.queuedUnder (s : State) (isFn : Bool) (ctx first last start : Nat) : List Nat :=
  (s.cores.filter (fun e => e.2.wqueue.any (fun q => viaMeets q.via isFn ctx first last q.queued start))).map (·.1)

/-- A local write that waits for the host and goes through a withdrawn range. -/
def BackInv.under (b : BackInv) (isFn : Bool) (ctx first last start : Nat) : Bool :=
  b.mask.any id && viaMeets b.via isFn ctx first last b.sent start

/-- The transfers under a withdrawn range have drained (R451). -/
def State.drained (s : State) (isFn : Bool) (ctx first last start : Nat) : Bool :=
  (s.remoteUnder isFn ctx first last start).isEmpty && (s.queuedUnder isFn ctx first last start).isEmpty &&
    !s.link.pendingInv.any (fun b => b.under isFn ctx first last start)

/-- Abandon the transfers still in flight: writes not yet accepted are discarded, read data is not delivered, and the holder is torn
down, or the control operation ends (R452). Also says whether a context was torn down. -/
def State.revoke (s : State) (isFn : Bool) (ctx first last start : Nat) : State × Bool :=
  if s.drained isFn ctx first last start then (s, false)
  else
    let held := s.remoteUnder isFn ctx first last start
    let waits := s.queuedUnder isFn ctx first last start
    let cps := [128, 129].filter (fun c => waits.contains c || held.any (fun e => (kfind (s.exch e.1).slots e.2).any (fun o => o.core = c)))
    let s := held.foldl (fun s e => s.freeOut e.1 e.2) s
    let s := { s with link := { s.link with pendingInv := s.link.pendingInv.map (fun b =>
      if b.under isFn ctx first last start then { b with cmd := 0, mask := List.replicate 64 false, via := none } else b) } }
    let s := cps.foldl (fun s c => s.updCore c (fun k => { k with rfail := stTranslationRevoked, rpend := [], wpend := 0, wqueue := [] })) s
    let tears := !isFn && (s.ctx ctx).phase ≠ 0 && (s.ctx ctx).phase ≠ 7
    if tears then ((s.tear ctx stTranslationRevoked).xltCount 0x70, true) else (s, false)

/-- The drain of a mailbox request. -/
def State.drainOf (s : State) (f slot : Nat) : Option XDrain := s.xlt.drains.find? (fun d => d.fn = f && d.slot = slot)

/-- Remove the translations of a range and begin the drain of a mailbox request (R450, R451). -/
def State.withdrawRange (s : State) (f slot : Nat) (isFn : Bool) (ctx first last : Nat) : State :=
  let (a, b) := s.pageSpan isFn ctx first last
  let s := s.dropTlb (fun e => e.meets isFn ctx first last)
  { s with xlt := { s.xlt with
      drains := s.xlt.drains ++ [{ fn := f, slot := slot, isFn := isFn, ctx := ctx, first := a, last := b, start := s.refCount }] } }

/-- Answer a request whose drain has ended, with the contexts torn down; else it goes on RUNNING (R451). -/
def State.awaitDrain (s : State) (f slot : Nat) (count : Bool) : Reply :=
  match s.drainOf f slot with
  | none => .wait s
  | some d =>
    if s.drained d.isFn d.ctx d.first d.last d.start then
      let s := { s with xlt := { s.xlt with drains := s.xlt.drains.filter (fun e => !(e.fn = f && e.slot = slot)) } }
      .done (if count then s.xltCount 0x68 else s) stOk (leBytes 4 d.torn)
    else .wait s

/-- Target of XLT_SET and XLT_INVALIDATE: out of its range, or an ABSENT context (R455). -/
def State.targetChecks (s : State) (r : Req) (bad : Bool) : List (Bool × Nat) :=
  [(1 < r.u 0 1 || (r.u 0 1 = 1 && 16 < r.u 1 1) || bad, stBadPattern),
   (r.u 0 1 = 0 && (s.ctx (r.u 1 1)).phase = 0, stContextConflict)]

/-- XLT_SET (R454): the root and the PASID; a new root or a changed PASID withdraws the whole context. -/
def execXltSet (f : FnId) (slot : Fin 28) (s : State) : Host.Outcome State Fault Refusal :=
  .next (s.serve f slot 0x0401 true (fun r s =>
    match s.drainOf f slot with
    | some _ => s.awaitDrain f slot false
    | none =>
      let isFn := r.u 0 1 = 1
      let x := r.u 1 1
      let newRoot := bitAt (r.u 2 1) 0
      let root := r.u 8 8
      let pasid := if bitAt (r.u 2 1) 1 then some (r.u 4 4 % 2 ^ 20) else none
      checks s (s.targetChecks r (newRoot && (root % 32768 ≠ 0 || 2 ^ 38 ≤ root)))
        (let changed := !isFn && pasid ≠ kfind s.xlt.ctxPasid x
         let s := if !newRoot then s
           else if isFn then { s with xlt := { s.xlt with fnRoot := kset 0 s.xlt.fnRoot x root } }
           else ({ s with xlt := { s.xlt with ctxRoot := kput s.xlt.ctxRoot x root } } : State).updCtx x (fun c => { c with ptRoot := root })
         let s := if isFn then s
           else { s with xlt := { s.xlt with ctxPasid := match pasid with
              | some v => kput s.xlt.ctxPasid x v
              | none => kdel s.xlt.ctxPasid x } }
         if newRoot || changed then (s.withdrawRange f slot isFn x 0 (2 ^ 52 - 1)).awaitDrain f slot false
         else .done s stOk (leBytes 4 0))))

/-- XLT_INVALIDATE (R450, R451). -/
def execXltInvalidate (f : FnId) (slot : Fin 28) (s : State) : Host.Outcome State Fault Refusal :=
  .next (s.serve f slot 0x0402 true (fun r s =>
    match s.drainOf f slot with
    | some _ => s.awaitDrain f slot true
    | none =>
      let a := r.u 8 8
      let b := r.u 16 8
      checks s (s.targetChecks r (2 ^ 52 ≤ a || 2 ^ 52 ≤ b || b < a))
        ((s.withdrawRange f slot (r.u 0 1 = 1) (r.u 1 1) a b).awaitDrain f slot true)))

/-- ATS_INVALIDATE_REQUEST (R450, R451): the host withdraws its translations of a range for a requester and PASID. Transfers through
host leaves end within their row, so the completion follows at once. -/
def execAtsInvalidateRequest (f : FnId) (pasid : Option (BitVec 20)) (va : Nat) (size : Nat) (s : State) :
    Host.Outcome State Fault Refusal :=
  let p := pasid.map BitVec.toNat
  let covers := fun (h : HostPage) => h.fn = f && h.pasid = p && h.va < va + size && va < h.va + h.size
  let hit := fun (e : TlbEntry) => match e.host with
    | some h => covers h || (s.requester e.isFn e.ctx = (f.val, p) && e.va < va + size && va < e.va + e.size)
    | none => false
  let s := (s.dropTlb hit).xltCount 0x68
  .next { s with host := { s.host with pages := s.host.pages.filter (fun h => !covers h), atsDone := s.host.atsDone + 1 } }

/-- XLT_DRAIN_TIMEOUT (R452): drains that have not ended 30 µs after their start abandon their transfers. -/
def execXltDrainTimeout (s : State) : Host.Outcome State Fault Refusal :=
  let s := (s.xlt.drains.filter (fun d => s.since d.start 30)).foldl (fun s d =>
    let (s, torn) := s.revoke d.isFn d.ctx d.first d.last d.start
    if torn then { s with xlt := { s.xlt with drains := s.xlt.drains.map (fun e =>
      if e.fn = d.fn && e.slot = d.slot then { e with torn := e.torn + 1 } else e) } } else s) s
  .next (s.xlt.moves.foldl (fun s m =>
    match m.drain with
    | none => s
    | some t => if s.since t 30 then (s.revoke false m.ctx m.page (m.page + m.size - 1) t).1 else s) s)

/-! ### Fault batches and rings (R445, R447, R454) -/

/-- A function's fault ring; one with RING_LOG2 0 is unset. -/
def State.faultRing (s : State) (f : Nat) : FaultRing := kget {} s.xlt.rings f

/-- Records of a function's ring not yet consumed (R457). -/
def FaultRing.unread (r : FaultRing) : Nat := (r.written % 2 ^ 32 + 2 ^ 32 - r.head) % 2 ^ 32

/-- The ring has room for `n` more records. -/
def FaultRing.room (r : FaultRing) (n : Nat) : Bool := r.unread + n ≤ 2 ^ r.log2

/-- Write bytes to a function's ring in host memory (R447); says whether the write went through. -/
def State.ringWrite (s : State) (f va : Nat) (bs : List Byte) : State × Bool :=
  if !(s.fn f).busMaster then (s, false)
  else
    match s.xlateCp true f va true false with
    | (s, .ok (.host h)) => (s.writeHost h bs, true)
    | (s, _) => (s, false)

/-- Write records to a function's ring in order, up to the first whose write fails; says whether all were written (R447). -/
def State.putFaults (f : Nat) : State → List (FaultRec × List Byte) → State × Bool
  | s, [] => (s, true)
  | s, (r, bs) :: rest =>
    let g := s.faultRing f
    let ph := g.written / 2 ^ g.log2 % 2 = 0
    let line := withCrc (setField bs 1 [BitVec.ofNat 8 (fieldAt bs 1 1 % 128 + b2n ph * 128)])
    match s.ringWrite f (g.addr + 64 * (g.written % 2 ^ g.log2)) line with
    | (s, false) => (s, false)
    | (s, true) =>
      let s := { s with xlt := { s.xlt with
        rings := kput s.xlt.rings f { g with written := g.written + 1 },
        faults := s.xlt.faults.map (fun x => if r.kind = 1 && x.id = r.faultId then { x with written := true } else x) } }
      State.putFaults f s rest

/-- Count FATAL and NOTICE records that are discarded (R447, R457). -/
def State.dropNotices (s : State) (rs : List (FaultRec × List Byte)) : State :=
  { s with xlt := { s.xlt with dropped := satAdd 16 s.xlt.dropped (rs.filter (fun r => r.1.kind ≠ 1)).length } }

/-- End the commands of a fault with PAGE_FAULT_FATAL and close it (R447, R448). -/
def State.failFault (s : State) (id : Nat) : State :=
  match s.xlt.faults.find? (fun f => f.id = id) with
  | none => s
  | some f =>
    let s := f.accesses.foldl (fun s a => s.endCmd a.cmd stPageFaultFatal) s
    s.closeFaults (fun g => g.id = id)

/-- Write a batch to one ring and raise its vector. Where a write fails, the ring is unset; then, and where it was unset, the batch's
FATAL and NOTICE records are discarded and counted. Says whether the batch was written (R447). -/
def State.batchTo (s : State) (f : Nat) (rs : List (FaultRec × List Byte)) : State × Bool :=
  if rs.isEmpty then (s, true)
  else if (s.faultRing f).log2 = 0 then (s.dropNotices rs, false)
  else
    match State.putFaults f s rs with
    | (s, true) => (s.irq f 1 2, true)
    | (s, false) =>
      ((({ s with xlt := { s.xlt with rings := kput s.xlt.rings f { s.faultRing f with log2 := 0 } } } : State)).dropNotices rs, false)

/-- A PAGE fault of a batch that the physical function's ring has not taken: its commands end with PAGE_FAULT_FATAL, and the Almanac
takes an EVENT record (R447). -/
def State.loseFault (s : State) (id : Nat) : State :=
  match s.xlt.faults.find? (fun f => f.id = id) with
  | none => s
  | some f => (s.almRecord (s.ctx f.ctx).part { type := 4, status := stPageFaultFatal, ctx := some f.ctx, seq := f.id }).failFault id

/-- FAULT_BATCH_FLUSH (R447): at 256 pending records, or 20 µs after the first, the batch goes to the rings. A full ring delays it. -/
def execFaultBatchFlush (s : State) : Host.Outcome State Fault Refusal :=
  if s.xlt.batch.isEmpty || (s.xlt.batch.length < 256 && !s.since s.xlt.batchStart 20) then .next s
  else
    let rs := (s.xlt.batch.take 256).map (fun r => (r, s.faultRecBytes r))
    let vf := fun (p : Nat) => rs.filter (fun r => r.1.kind ≠ 1 && r.1.parts.contains p)
    let full := fun (f n : Nat) => (s.faultRing f).log2 ≠ 0 && !(s.faultRing f).room n
    if full 0 rs.length || (List.range 16).any (fun p => full (1 + p) (vf p).length) then .next s
    else
      let s := { s with xlt := { s.xlt with batch := s.xlt.batch.drop 256, batchStart := s.refCount } }
      let (s, done) := s.batchTo 0 rs
      let s := if done then s else (rs.filter (fun r => r.1.kind = 1)).foldl (fun s r => s.loseFault r.1.faultId) s
      .next ((List.range 16).foldl (fun s p => if (s.faultRing (1 + p)).log2 = 0 then s else (s.batchTo (1 + p) (vf p)).1) s)

/-- FAULT_RING_SET (R454). -/
def execFaultRingSet (f : FnId) (slot : Fin 28) (s : State) : Host.Outcome State Fault Refusal :=
  .next (s.serve f slot 0x0405 false (fun r s =>
    let n := r.u 0 1
    checks s [((n ≠ 0 && (n < 8 || 16 < n)) || r.u 8 8 % 4096 ≠ 0 || 2 ^ 52 ≤ r.u 8 8, stBadPattern)]
      (let (s, st) := if n = 0 then (s, stOk) else s.namedThere f (r.u 8 8) (64 * 2 ^ n)
       if st ≠ stOk then refuse s st
       else .done { s with xlt := { s.xlt with rings := kput s.xlt.rings f { log2 := n, addr := r.u 8 8 } } } stOk [])))

/-- XLT_FAULT_HEAD_WRITE (R457, R574). -/
def execXltFaultHeadWrite (f : FnId) (v : BitVec 64) (s : State) : Host.Outcome State Fault Refusal :=
  let g := s.faultRing f
  let head := v.toNat % 2 ^ 32
  if !s.reach f then .next s
  else if g.unread < (head + 2 ^ 32 - g.head) % 2 ^ 32 then .next (s.logEvent 0x0B)
  else .next { s with xlt := { s.xlt with rings := kput s.xlt.rings f { g with head := head } } }

/-- XLT_STAT (R457). -/
def State.xltStat (s : State) : Nat :=
  s.xlt.dropped * 2 ^ 48 + min 256 s.xlt.batch.length * 2 ^ 32 + s.xlt.faults.length * 2 ^ 16 + s.xlt.priGroups.length

/-- XLT_STAT_READ (R457, R568, R570): DROPPED_NOTICES is cleared by a read of the half that holds it; through a virtual function the
register reads 0. -/
def execXltStatRead (f : FnId) (s : State) (half : Fin 3 := 0) : Host.Outcome State Fault Refusal :=
  if !s.reach f then .next s
  else if f ≠ 0 then .next { s with host := { s.host with reads := 0 :: s.host.reads } }
  else .next { s with host := { s.host with reads := halfOf half s.xltStat :: s.host.reads },
                      xlt := { s.xlt with dropped := if half = 1 then s.xlt.dropped else 0 } }

/-! ### Resolving faults (R443, R448) -/

/-- PRI_RESPONSE (R443): a group response arrives; the stalled accesses ask again, and a further denial opens the fault. Lines that the
host brings in may carry CXL poison (R594; log entry 9). -/
def execPriResponse (x : CtxId) (page : Nat) (grant : Option HostPage) (s : State) (poisoned : List Nat := []) : Host.Outcome State Fault Refusal :=
  let key := (x.val, page)
  if !s.xlt.priGroups.contains key then .next s
  else
    let (f, pasid) := s.requester false x
    .next { s with
      xlt := { s.xlt with priGroups := s.xlt.priGroups.erase key, priFailed := s.xlt.priFailed ++ [key] },
      host := { s.host with poison := poisoned.foldl (fun m l => kset false m l true) s.host.poison, pages := match grant with
        | none => s.host.pages
        | some h => { h with fn := f, pasid := pasid } :: s.host.pages } }

/-- FAULT_RESOLVE (R448). -/
def execFaultResolve (f : FnId) (slot : Fin 28) (s : State) : Host.Outcome State Fault Refusal :=
  .next (s.serve f slot 0x0403 true (fun r s =>
    let id := r.u 0 4
    checks s [(1 < r.u 4 1 || !s.xlt.faults.any (fun g => g.id = id), stBadPattern)]
      (if r.u 4 1 = 1 then .done (s.failFault id) stOk []
       else .done (s.closeFaults (fun g => g.id = id)) stOk [])))

/-- The last entry that a walk reads, its offset and its level; the level counts down from 2 (R434). -/
def State.lastEntry (s : State) (va : Nat) : Nat → Nat → Nat × Nat × Nat
  | l, table =>
    let a := table + 8 * (va / 2 ^ levelShift l % levelCount l)
    let e := leNat (s.devBytes a 8)
    if !bitAt e 0 || entryBad e l || bitsOf e 3 2 ≠ 0 then (e, a, l)
    else
      match l with
      | 0 => (e, a, 0)
      | l' + 1 => State.lastEntry s va l' (bitsOf e 47 8 * 256)

/-- XLT_QUERY (R454). -/
def execXltQuery (f : FnId) (slot : Fin 28) (s : State) : Host.Outcome State Fault Refusal :=
  .next (s.serve f slot 0x0406 false (fun r s =>
    let x := r.u 0 1
    let va := r.u 8 8
    let answer := fun (s : State) (e level cause addr : Nat) =>
      Reply.done s stOk (leBytes 8 e ++ leBytes 1 level ++ leBytes 1 cause ++ leBytes 6 0 ++ leBytes 8 addr)
    checks s (s.ctxChecks f x (2 ^ 52 ≤ va))
      (if apertureBase ≤ va then answer s 0 3 0 (s.pool.partId * devSize + windowBacking + x * 2 ^ 20 + (va - apertureBase))
       else
         let (e, _, l) := s.lastEntry va 2 ((s.rootOf false x).getD 0)
         match s.walk false x va with
         | (s, .error (.poison a)) =>
           .done (s.consume { event := 0, ctx := x, unit := 0x0D, addr := s.pool.partId * devSize + a }) stPoisonConsumed []
         | (s, .error (.stop c lv _)) => answer s e lv c 0
         | (s, .error (.ok _)) => answer s e l 0 0
         | (s, .ok t) =>
           answer s e l 0 (match t.host with
             | none => bitsOf t.entry 47 8 * 256 + (va - t.va)
             | some h => h.hpa + (va - h.va)))))

/-! ### Migration of a page (R439, R449) -/

/-- A page of a context that is not moved: pinned, of a step-class context, or of the save area (R439). -/
def State.pinned (s : State) (x va size entry : Nat) : Bool :=
  let c := s.ctx x
  bitAt entry 6 || !c.job || (c.saveAddr < va + size && va < c.saveAddr + (128 * c.window * 32768 + 65536))

/-- A leaf that R449 lists as a source for a direction. -/
def State.migratable (s : State) (dir e l : Nat) : Bool :=
  let kind := bitsOf e 3 2
  if dir = 0 then (bitAt e 0 && !entryBad e l && kind = 2) || (!bitAt e 0 && bitAt e 7 && (kind = 1 || kind = 2) && l < 2)
  else bitAt e 0 && !entryBad e l && kind = 1 && bitsOf e 47 8 * 256 / devSize = s.pool.partId

/-- The host translations of a page, 2 MiB at a time, with the permission a copy needs; none where ATS denies one (R437, R449). -/
def State.hostRun (s : State) (x va : Nat) (wr : Bool) : Nat → State × Option (List Nat)
  | 0 => (s, some [])
  | n + 1 =>
    match s.ats false x va with
    | (s, .error _) => (s, none)
    | (s, .ok h) =>
      if !(if wr then h.write else h.read) then (s, none)
      else
        match State.hostRun s x (va + 2 ^ 21) wr n with
        | (s, none) => (s, none)
        | (s, some l) => (s, some ((h.hpa + (va - h.va)) :: l))

/-- Copy a page between host and device memory (R449, R594): data arrives with KIND plain, CXL poison as POISON; nothing but bytes
goes to the host. -/
def State.copyPage (s : State) (dir a : Nat) (hpas : List Nat) : State :=
  ((List.range hpas.length).zip hpas).foldl (fun s (i, h) =>
    let a := a + i * 2 ^ 21
    if dir = 1 then (s.touch a (2 ^ 21)).writeHost h ((s.touch a (2 ^ 21)).devBytes a (2 ^ 21))
    else s.writeDev a (s.hostBytes h (2 ^ 21)) (fun w _ => { poison := kget false s.host.poison (h / 64 + (w - a / 64)) })) s

/-- Copy, rewrite the leaf and remove the old translation, or end with PAGE_FAULT_FATAL where ATS denies the copy (R449). -/
def State.movePage (s : State) (m : PageMove) : State :=
  let others := s.xlt.moves.filter (fun n => n.opId ≠ m.opId || n.fn ≠ m.fn)
  let e := leNat (s.devBytes m.entryAt 8)
  let fail := fun (s : State) => ({ s with xlt := { s.xlt with moves := others } } : State).opEnd (some (m.fn, m.opId)) stPageFaultFatal []
  match if m.dir = 1 && !(s.fn (1 + (s.ctx m.ctx).part)).busMaster then (s, none) else s.hostRun m.ctx m.page (m.dir = 1) (m.size / 2 ^ 21) with
  | (s, none) => fail s
  | (s, some hpas) =>
    let s := s.copyPage m.dir (if m.dir = 0 then m.offset else bitsOf e 47 8 * 256 % devSize) hpas
    let keep := e % 64 / 16 * 16
    let leaf := if m.dir = 0 then s.pool.partId * devSize + m.offset + keep + 5 else keep + 9
    let s := (s.writePlain m.entryAt (leBytes 8 leaf)).dropTlb (fun t => t.meets false m.ctx m.page (m.page + m.size - 1))
    { s with xlt := { s.xlt with moves := others ++ [{ m with drain := some s.refCount }] } }

/-- Go on with a page migration: the copy, then, once the old translation has drained, the faults and the response (R449). -/
def State.stepMove (s : State) (m : PageMove) : State :=
  match m.drain with
  | none => s.movePage m
  | some t =>
    if !s.drained false m.ctx m.page (m.page + m.size - 1) t then s
    else
      let s := ({ s with xlt := { s.xlt with moves := s.xlt.moves.filter (fun n => n.opId ≠ m.opId || n.fn ≠ m.fn) } } : State).closeFaults
        (fun g => (m.faultId ≠ 0 && g.id = m.faultId) || (g.ctx = m.ctx && g.page < m.page + m.size && m.page < g.page + g.size))
      (s.xltCount 0x60).opEnd (some (m.fn, m.opId)) stOk []

/-- PAGE_MIGRATE (R449): accepted, or, issued again, goes on with the migrations under way. -/
def execPageMigrate (f : FnId) (slot : Fin 28) (s : State) : Host.Outcome State Fault Refusal :=
  let s := if s.firmware then s.xlt.moves.foldl (fun s m => s.stepMove m) s else s
  .next (s.serve f slot 0x0404 true (fun r s =>
    let x := r.u 0 1
    let dir := r.u 1 1
    let id := r.u 4 4
    let va := r.u 8 8
    let off := r.u 16 8
    let (e, a, l) := s.lastEntry va 2 ((s.rootOf false x).getD 0)
    let size := 2 ^ levelShift l
    let page := va / size * size
    let leaf := (s.ctx x).phase ≠ 0 && s.migratable dir e l
    checks s [(1 < dir || 2 ^ 52 ≤ va || (id ≠ 0 && !s.xlt.faults.any (fun g => g.id = id)) ||
                (dir = 0 && (2 ^ 38 ≤ off || (leaf && (off % size ≠ 0 || 2 ^ 38 < off + size)))), stBadPattern),
              ((s.ctx x).phase = 0, stContextConflict)]
      (match s.walkFrom va 2 ((s.rootOf false x).getD 0) with
       | .poison b =>
         .done (s.consume { event := 0, ctx := x, unit := 0x0D, addr := s.pool.partId * devSize + b }) stPoisonConsumed []
       | _ =>
         checks s [(!leaf || s.pinned x page size e || (s.moving x va).isSome, stPageBusy)]
           (.async (fun s op =>
             { s with xlt := { s.xlt with moves := s.xlt.moves ++ [⟨f, op, x, dir, id, va, page, size, off, a, none⟩] } })))))

end Sys2Proof.Machine
end

