-- ==== Sys2Proof/Machine/Integrity.lean ====
section
/-! DEFINITION. Integrity at work (R459 to R469, R485 to R495): the second read after a selvage mismatch, the patrol scrubber, CPER
records, their log and ring, sealing and checking ranges, and the queries. -/

namespace Sys2Proof.Machine

open Sys2Proof

/-! ### The second read and the scrubber (R466 to R468) -/

/-- What the second read of a block or row slot of this part gives (R466): the fault lay in transport, or the stored block is corrupt and is
poisoned. -/
def State.rereadHere (s : State) (r : Reread) : State :=
  let s := s.touch r.addr r.size
  let bs := s.devBytes r.addr r.size
  let t := s.table (r.blockId / 2 ^ 48)
  let off := if r.isRow then t.tagOff r.tier else r.size
  let computed := selvage (bs.take off) r.blockId
  let first := s.cwMeta r.addr
  let stored := if r.isRow then fieldAt bs off 4
    else if r.size = 64 then first.frag
    else first.frag * 2 ^ 16 + (s.cwMeta (r.addr + r.size - 64)).frag
  let good := if r.isRow then
      stored = computed && !s.poisoned r.addr r.size &&
        (codewords r.addr r.size).all (fun w => (s.lineMeta w).kind = 2 && (s.lineMeta w).tier = r.tier)
    else s.checkBlock r.addr r.size r.blockId = 0
  let e : RasEvent := { event := if good then 0x0010 else 0x0011, severity := if good then 2 else 0, status := stSelvageMismatch,
                        cls := if good then 1 else 3, unit := 0x09, addr := s.pool.partId * devSize + r.addr, blockId := r.blockId,
                        expected := stored, observed := if r.size = 64 && !r.isRow then (computed >>> 16) ^^^ (computed % 65536) else computed,
                        queue := r.queue, seq := r.seq }
  (if good then s else s.poisonRange r.addr r.size).raise e

/-- The access by which the part reads a block of another part again (log entry 19). -/
def rereadWho : Who := { core := 130, isFn := true, ctx := 0 }

/-- Read a block of another part again (R466); one that is corrupt is written back with POISON set (log entry 35). -/
def rereadFar (r : Reread) : CM Unit := do
  let n := r.size / 64
  let ws ← (List.range n).mapM (fun i => poolLine rereadWho (r.addr + 64 * i) (r.size - 64 * i))
  let good := checkWords ws r.blockId = 0
  modify (fun s => (s.updCore rereadWho.core (·.endAccess 0)).raise
    { event := if good then 0x0010 else 0x0011, severity := if good then 2 else 0, status := stSelvageMismatch,
      cls := if good then 1 else 3, unit := 0x08, addr := r.addr, blockId := r.blockId, queue := r.queue, seq := r.seq })
  if !good then writeWords rereadWho (.dev r.addr) (ws.map (fun w => { w with poison := true }))

/-- Read the first block or row whose check failed again from storage. -/
def State.rereadNext (s : State) (r : Reread) : State :=
  let done : State := { s with rereads := s.rereads.erase r }
  if !r.far then done.rereadHere r
  else if r.isRow then
    let t := r.blockId / 2 ^ 48
    let row := r.blockId % 2 ^ 40
    let e : XchgEntry := { table := t, row := row, gen := (s.table t).gen, core := rereadCore, gid := 0, entry := 0, cmd := 0 }
    let b : Batch := { owner := (s.lookupTarget 0 t row r.epoch).1, part := 16, epoch := r.epoch, prefetch := false, redirected := false,
                       entries := [e], opened := s.refCount, timeout := max 1 (s.exch 0).replyTimeout }
    (({ done with rereads := { r with asked := true } :: done.rereads } : State).sendBatch 0 b true).getD s
  else
    match (rereadFar r).run s with
    | (.ok _, t) => { t with rereads := t.rereads.erase r }
    | (.error .wait, t) => t
    | (.error (.fail _), t) => { t.updCore rereadWho.core (fun k => { k.endAccess 0 with rfail := 0 }) with rereads := t.rereads.erase r }

/-- SELVAGE_REREAD (R466): the first block that waits for it is read again from storage. -/
def execSelvageReread (s : State) : Host.Outcome State Fault Refusal :=
  match s.rereads.find? (fun r => !r.asked) with
  | none => .next s
  | some r => .next (s.rereadNext r)

/-- PATROL_SCRUB (R468): one codeword is read, with as many wrong symbols as the row says (log entry 15). -/
def execPatrolScrub (cw : BitVec 32) (errs : Nat) (s : State) : Host.Outcome State Fault Refusal :=
  .next ((s.placeErrs (64 * cw.toNat) errs).readCodeword cw.toNat)

/-! ### CPER records (R485 to R488) -/

/-- A GUID in the byte order of a CPER header (log entry 31). -/
def guid (a b c d : Nat) : List Byte := leBytes 4 a ++ leBytes 2 b ++ leBytes 2 c ++ (leBytes 8 d).reverse

/-- "SVZ5-M1200 A1" in 20 bytes. -/
def fruText : List Byte :=
  [0x53, 0x56, 0x5A, 0x35, 0x2D, 0x4D, 0x31, 0x32, 0x30, 0x30, 0x20, 0x41, 0x31] ++ List.replicate 7 0

/-- The record header and section descriptor (R485; field offsets of the UEFI record, log entry 31). -/
def cperHeader (severity recordId : Nat) : List Byte :=
  [0x43, 0x50, 0x45, 0x52] ++ leBytes 2 0x0101 ++ leBytes 4 0xFFFFFFFF ++ leBytes 2 1 ++ leBytes 4 severity ++ leBytes 4 0 ++
    leBytes 4 328 ++ leBytes 40 0 ++
    guid 0xB81D4C2E 0x5A07 0x4E93 0x8F6BC42A19D7E085 ++ guid 0x7E3A51C9 0x0D84 0x4B26 0xA1F75C09E2D8B143 ++
    leBytes 8 recordId ++ leBytes 24 0 ++
    leBytes 4 200 ++ leBytes 4 128 ++ leBytes 2 0x0100 ++ leBytes 1 2 ++ leBytes 1 0 ++ leBytes 4 1 ++
    guid 0x3F6C1E8A 0x92D4 0x4B7E 0xA5C17D20E9B4F356 ++ leBytes 16 0 ++ leBytes 4 severity ++ fruText

/-- The vendor section (R486). -/
def RasEvent.vendor (e : RasEvent) (partId count fw : Nat) : List Byte :=
  let bs := leBytes 2 1 ++ leBytes 2 e.event ++ leBytes 2 e.status ++ leBytes 1 e.cls ++ leBytes 1 e.unit ++ leBytes 2 partId ++
    leBytes 1 e.core ++ leBytes 1 e.cluster ++ leBytes 1 e.port ++ leBytes 1 e.partition ++ leBytes 2 e.ctx ++ leBytes 8 e.time ++
    leBytes 8 e.addr ++ leBytes 8 e.blockId ++ leBytes 4 e.expected ++ leBytes 4 e.observed ++ leBytes 2 e.queue ++ leBytes 6 e.seq ++
    leBytes 4 count ++ leBytes 4 fw ++ leBytes 8 e.seed ++ (e.detail ++ List.replicate 48 0).take 48 ++ leBytes 4 0
  bs ++ leBytes 4 (crc32c bs)

/-- Version of the running CP image. -/
def State.cpVersion (s : State) : Nat := (kget {} s.service.images (2 + kget 0 s.service.running 1)).version

/-- Offset of a CPER record in the on-device log (R545; slot order in log entry 30). -/
def cperSlot (seq : Nat) : Nat := 0x3FEE000000 + 512 * ((seq - 1) % 4096)

/-- Oldest record of the log. -/
def Ras.oldest (r : Ras) : Nat := max 1 (r.nextSeq - 4096)

/-- The 328 bytes of a record of the log. -/
def State.cperAt (s : State) (seq : Nat) : List Byte := s.devBytes (cperSlot seq) 328

/-- Records in the ring that are not consumed (R488). -/
def Ras.unread (r : Ras) : Nat := (r.copied % 2 ^ 32 + 2 ^ 32 - r.head) % 2 ^ 32

/-- Copy records to the ring in order while it has room, at most `n`, and raise the RAS vector (R487, R488). -/
def State.copyCper : Nat → State → State
  | 0, s => s
  | n + 1, s =>
    let r := s.ras
    if r.ringLog2 = 0 || r.nextSeq ≤ r.nextCopy || 2 ^ r.ringLog2 ≤ r.unread then s
    else
      match s.ringWrite 0 (r.ringAddr + 512 * (r.copied % 2 ^ r.ringLog2)) (s.cperAt r.nextCopy) with
      | (s, false) => s
      | (s, true) =>
        State.copyCper n (({ s with ras := { s.ras with copied := r.copied + 1, nextCopy := r.nextCopy + 1 } } : State).irq 0 2 3)

/-- Append a record to the log; one that it overwrites uncopied is lost to the ring (R487, R488). -/
def State.writeCper (s : State) (e : RasEvent) (count : Nat) : State :=
  let n := s.ras.nextSeq
  let bs := cperHeader e.severity (s.pool.partId * 2 ^ 54 + n) ++ e.vendor s.pool.partId count s.cpVersion
  let s := (s.writePlain (cperSlot n) (bs ++ List.replicate 184 0)).rasCount 0x268 1
  let lost := s.ras.ringLog2 ≠ 0 && s.ras.nextCopy + 4096 ≤ n
  let s := if lost then s.rasCount 0x278 1 else s
  let s := { s with ras := { s.ras with nextSeq := n + 1, nextCopy := if lost then s.ras.nextCopy + 1 else s.ras.nextCopy } }
  State.copyCper 1 s

/-- CPER_RECORD (R487): the oldest event is written, or folded into the COUNT of the next record of its event and unit. -/
def execCperRecord (s : State) : Host.Outcome State Fault Refusal :=
  match s.ras.events with
  | [] => .next s
  | e :: rest =>
    if !s.firmware then .next s
    else
      let s := { s with ras := { s.ras with events := rest } }
      let key := e.event * 256 + e.unit
      let more := fieldAt e.detail 0 4
      match kfind s.ras.supp key with
      | some u =>
        if !s.since u.last 1000000 then
          .next (({ s with ras := { s.ras with supp := kput s.ras.supp key { u with count := u.count + 1, entries := u.entries + more } } }
            : State).rasCount 0x270 1)
        else
          let e := if e.event = 0x0030 && u.entries + more ≠ 0 then { e with detail := leBytes 4 (u.entries + more) } else e
          .next (({ s with ras := { s.ras with supp := kput s.ras.supp key ⟨s.refCount, 0, 0⟩ } } : State).writeCper e (u.count + 1))
      | none => .next (({ s with ras := { s.ras with supp := kput s.ras.supp key ⟨s.refCount, 0, 0⟩ } } : State).writeCper e 1)

/-- CPER_RING_SET (R488, R490). -/
def execCperRingSet (f : FnId) (slot : Fin 28) (s : State) : Host.Outcome State Fault Refusal :=
  .next (s.serve f slot 0x0707 true (fun r s =>
    let n := r.u 0 1
    checks s [((n ≠ 0 && (n < 4 || 12 < n)) || r.u 8 8 % 4096 ≠ 0 || 2 ^ 52 < r.u 8 8 + 512 * 2 ^ n, stBadPattern)]
      (.done { s with ras := { s.ras with ringLog2 := n, ringAddr := r.u 8 8, copied := 0, head := 0, nextCopy := s.ras.nextSeq } }
        stOk [])))

/-- CPER_READ (R490, R491). -/
def execCperRead (f : FnId) (slot : Fin 28) (s : State) : Host.Outcome State Fault Refusal :=
  .next (s.serve f slot 0x0708 true (fun r s =>
    let n := r.u 0 8
    checks s [(n < s.ras.oldest || s.ras.nextSeq ≤ n || 2 ^ 52 ≤ r.u 8 8, stBadPattern)]
      (cpRun s (writeCp (cpWho f) (f, slot) (r.u 8 8) (s.cperAt n)) (fun s _ =>
        .done s stOk (leBytes 8 s.ras.oldest ++ leBytes 8 s.ras.nextSeq)))))

/-- RAS_CPER_HEAD_WRITE (R488, R571, R574): records held for the ring are copied as HEAD advances. -/
def execRasCperHeadWrite (f : FnId) (v : BitVec 64) (s : State) : Host.Outcome State Fault Refusal :=
  let head := v.toNat % 2 ^ 32
  if !s.reach f then .next s
  else if f ≠ 0 || s.ras.unread < (head + 2 ^ 32 - s.ras.head) % 2 ^ 32 then .next (s.logEvent 0x0B)
  else .next (State.copyCper 4096 { s with ras := { s.ras with head := head } })

/-! ### Queries (R473, R474, R490) -/

/-- STATE of a core: a microcode update shows as UPDATING (R474, R554). -/
def State.coreState (s : State) (c : Nat) : Nat :=
  if s.service.rollouts.any (fun r => r.kind = 2 && r.taken.contains c) then 5 else (s.rasOf c).state

/-- A fenced core. -/
def State.fenced (s : State) (c : Nat) : Bool := (s.rasOf c).state = 4

/-- TRANSIENT classifications of the last 24 h (R473). -/
def State.recent (s : State) (c : Nat) : List Nat := (s.rasOf c).transients.filter (fun t => !s.since t 86400000000)

/-- When a core's next test is due (R480, R544). -/
def State.dueAt (s : State) (c : Nat) : Nat :=
  (s.rasOf c).lastTest.getD s.ras.vigilBase + s.ras.periodH * 3600000000 * ticksPerUs

/-- RAS_QUERY. -/
def execRasQuery (f : FnId) (slot : Fin 28) (s : State) : Host.Outcome State Fault Refusal :=
  .next (s.serve f slot 0x0701 true (fun _ s =>
    let n := fun (off : Nat) => leBytes 8 (kget 0 s.ras.counters off)
    .done s stOk (n 0x200 ++ n 0x208 ++ n 0x220 ++ n 0x228 ++ n 0x230 ++ n 0x238 ++
      leBytes 16 (bitMask ((List.range 128).filter s.fenced)))))

/-- CORE_QUERY. -/
def execCoreQuery (f : FnId) (slot : Fin 28) (s : State) : Host.Outcome State Fault Refusal :=
  .next (s.serve f slot 0x0702 false (fun r s =>
    let c := r.u 0 1
    let k := s.rasOf c
    checks s [(f ≠ 0 && !(s.part (f - 1)).mask.testBit c, stProtection), (128 ≤ c, stBadPattern)]
      (.done s stOk (leBytes 1 (s.coreState c) ++ leBytes 1 k.lastClass ++ leBytes 2 (s.recent c).length ++ leBytes 4 0 ++
        leBytes 8 (k.lastTest.getD 0) ++ leBytes 8 (s.dueAt c) ++ leBytes 8 k.samples ++ leBytes 8 k.skipped))))

/-! ### Sealing and checking (R490, R491, R594) -/

/-- The access of SELVAGE_SEAL; it has a read buffer of its own. -/
def sealWho (x : Nat) : Who := { core := 129, ctx := x }

/-- Refusals that SELVAGE_SEAL and SELVAGE_CHECK share. -/
def State.sealChecks (s : State) (r : Req) : List (Bool × Nat) :=
  let n := r.u 1 1
  let size := 2 ^ n
  s.ctxChecks r.fn (r.u 0 1) (n < 6 || 16 < n || r.u 8 8 % size ≠ 0 || r.u 16 8 % size ≠ 0 || 2 ^ 52 < r.u 8 8 + r.u 16 8)

/-- Block id of the block at `va` of a range: the default, or counted on from an explicit one, as COPY counts (R338, R463). -/
def rangeId (x first size id va : Nat) : Nat := if id = 0 then blockIdOf x va else (id + (va - first) / size) % 2 ^ 64

/-- Every page of a range is translated, and none through a host leaf; answers the first failing test's status. -/
def State.sealPages (s : State) (x va len : Nat) : Nat :=
  (List.range (cdiv (va % 2 ^ 25 + len) (2 ^ 25))).foldl (fun st i =>
    if st ≠ 0 then st
    else
      match s.walk false x (max va (va / 2 ^ 25 * 2 ^ 25 + i * 2 ^ 25)) with
      | (_, .ok e) => if e.host.isSome then stBadPattern else if !bitAt e.entry 4 || !bitAt e.entry 5 then stPageFaultFatal else 0
      | (_, .error (.stop _ 3 _)) => stBadPattern
      | (_, .error (.poison _)) => stPoisonConsumed
      | (_, .error _) => stPageFaultFatal) 0

/-- Seal one block (R463, R490): poison and rounding flags stay. -/
def sealBlock (o : SealOp) : CM Unit := do
  let w := { sealWho o.ctx with va := o.next }
  if !o.sent then
    let p ← place w o.next true false
    let xs ← readLines w false o.next (o.size / 64)
    let ws := xs.map (·.1)
    let new := (blockWords (ws.flatMap (·.data)) (rangeId o.ctx o.first o.size o.blockId o.next) (fun _ => false)).zip ws
    match p with
    | .host _ => throw (.fail stBadPattern)
    | .dev _ => writeWords w p (new.map (fun e => { e.1 with poison := e.2.poison, ties := e.2.ties }))
    modify (fun s => { s with ras := { s.ras with seals := s.ras.seals.map (fun q => if q = o then { o with sent := true } else q) } })
  let k := (← get).core 129
  if k.rfail ≠ 0 then throw (.fail k.rfail)
  else if k.wpend ≠ 0 then throw .wait
  else modify (fun s => { s.updCore 129 (fun k => { k with rbuf := [], rpend := [] }) with ras := { s.ras with
    seals := s.ras.seals.map (fun q => if q.fn = o.fn && q.opId = o.opId then { q with next := o.next + o.size, sent := false } else q) } })

/-- Go on with the oldest SELVAGE_SEAL, block by block. -/
def State.sealOn : Nat → State → State
  | 0, s => s
  | n + 1, s =>
    match s.ras.seals with
    | [] => s
    | o :: rest =>
      let finish := fun (s : State) (st : Nat) =>
        ({ s.updCore 129 (fun k => { k with rbuf := [], rpend := [], rfail := 0, wpend := 0, wqueue := [] }) with
            ras := { s.ras with seals := rest } } : State).opEnd (some (o.fn, o.opId)) st []
      if o.last ≤ o.next then State.sealOn n (finish s stOk)
      else
        match (sealBlock o).run s with
        | (.ok _, s) => State.sealOn n s
        | (.error .wait, s) => s
        | (.error (.fail st), s) => finish s st

/-- Blocks that are still to be sealed, with one more turn for each operation. -/
def Ras.sealFuel (r : Ras) : Nat := r.seals.foldl (fun n o => n + (o.last - o.next) / o.size + 2) 1

/-- SELVAGE_SEAL (R490): accepted, or, issued again, goes on with the ranges being sealed. -/
def execSelvageSeal (f : FnId) (slot : Fin 28) (s : State) : Host.Outcome State Fault Refusal :=
  let s := if s.firmware then State.sealOn s.ras.sealFuel s else s
  .next (s.serve f slot 0x0709 false (fun r s =>
    let x := r.u 0 1
    let va := r.u 8 8
    let len := r.u 16 8
    checks s (s.sealChecks r)
      (let st := s.sealPages x va len
       if st ≠ 0 then refuse s st
       else .async (fun s id =>
         let o : SealOp := { fn := f, opId := id, ctx := x, first := va, next := va, last := va + len, size := 2 ^ r.u 1 1, blockId := r.u 24 8 }
         { s with ras := { s.ras with seals := s.ras.seals ++ [o] } }))))

/-- Check blocks in order up to the first that does not pass: its result and address (R490, R594). -/
def checkRange (w : Who) (first size id : Nat) : Nat → Nat → CM (Nat × Nat)
  | _, 0 => return (0, 0)
  | va, n + 1 => do
    let xs ← readLines w false va (size / 64)
    let ws := xs.map (·.1)
    let res := if xs.any (·.2) then 3 else checkWords ws (rangeId w.ctx first size id va)
    if res ≠ 0 then return (res, va) else checkRange w first size id (va + size) n

/-- SELVAGE_CHECK (R490). -/
def execSelvageCheck (f : FnId) (slot : Fin 28) (s : State) : Host.Outcome State Fault Refusal :=
  .next (s.serve f slot 0x070A false (fun r s =>
    let size := 2 ^ r.u 1 1
    checks s (s.sealChecks r)
      (cpRun s (checkRange { ctx := r.u 0 1 } (r.u 8 8) size (r.u 24 8) (r.u 8 8) (r.u 16 8 / size)) (fun s e =>
        .done s stOk (leBytes 1 e.1 ++ leBytes 7 0 ++ leBytes 8 e.2)))))

end Sys2Proof.Machine
end

