-- ==== Sys2Proof/Machine/Vigil.lean ====
section
/-! DEFINITION. Core states (R471 to R476), classification of arithmetic faults (R472, R473), Vigil (R477 to R484) and shadow
samples (R482). -/

namespace Sys2Proof.Machine

open Sys2Proof

/-! ### Fencing (R475, R476) -/

/-- Partition whose current mask holds a core. -/
def State.partOf (s : State) (c : Nat) : Option Nat := leastBelow 16 (fun p => (s.part p).mask.testBit c)

/-- The CPER event of a core. -/
def State.coreEvent (s : State) (c event severity cls status unit : Nat) : RasEvent :=
  { event := event, severity := severity, status := status, cls := cls, unit := unit, core := c, cluster := clusterOf c,
    partition := (s.partOf c).getD 0xFF }

/-- Decide to fence a core (R475): it leaves every available count, and CORE_FENCED stops it. -/
def State.decideFence (s : State) (c cls : Nat) : State :=
  s.updRas c (fun r => { r with fenceStart := some (r.fenceStart.getD s.refCount), fenceClass := max r.fenceClass cls })

/-- Put a core back after a test that gave no result: it is due again (R479); one that waits for its test, an UNRESOLVED one among them
(R472), waits on. -/
def State.backToWaiting (s : State) (c : Nat) : State :=
  let r := s.rasOf c
  if r.state = 1 || r.unfence.isSome || (r.state = 2 && r.lastClass = 4) then
    { s with ras := { s.ras with waiting := s.ras.waiting ++ [c] } }
  else s.updRas c (fun r => { r with state := 0, overdue := false })

/-- Cores of a test. -/
def VigilTest.cores (t : VigilTest) : List Nat :=
  [t.coreA, t.coreB] ++ (match t.third with | some d => [d] | none => [])

/-- End every test that holds a core, and put its other cores back. -/
def State.dropTests (s : State) (c : Nat) : State :=
  let hit := s.ras.tests.filter (fun t => t.cores.contains c)
  let s := { s with ras := { s.ras with tests := s.ras.tests.filter (fun t => !t.cores.contains c), waiting := s.ras.waiting.filter (· ≠ c) } }
  hit.foldl (fun s t => (t.cores.filter (· ≠ c)).foldl State.backToWaiting s) s

/-- Free a capture slot. -/
def State.freeCapture (s : State) (i : Option Nat) : State :=
  match i with
  | none => s
  | some i => { s with ras := { s.ras with captures := kdel s.ras.captures i } }

/-- Withdraw what a core has with the exchange units and the Bobbin slices (R475): late replies find nothing to answer (R167). -/
def State.abandonCore (s : State) (c : Nat) : State :=
  let mine := fun (e : XchgEntry) => e.core = c && !e.prefetch && !e.isForward
  let cut := fun (l : List Batch) =>
    (l.map (fun b => { b with entries := b.entries.filter (fun e => !mine e) })).filter (fun b => !b.entries.isEmpty)
  let k := clusterOf c
  let s := s.updExch k (fun x => { x with openB := cut x.openB, closed := cut x.closed, round := cut x.round })
  let gone := ((s.exch k).slots.filter (fun o => o.2.core = c && (o.2.kind = 1 || o.2.kind = 2 || o.2.kind = 3))).map (·.1)
  let s := gone.foldl (fun s i => s.freeOut k i) s
  s.updSlice k (fun sl => { sl with misses := (sl.misses.map (fun m =>
    { m with waiters := m.waiters.filter (fun w => !(w.kind = 0 && w.core = c)) })).filter (fun m => !m.waiters.isEmpty) })

/-- Fence a core (R475): its work stops and ends, its windows are lost, what held it is released, and the requests are answered. -/
def State.fenceCore (s : State) (c : Nat) : State :=
  let r := s.rasOf c
  let s := s.failCore c stCoreFenced
  let s := s.withdraw (fun a => a.isLocal && a.core = c) (fun k => k % 128 = c) false
  let s := (s.abandonCore c).dropAccesses (fun a => a.core = c)
  let s := ({ s with flows := s.flows.filter (fun f => f.src ≠ c && f.dst ≠ c) } : State).updCore c (fun k =>
    { k.stop with scratch := [], sflags := [] })
  let s := s.dropTests c
  let s := (s.ras.shadows.filter (fun h => h.1 = c || h.2.2 = c)).foldl (fun s h => s.freeCapture (some h.2.1)) s
  let s := (s.ras.classify.filter (fun g => g.core = c)).foldl (fun s g => s.freeCapture g.capture) s
  let s := { s with ras := { s.ras with
    shadows := s.ras.shadows.filter (fun h => !(h.1 = c || h.2.2 = c)),
    classify := (s.ras.classify.filter (fun (g : Classify) => g.core ≠ c)).map (fun (g : Classify) =>
      if g.neighbour = some c then { g with neighbour := none } else g) } }
  let s := (r.fenceOps ++ r.fenceWait).foldl (fun s o => s.opEnd (some o) stOk []) s
  (s.updRas c (fun r => { r with
    state := 4, lastClass := if r.fenceClass = 0 then r.lastClass else r.fenceClass, fenceStart := none, fenceOps := [], fenceWait := [],
    fenceClass := 0, isDue := false })).settle

/-- CORE_FENCED (R475): a core whose fencing has been decided, or that MODE 1 named and that has come to its boundary, is fenced. -/
def execCoreFenced (c : CoreId) (s : State) : Host.Outcome State Fault Refusal :=
  let r := s.rasOf c
  if r.state ≠ 4 && (r.fenceStart.isSome || (!r.fenceWait.isEmpty && (s.core c).cmd.isNone)) then .next (s.fenceCore c) else .next s

/-- CORE_FENCE (R474, R475, R490). -/
def execCoreFence (f : FnId) (slot : Fin 28) (s : State) : Host.Outcome State Fault Refusal :=
  .next (s.serve f slot 0x0703 true (fun r s =>
    let c := r.u 0 1
    checks s [(128 ≤ c || 1 < r.u 1 1, stBadPattern), (s.fenced c, stCoreConflict)]
      (.async (fun s id =>
        let s := s.raise (s.coreEvent c 0x0024 3 0 0 0x0D)
        if r.u 1 1 = 0 then (s.decideFence c 0).updRas c (fun k => { k with fenceOps := k.fenceOps ++ [(f.val, id)] })
        else s.updRas c (fun k => { k with fenceWait := k.fenceWait ++ [(f.val, id)] })))))

/-! ### Tests (R477 to R481) -/

/-- A new 64-bit seed, which the CP chooses (R477; log entry 6). -/
def State.seed (s : State) : State × Nat :=
  let (s, d) := s.draw
  (s, Config.freeValue 2 d % 2 ^ 64)

/-- The part has been paced within PACE_QUIET (R480). -/
def State.pacedLately (s : State) : Bool :=
  match s.power.lastPaced with
  | none => false
  | some t => !s.since t (s.ras.paceQuietMs * 1000)

/-- A held core's test may start: not within PACE_QUIET, unless the core was OVERDUE or is unassigned (R480). -/
def State.mayStart (s : State) (c : Nat) : Bool := !s.pacedLately || (s.rasOf c).overdue || (s.partOf c).isNone

/-- Two waiting cores of one RESULT_CLASS, of which one's test may start (R477, R480, R555). -/
def State.testPair (s : State) : Option (Nat × Nat) :=
  s.ras.waiting.findSome? (fun c =>
    (s.ras.waiting.find? (fun d => d ≠ c && s.resultClass d = s.resultClass c && (s.mayStart c || s.mayStart d))).map (fun d => (c, d)))

/-- A test begins on a pair that waits; with ENABLE 0 no new test starts (R490). -/
def State.startTest (s : State) : State :=
  match if s.ras.vigilEnable then s.testPair else none with
  | none => s
  | some (c, d) =>
    let (s, seed) := s.seed
    { s with ras := { s.ras with
      waiting := s.ras.waiting.filter (fun e => e ≠ c && e ≠ d),
      tests := s.ras.tests ++ [{ coreA := min c d, coreB := max c d, seed := seed, start := s.refCount }] } }

/-- Hold a core for a test: with a partner of its RESULT_CLASS that waits, the test begins where it may (R477, R480, R490, R555). -/
def State.holdForTest (s : State) (c : Nat) : State :=
  ({ s with ras := { s.ras with waiting := if s.ras.waiting.contains c then s.ras.waiting else s.ras.waiting ++ [c] } } : State).startTest

/-- CORE_UNFENCE (R474, R490): the core waits for a full test. -/
def execCoreUnfence (f : FnId) (slot : Fin 28) (s : State) : Host.Outcome State Fault Refusal :=
  .next (s.serve f slot 0x0704 true (fun r s =>
    let c := r.u 0 1
    checks s [(128 ≤ c, stBadPattern), (!s.fenced c || (s.rasOf c).unfence.isSome, stCoreConflict)]
      (.async (fun s id => (s.updRas c (fun k => { k with unfence := some (f.val, id) })).holdForTest c))))

/-- VIGIL_CONFIG (R480, R490). -/
def execVigilConfig (f : FnId) (slot : Fin 28) (s : State) : Host.Outcome State Fault Refusal :=
  .next (s.serve f slot 0x0705 true (fun r s =>
    checks s [(1 < r.u 0 1 || 8 < r.u 1 1 || r.u 4 4 = 0 || 168 < r.u 4 4 || r.u 8 4 < 60 || 86400 < r.u 8 4 || 10000 < r.u 12 4,
               stBadPattern)]
      (.done { s with ras := { s.ras with vigilEnable := r.u 0 1 = 1, maxHeld := r.u 1 1, periodH := r.u 4 4, deferralS := r.u 8 4,
                                          paceQuietMs := r.u 12 4 } } stOk [])))

/-- VIGIL_WINDOW (R480, R490). -/
def execVigilWindow (f : FnId) (slot : Fin 28) (s : State) : Host.Outcome State Fault Refusal :=
  .next (s.serve f slot 0x0706 true (fun r s =>
    let p := r.u 0 1
    checks s [(16 ≤ p || 16 < r.u 1 1 || r.u 4 4 = 0 || 86400 < r.u 4 4, stBadPattern)]
      (.done { s with ras := { s.ras with
        windows := kput s.ras.windows p (r.u 1 1, s.refCount + r.u 4 4 * 1000000 * ticksPerUs) } } stOk [])))

/-- VIGIL_WINDOW_EXPIRY (R480). -/
def execVigilWindowExpiry (p : PartId) (s : State) : Host.Outcome State Fault Refusal :=
  match kfind s.ras.windows p with
  | none => .next s
  | some (_, t) => if t ≤ s.refCount then .next { s with ras := { s.ras with windows := kdel s.ras.windows p } } else .next s

/-- VIGIL_DUE (R480, R544): the core is due since PERIOD after its last test. -/
def execVigilDue (c : CoreId) (s : State) : Host.Outcome State Fault Refusal :=
  let r := s.rasOf c
  if !s.fullService || r.isDue || r.state = 4 || r.state = 2 || s.refCount < s.dueAt c then .next s
  else .next (s.updRas c (fun r => { r with isDue := true, dueSince := s.dueAt c }))

/-- Cores of a partition that Vigil holds. -/
def State.heldIn (s : State) (p : Nat) : Nat :=
  ((List.range 128).filter (fun c => (s.part p).mask.testBit c && (s.rasOf c).state = 2)).length

/-- Limit of held cores of a partition: MAX_HELD, raised by a window (R480). -/
def State.heldLimit (s : State) (p : Nat) : Nat :=
  match kfind s.ras.windows p with
  | none => s.ras.maxHeld
  | some (h, _) => max h s.ras.maxHeld

/-- A core that Vigil could take now: idle, at a step boundary or a job's end, and within the limits (R480, R481). -/
def State.takeable (s : State) (c : Nat) : Bool :=
  s.inService c && !s.borrowed c && (s.core c).cmd.isNone &&
    (match s.partOf c with
     | none => true
     | some p => s.heldIn p < s.heldLimit p && (!s.pacedLately || (s.rasOf c).state = 3))

/-- A suspect core (R473). DESIGN CHOICE: it stays suspect until it has passed a test, for R473 names no end (log entry 35). -/
def State.suspect (s : State) (c : Nat) : Bool := (s.rasOf c).suspect

/-- The core that Vigil takes next: OVERDUE ones first, of each kind suspect ones first, then in order of due time (R473, R480, R481). -/
def State.nextTaken (s : State) : Option Nat :=
  let l := (List.range 128).filter (fun c => (s.rasOf c).isDue && s.takeable c)
  let key := fun (c : Nat) => (2 * b2n ((s.rasOf c).state ≠ 3) + b2n (!s.suspect c)) * 2 ^ 70 + (s.rasOf c).dueSince
  (sortBy key l).head?

/-- Take a core into VIGIL. -/
def State.takeCore (s : State) (c : Nat) : State :=
  (s.updRas c (fun r => { r with state := 2, overdue := r.state = 3, matrixCount := 0 })).holdForTest c

/-- VIGIL_TAKE (R481): the next due core, or, where none is, a partner for a core that waits (log entry 8); else a test that was held
back starts once it may (R480, R490). -/
def execVigilTake (c : CoreId) (s : State) : Host.Outcome State Fault Refusal :=
  if !s.fullService || !s.firmware || !s.ras.vigilEnable then .next s
  else
    match s.nextTaken with
    | some d => if d = c.val then .next (s.takeCore c) else .next s
    | none =>
      if s.takeable c && s.ras.waiting.any (fun d => s.resultClass d = s.resultClass c) then .next (s.takeCore c) else .next s.startTest

/-- VIGIL_OVERDUE (R474, R481). -/
def execVigilOverdue (c : CoreId) (s : State) : Host.Outcome State Fault Refusal :=
  let r := s.rasOf c
  if r.state ≠ 0 || !r.isDue || !s.ras.vigilEnable || !s.since r.dueSince (s.ras.deferralS * 1000000) then .next s
  else .next ((s.updRas c (fun r => { r with state := 3, matrixCount := 0 })).raise (s.coreEvent c 0x0042 3 0 0 0))

/-- A TRANSIENT classification (R473). -/
def State.noteTransient (s : State) (c event unit : Nat) : State :=
  (s.updRas c (fun r => { r with lastClass := 1, transients := s.refCount :: s.recent c,
                                 suspect := r.suspect || 2 ≤ (s.recent c).length })).raise (s.coreEvent c event 2 1 0 unit)

/-- The latest mismatch of a core is TRANSIENT: the event names its unit (R470, R473, R489). -/
def State.faultTransient (s : State) (c : Nat) : State :=
  s.noteTransient c (if (s.rasOf c).faultLock then 0x0022 else 0x0020) (s.rasOf c).faultUnit

/-- A core returns to service with zeroed windows after CORE_UNFENCE (R474, R476); no tally is cleared (R409). -/
def State.unfenced (s : State) (c : Nat) : State :=
  let op := (s.rasOf c).unfence
  let s := match s.partOf c with | none => s | some p => s.zeroWindows c p
  (s.updRas c (fun r => { r with state := 0, unfence := none })).opEnd op stOk []

/-- A core has passed a full test (R474). -/
def State.testPassed (s : State) (c : Nat) : State :=
  let r := s.rasOf c
  let s := s.updRas c (fun r => { r with lastTest := some s.refCount, isDue := false, suspect := false, overdue := false })
  if r.unfence.isSome then s.unfenced c
  else if r.state = 1 then (s.faultTransient c).updRas c (fun r => { r with state := 0 })
  else s.updRas c (fun r => { r with state := 0 })

/-- A core has failed a test (R484, R491). Where the test stands in for a repeat, the records name the unit that disagreed (R470, R471). -/
def State.testFailed (s : State) (c : Nat) (t : VigilTest) (expected observed : Nat) : State :=
  let k := s.rasOf c
  let (unit, status) : Nat × Nat :=
    if k.state = 1 || (k.state = 2 && k.lastClass = 4) then (k.faultUnit, if k.faultLock then stLockstepMismatch else stResidueMismatch)
    else (0, 0)
  let e := { s.coreEvent c 0x0040 0 2 status unit with expected := expected, observed := observed, seed := t.seed, detail := leBytes 1 t.phase }
  let r := s.rasOf c
  let s := (s.raise e).rasCount 0x250 1
  match r.unfence with
  | some op => (s.updRas c (fun r => { r with unfence := none, lastClass := 2 })).opEnd (some op) stVigilFailed []
  | none => (s.raise (s.coreEvent c 0x0021 0 2 status unit)).decideFence c 2

/-- Replace a test by its core A. -/
def State.setTest (s : State) (t : VigilTest) : State :=
  { s with ras := { s.ras with tests := s.ras.tests.map (fun u => if u.coreA = t.coreA then t else u) } }

/-- Release a third core that was brought in for one phase. -/
def State.releaseThird (s : State) (t : VigilTest) : State :=
  match t.third with
  | none => s
  | some d => s.backToWaiting d

/-- A phase has passed: the next begins, or the test has ended (R477). -/
def State.phasePassed (s : State) (t : VigilTest) : State :=
  let s := if t.three then s else s.releaseThird t
  let t := if t.three then t else { t with third := none, retry := none }
  if t.phase < 6 then s.setTest { t with phase := t.phase + 1, retry := none }
  else
    let s := { s with ras := { s.ras with tests := s.ras.tests.filter (fun u => u.coreA ≠ t.coreA) } }
    (t.cores.foldl State.testPassed s).rasCount 0x248 1

/-- A third core for a phase: one that waits, else one that could be taken (R478, R555). -/
def State.thirdCore (s : State) (t : VigilTest) : Option Nat :=
  let ok := fun (c : Nat) => s.resultClass c = s.resultClass t.coreA
  (s.ras.waiting.find? ok).or ((List.range 128).find? (fun c => ok c && s.takeable c))

/-- A core fails the test; the others wait for a new partner, for they have not ended theirs (R478, log entry 8). -/
def State.failTest (s : State) (t : VigilTest) (c expected observed : Nat) : State :=
  let s := { s with ras := { s.ras with tests := s.ras.tests.filter (fun u => u.coreA ≠ t.coreA) } }
  let s := (s.testFailed c t expected observed).rasCount 0x248 1
  (t.cores.filter (· ≠ c)).foldl (fun s d =>
    if t.third = some d && !t.three then s.backToWaiting d else s.holdForTest d) s

/-- VIGIL_PHASE_DONE (R477, R478): the digests of a phase of the test whose first core is `c`. -/
def execVigilPhaseDone (c : CoreId) (digestA : BitVec 32) (digestB : BitVec 32) (digestC : BitVec 32) (s : State) :
    Host.Outcome State Fault Refusal :=
  let a := digestA.toNat
  let b := digestB.toNat
  let d := digestC.toNat
  match s.ras.tests.find? (fun t => t.coreA = c.val) with
  | none => .next s
  | some t =>
    match t.third, t.retry with
    | some _, some x =>
      let mine := if x = t.coreA then a else if x = t.coreB then b else d
      let other := if t.third = some x then a else d
      if mine = other then .next ((s.noteTransient x 0x0020 0).phasePassed t) else .next (s.failTest t x other mine)
    | some e, none =>
      if a = b && b = d then .next (s.phasePassed t)
      else
        let odd := if a = d then some t.coreB else if b = d then some t.coreA else if a = b then some e else none
        let (s, seed) := s.seed
        match odd with
        | some x => .next (s.setTest { t with retry := some x, seed := seed })
        | none => .next (s.setTest { t with three := true, phase := 1, seed := seed })
    | none, _ =>
      if a = b then .next (s.phasePassed t)
      else
        match s.thirdCore t with
        | none => .next s
        | some e =>
          let s := if (s.rasOf e).state = 0 || (s.rasOf e).state = 3 then s.updRas e (fun r => { r with state := 2 }) else s
          .next (({ s with ras := { s.ras with waiting := s.ras.waiting.filter (· ≠ e) } } : State).setTest { t with third := some e })

/-- VIGIL_TEST_ABANDONED (R479): more than four times 25 ms have passed. -/
def execVigilTestAbandoned (c : CoreId) (s : State) : Host.Outcome State Fault Refusal :=
  match s.ras.tests.find? (fun t => t.coreA = c.val || t.coreB = c.val) with
  | none => .next s
  | some t =>
    if s.refCount ≤ t.start + 100000 * ticksPerUs then .next s
    else
      let s := { s with ras := { s.ras with tests := s.ras.tests.filter (fun u => u.coreA ≠ t.coreA) } }
      .next (t.cores.foldl State.backToWaiting s)

/-! ### Classification (R471 to R473) -/

/-- A core that may repeat a captured descriptor: idle or at a step boundary, of the same RESULT_CLASS (R472, R555). -/
def State.neighbourOk (s : State) (c n : Nat) : Bool :=
  n ≠ c && s.inService n && !s.borrowed n && (s.core n).cmd.isNone && s.resultClass n = s.resultClass c

/-- The neighbour for a core's repeat: of its cluster, then of its half, in ascending order (R472). -/
def State.neighbourFor (s : State) (c : Nat) : Option Nat :=
  let half := (List.range 64).map (· + c / 64 * 64)
  ((coresOf (clusterOf c)).find? (s.neighbourOk c)).or ((half.filter (fun n => clusterOf n ≠ clusterOf c)).find? (s.neighbourOk c))

/-- Take the classification of a core out of the list, and free its capture. -/
def State.endClassify (s : State) (g : Classify) : State :=
  ({ s with ras := { s.ras with classify := s.ras.classify.filter (fun h => h.core ≠ g.core) } } : State).freeCapture g.capture

/-- A core is classified by a full Vigil test in place of the repeat (R471, R472). -/
def State.classifyByTest (s : State) (g : Classify) : State := (s.endClassify g).holdForTest g.core

/-- Take neighbours for the repeats that wait for one (R472). -/
def State.seekNeighbours (s : State) : State :=
  s.ras.classify.foldl (fun s g =>
    if !g.copied || g.neighbour.isSome || s.since g.start 10000 then s
    else
      match s.neighbourFor g.core with
      | none => s
      | some n => { s with ras := { s.ras with
          classify := s.ras.classify.map (fun (h : Classify) => if h.core = g.core then { h with neighbour := some n } else h) } }) s

/-- CAPTURE_DONE (R471): the repeat may begin, or, with no capture slot, a Vigil test takes its place. Issued again, it takes
neighbours for the repeats that wait for one. -/
def execCaptureDone (c : CoreId) (s : State) : Host.Outcome State Fault Refusal :=
  if !s.firmware then .next s
  else
    let s := match s.ras.classify.find? (fun g => g.core = c.val && !g.copied) with
      | none => s
      | some g =>
        if g.capture.isNone then s.classifyByTest g
        else { s with ras := { s.ras with
          classify := s.ras.classify.map (fun (h : Classify) => if h.core = g.core then { h with copied := true, start := s.refCount } else h) } }
    .next s.seekNeighbours

/-- NEIGHBOUR_TIMEOUT (R472). -/
def execNeighbourTimeout (c : CoreId) (s : State) : Host.Outcome State Fault Refusal :=
  match s.ras.classify.find? (fun g => g.core = c.val) with
  | none => .next s
  | some g => if g.copied && g.neighbour.isNone && s.since g.start 10000 then .next (s.classifyByTest g) else .next s

/-- A core is PERMANENT: it is to be fenced, with the record of R489. -/
def State.permanent (s : State) (g : Classify) : State :=
  let r := (s.core g.core).mx.residue
  let (s, d) := s.draw
  let unit := (s.rasOf g.core).faultUnit
  let e := if g.lockstep then { s.coreEvent g.core 0x0021 0 2 stLockstepMismatch unit with queue := g.queue, seq := g.seq }
    else { s.coreEvent g.core 0x0021 0 2 stResidueMismatch unit with
              queue := g.queue, seq := g.seq, expected := Config.freeValue 3 d % 7, observed := Config.freeValue 4 d % 7,
              detail := leBytes 2 (bitsOf r 31 20) ++ leBytes 1 (bitsOf r 19 16) ++ leBytes 1 (bitsOf r 13 8) }
  ((s.endClassify g).raise e).decideFence g.core 2

/-- A core is TRANSIENT: it returns to service, or, due meanwhile, goes to Vigil at once (R473, R483). -/
def State.transient (s : State) (g : Classify) : State :=
  let s := (s.endClassify g).faultTransient g.core
  if (s.rasOf g.core).isDue then s.takeCore g.core else s.updRas g.core (fun r => { r with state := 0 })

/-- A neighbour that reports a mismatch itself is quarantined with a capture of its own (R471, R472). -/
def State.quarantineNeighbour (s : State) (n : Nat) (g : Classify) : State :=
  let cap := g.capture.bind (kfind s.ras.captures)
  let slot := if cap.isNone then none else leastBelow 8 (fun i => (kfind s.ras.captures i).isNone)
  let unit := (s.rasOf g.core).faultUnit
  let s := (s.rasCount (if g.lockstep then 0x230 else 0x228) 1).updRas n (fun r =>
    { r with state := 1, faultUnit := unit, faultLock := g.lockstep })
  let s := match slot, cap with
    | some i, some c => { s with ras := { s.ras with captures := kput s.ras.captures i { c with core := n } } }
    | _, _ => s
  let h : Classify := { core := n, capture := slot, neighbour := none, second := false, start := s.refCount, queue := g.queue,
                        seq := g.seq, lockstep := g.lockstep }
  { s with ras := { s.ras with classify := s.ras.classify ++ [h] } }

/-- CLASSIFY_REPEAT_DONE (R472): whether the repeat mismatched again on the core, whether the neighbour reported a mismatch, and
whether the results are equal. Without a neighbour it takes one. -/
def execClassifyRepeatDone (c : CoreId) (again : Bool) (peerFails : Bool) (equal : Bool) (s : State) :
    Host.Outcome State Fault Refusal :=
  if !s.firmware then .next s
  else
    match s.ras.classify.find? (fun g => g.core = c.val) with
    | none => .next s
    | some g =>
      match g.neighbour with
      | none => .next s.seekNeighbours
      | some n =>
        if again then .next ((s.rasCount (if g.lockstep then 0x230 else 0x228) 1).permanent g)
        else if peerFails then
          let s := s.quarantineNeighbour n g
          if g.second then
            let st := if g.lockstep then stLockstepMismatch else stResidueMismatch
            let s := (s.endClassify g).raise { s.coreEvent c 0x0023 0 4 st (s.rasOf c).faultUnit with
              queue := g.queue, seq := g.seq }
            .next ((s.updRas c (fun r => { r with state := 2, lastClass := 4 })).holdForTest c)
          else
            let s := { s with ras := { s.ras with classify := s.ras.classify.map (fun (h : Classify) =>
              if h.core = c.val then { h with neighbour := none, second := true, start := s.refCount } else h) } }
            .next s.seekNeighbours
        else if equal then .next (s.transient g)
        else .next (s.permanent g)

/-! ### Shadow samples (R482) -/

/-- SHADOW_COMPARE (R482): the recomputation of the oldest sample of a core has ended. A difference stops what runs on the core, also a
later command (R474), and takes it out of Vigil for its classification (R483). -/
def execShadowCompare (c : CoreId) (equal : Bool) (s : State) : Host.Outcome State Fault Refusal :=
  match s.ras.shadows.find? (fun h => h.1 = c.val) with
  | none => .next s
  | some h =>
    let cap := kfind s.ras.captures h.2.1
    let s := { s with ras := { s.ras with shadows := s.ras.shadows.erase h } }
    if equal then .next (s.freeCapture (some h.2.1))
    else
      let key : Nat := (cap.map (·.cmd)).getD 0
      let runs : Bool := (s.core c).cmd == some key
      let st := (s.rasOf c).state
      let s := if st = 2 then s.dropTests c else s
      let s := if st = 0 || st = 2 || st = 3 then
          let g : Classify := { core := c, capture := some h.2.1, neighbour := none, second := false, start := s.refCount,
                                queue := key / 2 ^ 48, seq := key % 2 ^ 48, lockstep := false }
          ({ s with ras := { s.ras with classify := s.ras.classify ++ [g] } } : State).updRas c (fun r =>
            { r with state := 1, faultUnit := 3, faultLock := false })
        else s.freeCapture (some h.2.1)
      if runs then .next (s.failCore c stResidueMismatch)
      else .next ((s.failCore c stResidueMismatch).raise
        { s.coreEvent c 0x0041 0 0 stResidueMismatch 3 with queue := key / 2 ^ 48, seq := key % 2 ^ 48 })

end Sys2Proof.Machine
end

