-- ==== Sys2Proof/Machine/Power.lean ====
section
/-! DEFINITION. Power and heat (R496 to R520): samples, pacing and the full stall, telemetry, droop and clock points, thermal rows,
trips, energy, and their control operations. -/

namespace Sys2Proof.Machine

open Sys2Proof

/-! ### Losing power (R496, R499, R513, R587) -/

/-- The input opens: every unit loses power and all its state. What flash, fuses, the module's pins and the host hold stays. -/
def State.powerOff (s : State) : State :=
  let v := s.service
  { pending := s.pending, freeCtr := s.freeCtr, host := s.host,
    module := { s.module with powered := false, heldAt10 := false, inputOpen := true, mgmtPtr := 0 },
    service := { images := v.images, committed := v.committed, keyDigest := v.keyDigest, revoked := v.revoked, minSvn := v.minSvn,
                 debugFuse := v.debugFuse, forcedSet := v.forcedSet, pwrPending := v.pwrPending } }

/-! ### Clock points (R506) -/

/-- Move a cluster to a point: a lower one at once, a higher one once its half's voltage has it (R506). -/
def State.toPoint (s : State) (k p : Nat) : State :=
  let c := s.clusterPower k
  let there := (List.range 8).any (fun i => (s.clusterPower (k / 8 * 8 + i)).point ≤ p)
  if c.point ≤ p || there then s.updClusterPower k (fun c => { c with point := p, wantPoint := none })
  else s.updClusterPower k (fun c => { c with wantPoint := some p })

/-- POINT_VOLTAGE_REACHED (R506). -/
def execPointVoltageReached (half : Fin 2) (s : State) : Host.Outcome State Fault Refusal :=
  let s := s.accrue
  .next ((List.range 8).foldl (fun s i => s.updClusterPower (8 * half + i) (fun c =>
    match c.wantPoint with
    | none => c
    | some p => { c with point := p, wantPoint := none })) s)

/-! ### Duty (R501, R502, R507) -/

/-- Greatest core duty. -/
def State.dutyMax (s : State) : Nat := (List.range 128).foldl (fun m c => max m (s.dutyOf c)) 0

/-- PACE_WEIGHT of a core (R501). -/
def State.weightOf (s : State) (c : Nat) : Nat :=
  let r := s.rasOf c
  if r.state = 1 || r.state = 2 || s.ras.waiting.contains c || s.ras.tests.any (fun t => t.cores.contains c) ||
      s.ras.classify.any (fun g => g.neighbour = some c) then 15
  else match s.partOf c with
    | none => 0
    | some p => (s.part p).weight

/-- Whether a core has work: a command, a test, a repeat or a microcode update. -/
def State.busyCore (s : State) (c : Nat) : Bool :=
  (s.core c).cmd.isSome || s.ras.tests.any (fun t => t.cores.contains c) ||
    s.ras.classify.any (fun g => g.neighbour = some c || (g.core = c && g.neighbour.isSome)) || s.ras.shadows.any (fun h => h.2.2 = c) ||
    s.service.rollouts.any (fun r => r.kind = 2 && r.taken.contains c)

/-- Spread bubbles of `n / den` per cent of a core over cores with weights: none takes more than the cap, and what the cap refuses
goes to the others; whole per cent, ties up (R501, R502). -/
def spreadDuty : Nat → Nat → Nat → Nat → List (Nat × Nat) → List (Nat × Nat)
  | 0, _, _, _, _ => []
  | fuel + 1, n, den, cap, l =>
    let w := (l.map (·.2)).sum
    if w = 0 then []
    else
      let excess := l.filter (fun e => cap * den * w < n * e.2)
      if excess.isEmpty then l.map (fun e => (e.1, (2 * n * e.2 + den * w) / (2 * den * w)))
      else excess.map (fun e => (e.1, cap)) ++
        spreadDuty fuel (n - cap * den * excess.length) den cap (l.filter (fun e => n * e.2 ≤ cap * den * w))

/-- Effective limit in mW (R499, R500). -/
def Power.effective (p : Power) : Nat :=
  if (36000 ≤ p.vin && p.vin < 40000) || (60000 < p.vin && p.vin ≤ 64000) then min (p.limit * 1000) (p.vin * 75 / 2) else p.limit * 1000

/-- Margin M_W in mW (R500). -/
def Power.marginW (p : Power) : Nat := max (p.effective * p.margin / 100) 12000

/-- P_w in mW (R500). -/
def Power.window (p : Power) : Nat := p.samples.sum / max 1 p.samples.length

/-- Power duties of R501 for activities in thousandths. -/
def State.pacing (s : State) (act : Nat → Nat) : List (Nat × Nat) :=
  let p := s.power
  let cnt := max 1 p.samples.length
  let target := p.effective - p.marginW
  let excess := p.samples.sum - target * cnt
  let a := ((List.range 128).map act).sum
  let l := (List.range 128).filterMap (fun c => if act c * s.weightOf c = 0 then none else some (c, act c * s.weightOf c))
  if excess = 0 then []
  else
    (if p.dmax * (target * cnt) ≤ 100 * p.gain * excess then spreadDuty 128 (p.dmax * a) 1000 p.dmax l
     else spreadDuty 128 (100 * p.gain * excess * a) (1000 * (target * cnt)) p.dmax l).filter (fun e => s.busyCore e.1)

/-- Duties of a full stall (R503). -/
def State.stallDuty (s : State) : List (Nat × Nat) :=
  (List.range 128).map (fun c => (c, if s.weightOf c = 0 then s.power.dmax else 100))

/-- A NOTICE record on some cores: to the physical function, and to the partitions of the cores that had none of the kind within
100 ms (R504, R512). -/
def State.coreNotice (s : State) (status : Nat) (cores : List Nat) (last : Partition → Option Nat) (mark : Partition → Partition) : State :=
  let ps := (List.range 16).filter (fun p => cores.any (fun c => (s.part p).mask.testBit c))
  let due := ps.filter (fun p => match last (s.part p) with | none => true | some t => s.since t 100000)
  if !ps.isEmpty && due.isEmpty then s
  else
    let s := due.foldl (fun s p => s.updPart p mark) s
    s.pendRecord ⟨3, due, 0, faultBytes 3 0 status 0 0 0 0 0 0 (bitMask cores) 0 0 s.pool.partId 0 s.refCount⟩

/-- Take new duties; a pacing episode that begins is reported (R504). -/
def State.setDuty (s : State) (l : List (Nat × Nat)) : State :=
  let l := l.filter (fun e => e.2 ≠ 0)
  let had := !s.power.duty.isEmpty
  let begins := !had && (match s.power.lastDuty with | none => true | some t => s.since t 1000)
  let s := { s with power := { s.power with duty := l.foldl (fun m e => kput m e.1 e.2) [],
                                            lastDuty := if had || !l.isEmpty then some s.refCount else s.power.lastDuty } }
  if l.isEmpty then s
  else
    if !begins then s
    else
      let now := s.refCount
      let n := s.xlt.batch.length
      let s := s.coreNotice stPowerPaced (l.map (·.1)) Partition.lastPaced (fun q => { q with lastPaced := some now })
      if s.xlt.batch.length = n then s else { s with power := { s.power with lastPaced := some now } }

/-- Power of the second-stage rails in mW: what the reporting ones draw, given by rail or summed, and the full current rating of those that
report nothing (R497, R498). -/
def Power.railPower (p : Power) (sum : Nat) (rails : List Nat) : Nat :=
  let lost := bitList 5 p.railLost
  (if rails.isEmpty then sum else ((List.range 5).map (fun r => if lost.contains r then 0 else nthD 0 rails r)).sum) +
    (lost.map Config.railRating).sum

/-- The part of a stretch of `len` ticks up to `until_` that lies in the last millisecond. -/
def lastMs (now until_ len : Nat) : Nat := min len (until_ + 1000 * ticksPerUs - now)

/-- Stretched cycles, which run at half frequency, exceed 1 % of a cluster's cycles in the last millisecond (R505). -/
def State.stormNow (s : State) (k : Nat) : Bool :=
  let c := s.clusterPower k
  let now := s.refCount
  let open_ := match c.stretchAt with | none => 0 | some t => lastMs now now (now - t)
  2 * 1000 * ticksPerUs < 101 * (open_ + (c.stretches.map (fun e => lastMs now e.1 e.2)).sum)

/-- A storm that begins is recorded (R505). -/
def State.noteStorm (s : State) (k : Nat) : State :=
  let c := s.clusterPower k
  if c.stretchAt.isNone && c.stretches.isEmpty && !c.storm then s
  else
    let on := s.stormNow k
    let s := if on && !c.storm then s.raise { event := 0x0102, severity := 3, unit := 0x0C, cluster := k } else s
    s.updClusterPower k (fun c => { c with storm := on })

/-- POWER_SAMPLE (R498, R500 to R504): rail power in mW, summed or by rail, and each core's activity in thousandths (log entry 10). -/
def execPowerSample (milliwatts : Nat) (activity : List Nat) (s : State) (rails : List Nat := []) : Host.Outcome State Fault Refusal :=
  if !s.module.powered then .next s
  else
    let act := fun (c : Nat) => min 1000 (nthD 0 activity c)
    let s := (List.range 128).foldl (fun s c => s.use c (act c) 0) s.accrue
    let s := (List.range 16).foldl State.noteStorm s
    let p := s.power
    let p := match p.next with
      | none => p
      | some (l, m, g, d) => { p with limit := l, margin := m, gain := g, dmax := d, next := none }
    let p := { p with samples := (p.railPower milliwatts rails * 10000 / max 1 p.eta :: p.samples).take 1000 }
    let s := { s with power := p }
    let cnt := max 1 p.samples.length
    let sum := p.samples.sum
    let target := p.effective - p.marginW
    let stall := if p.stall then target * cnt < sum else (2 * p.effective - p.marginW) * cnt ≤ 2 * sum
    let s := if stall && !p.stall then s.raise { event := 0x0101, severity := 3, unit := 0x0C } else s
    let s := { s with power := { s.power with stall := stall } }
    .next (s.setDuty (if stall then s.stallDuty else s.pacing act))

/-! ### Telemetry and efficiency (R497 to R499) -/

/-- TELEMETRY_FRAME (R497, R499): V_IN and I_IN of a good frame; whether rails have reported, and which. -/
def execTelemetryFrame (crcOk : Bool) (millivolts : Nat) (milliamps : Nat) (rails : Bool) (s : State) (which : BitVec 5 := 31) :
    Host.Outcome State Fault Refusal :=
  if !s.module.powered then .next s
  else
    let s := if rails then { s with power := { s.power with
        lastRail := (bitList 5 which.toNat).foldl (fun m r => kput m r s.refCount) s.power.lastRail,
        railLost := s.power.railLost &&& (31 - which.toNat) } } else s
    if !crcOk then .next s
    else
      let out := (36000 ≤ millivolts && millivolts < 40000) || (60000 < millivolts && millivolts ≤ 64000)
      let s := if out && !s.power.excursion then s.raise { event := 0x0106, severity := 3, unit := 0x0C } else s
      .next { s with power := { s.power with vin := millivolts, iin := milliamps, lastFrame := s.refCount, tlmLost := false, excursion := out } }

/-- TELEMETRY_LOST (R497): no good frame for 100 µs, or no report of a rail for 5 µs. -/
def execTelemetryLost (s : State) : Host.Outcome State Fault Refusal :=
  let e : RasEvent := { event := 0x0107, severity := 0, unit := 0x0C }
  if !s.module.powered then .next s
  else
    let s := if !s.power.tlmLost && s.since s.power.lastFrame 100 then
        ({ s with power := { s.power with tlmLost := true, eta := 8800 } } : State).raise e else s
    .next ((List.range 5).foldl (fun s r =>
      if !s.power.railLost.testBit r && s.since (kget 0 s.power.lastRail r) 5 then
        ({ s with power := { s.power with railLost := s.power.railLost ||| 2 ^ r } } : State).raise e else s) s)

/-- EFFICIENCY_UPDATE (R497, R498): rail energy, summed or by rail, and input energy of the last millisecond in one unit. -/
def execEfficiencyUpdate (rail : Nat) (input : Nat) (s : State) (rails : List Nat := []) : Host.Outcome State Fault Refusal :=
  if !s.module.powered || s.power.tlmLost || input = 0 then .next s
  else .next { s with power := { s.power with
    eta := max 8000 (min 9600 ((if rails.isEmpty then rail else rails.sum) * 10000 / input)) } }

/-- INPUT_LOCKOUT (R499): the outcome of a thermal trip (R513), without its record; the input stays open until it is released. -/
def execInputLockout (millivolts : Nat) (s : State) : Host.Outcome State Fault Refusal :=
  if s.module.powered && (millivolts < 36000 || 64000 < millivolts) then
    .next { s.powerOff with module := { s.powerOff.module with latch := true, trip := true } }
  else .next s

/-! ### Droop (R505) -/

/-- DROOP (R505). -/
def execDroop (k : ClusterId) (s : State) : Host.Outcome State Fault Refusal :=
  if !s.module.powered || (s.clusterPower k).stretchAt.isSome then .next s
  else
    let s := (coresOf k).foldl State.accrueCore s
    .next ({ s with power := { s.power with counters := bump s.power.counters 0x218 1 } }.updClusterPower k
      (fun c => { c with stretchAt := some s.refCount }))

/-- DROOP_RECOVERY (R505, R508): at least 16 cycles at half frequency have passed. Stretched cycles above 1 % of a millisecond's are
a storm. -/
def execDroopRecovery (k : ClusterId) (s : State) : Host.Outcome State Fault Refusal :=
  let c := s.clusterPower k
  match c.stretchAt with
  | none => .next s
  | some t =>
    let d : Nat := s.refCount - t
    let f := s.clockOf k
    if d * f < 3200 then .next s
    else
      let s := (coresOf k).foldl State.accrueCore s
      let l : List (Nat × Nat) := (s.refCount, d) :: c.stretches.filter (fun e => !s.since e.1 1000)
      .next ((s.updClusterPower k (fun c => { c with stretchAt := none, stretches := l })).noteStorm k)

/-! ### Heat (R509 to R513) -/

/-- Row of R510 whose condition a reading meets, the trip apart, and the temperatures that meet it. -/
def Power.rowOf (p : Power) (logic dram : Int) : Nat × Nat :=
  let bits := fun (d l : Bool) => b2n d + 2 * b2n l
  if 95 ≤ dram || 105 ≤ logic then (3, bits (95 ≤ dram) (105 ≤ logic))
  else if (p.dramDerate : Int) ≤ dram || (p.logicDerate : Int) ≤ logic then
    (2, bits ((p.dramDerate : Int) ≤ dram) ((p.logicDerate : Int) ≤ logic))
  else if 85 ≤ dram then (1, 1)
  else (0, 0)

/-- The governing temperatures lie 3 °C below their row's threshold. -/
def Power.cooled (p : Power) (row gov : Nat) (logic dram : Int) : Bool :=
  let d : Int := if row = 3 then 95 else if row = 2 then p.dramDerate else 85
  let l : Int := if row = 3 then 105 else p.logicDerate
  (!gov.testBit 0 || dram ≤ d - 3) && (!gov.testBit 1 || logic ≤ l - 3)

/-- The row that governs a cluster after a reading. -/
def ClusterPower.read (c : ClusterPower) (p : Power) (now : Nat) (logic dram : Int) : ClusterPower :=
  let (row, gov) := p.rowOf logic dram
  let hot := 98 ≤ dram || 108 ≤ logic
  let c := { c with logicTemp := logic, dramTemp := dram, overSince := if hot then some (c.overSince.getD now) else none }
  if row = c.row then { c with gov := c.gov ||| gov, belowSince := none }
  else if c.row < row then { c with row := row, gov := gov, belowSince := none }
  else if p.cooled c.row c.gov logic dram then
    let t := c.belowSince.getD now
    if t + 10000 * ticksPerUs ≤ now then { c with row := row, gov := gov, belowSince := none } else { c with belowSince := some t }
  else { c with belowSince := none }

/-- The step that a cluster's row calls for: one point or 10 % of duty a millisecond down, one or the other in 10 ms up (R510). -/
def State.thermalStep (s : State) (k : Nat) : State :=
  let c := s.clusterPower k
  let now := s.refCount
  let mark := fun (s : State) => s.updClusterPower k (fun c => { c with lastStep := now })
  if c.row = 3 then s.updClusterPower k (fun c => { c with derateDuty := 100, lastStep := now })
  else if c.row = 2 && c.derateDuty ≤ s.power.dmax then
    if !s.since c.lastStep 1000 then s
    else if c.point < 3 then mark (s.toPoint k (c.point + 1))
    else mark (s.updClusterPower k (fun c => { c with derateDuty := min s.power.dmax (c.derateDuty + 10) }))
  else if !s.since c.lastStep 10000 then s
  else if c.derateDuty ≠ 0 then mark (s.updClusterPower k (fun c => { c with derateDuty := c.derateDuty - 10 }))
  else if s.fullService && c.best < c.point && c.wantPoint.isNone then mark (s.toPoint k (c.point - 1))
  else s

/-- A channel group whose temperature has moved 10 °C, or whose calibration is 24 h old, is recalibrated, unless its limit row governs
or another group recalibrates (R557). -/
def State.autoRecal (s : State) (k : Nat) : State :=
  let c := s.clusterPower k
  let d := c.dramTemp - kget 0 s.service.groupTemp k
  if s.service.recal.isSome || c.row = 3 || !s.fullService then s
  else if 10 ≤ d || d ≤ -10 || s.since (kget 0 s.service.groupCalAt k) 86400000000 then
    { s with service := { s.service with recal := some ⟨k, 0, none⟩ } }
  else s

/-- The highest of a cluster's sensors, or what is given for them (R509). -/
def hottest (given : Int) : List Int → Int
  | [] => given
  | t :: l => l.foldl max t

/-- THERMAL_READING (R509, R510, R512): the highest logic and DRAM temperature of a cluster, given so or by its four logic sensors and
eight layer sensors. A row that comes to govern is reported, also on a fall. -/
def execThermalReading (k : ClusterId) (logic : Int) (dram : Int) (s : State) (sensors layers : List Int := []) :
    Host.Outcome State Fault Refusal :=
  if !s.module.powered then .next s
  else
    let s := s.accrue
    let old := (s.clusterPower k).row
    let s := s.updClusterPower k (fun c =>
      { c.read s.power s.refCount (hottest logic sensors) (hottest dram layers) with logicSensors := sensors, dramSensors := layers })
    let row := (s.clusterPower k).row
    let e : RasEvent := { event := 0x0108, severity := 3, unit := 0x0C, cluster := k }
    let s := if row = old || row = 0 then s
      else if row = 3 then s.raise { e with event := 0x0104, severity := 0 }
      else if row = 2 then s.raise { e with event := 0x0103 }
      else s.raise e
    let now := s.refCount
    let s := if old < 2 && 2 ≤ row then
        s.coreNotice stThermalDerated (coresOf k) Partition.lastDerated (fun q => { q with lastDerated := some now })
      else s
    .next ((s.thermalStep k).autoRecal k)

/-- The sensor of a trip: 0 to 3 a logic sensor, 4 to 11 a DRAM layer (DESIGN CHOICE, log entry 36). Where the readings were not given by
sensor, which one it was is a free value of those of the kind that is over (log entry 6). -/
def ClusterPower.tripSensor (c : ClusterPower) (free : Nat) : Nat :=
  let cold := decide (c.dramTemp < 98)
  let cool := decide (c.logicTemp < 108)
  let logic := (c.logicSensors.findIdx? (· = c.logicTemp)).getD (free % 4)
  let dram := 4 + (c.dramSensors.findIdx? (· = c.dramTemp)).getD (free / 4 % 8)
  if cool then dram else if cold then logic else if free / 32 % 2 = 0 then dram else logic

/-- THERMAL_TRIP (R510, R513): the trip record goes to flash and the input opens. -/
def execThermalTrip (k : ClusterId) (s : State) : Host.Outcome State Fault Refusal :=
  let c := s.clusterPower k
  match c.overSince with
  | none => .next s
  | some t =>
    if !s.since t 1000 then .next s
    else
      let (s, d) := s.draw
      let n := c.tripSensor (Config.freeValue 6 d)
      let r : TripRec := { cluster := k, sensor := n, temp := if 4 ≤ n then c.dramTemp else c.logicTemp, time := s.refCount, fw := s.cpVersion }
      let s := s.powerOff
      .next { s with module := { s.module with tripRec := some r, latch := true, trip := true } }

/-- HOT_SWAP_LATCH_RELEASE (R513, R585): V_IN has stayed away, so TRIP# is released with the latch. -/
def execHotSwapLatchRelease (s : State) : Host.Outcome State Fault Refusal :=
  if s.module.latch then .next { s with module := { s.module with latch := false, trip := false } } else .next s

/-! ### Energy (R514 to R516) -/

/-- Energy of one core for a command and its context (R514, R515). -/
def State.credit (s : State) (cmd : Option Nat) (ctx e : Nat) : State :=
  match cmd with
  | none => s
  | some key =>
    (s.updCmd key (fun m => { m with energy := min (2 ^ 32 - 1) (m.energy + e) })).updCtx ctx (fun x => { x with energy := (x.energy + e) % 2 ^ 64 })

/-- A core's energy of the millisecond goes to what it ran, by activity, or by time where it had no activity (R514); what was not counted
apart is the present command's. -/
def State.creditCore (s : State) (c e : Nat) : State :=
  let l := s.power.usage.filter (fun u => u.core = c)
  let a := (l.map (fun u => u.act)).sum
  let t := (l.map (fun u => u.time)).sum
  if l.isEmpty then s.credit (s.core c).cmd (s.core c).ctx e
  else l.foldl (fun s u => s.credit u.cmd u.ctx (if a ≠ 0 then e * u.act / a else e * u.time / max 1 t)) s

/-- The energy of each core (R514): its part of the active energy by activity, an equal part of its half's static energy, and its part of
its cluster's uncore energy by core-time in use. -/
def State.coreEnergy (s : State) (h : EnergyShares) : List Nat :=
  let sum := fun (p : Usage → Bool) (f : Usage → Nat) => ((s.power.usage.filter p).map f).sum
  let all := sum (fun _ => true) (fun u => u.act)
  (List.range 128).map (fun c =>
    let k := clusterOf c
    let busy := fun (u : Usage) => u.cmd.isSome && clusterOf u.core = k
    h.active * sum (fun u => u.core = c) (fun u => u.act) / max 1 all + nthD 0 h.halves (c / 64) / 64 +
      nthD 0 h.uncore k * sum (fun u => busy u && u.core = c) (fun u => u.time) / max 1 (sum busy (fun u => u.time)))

/-- ENERGY_ATTRIBUTION (R514, R515): what the last millisecond's input energy comes to for each core and for pool service, in µJ, given by
core or as the shares that the cores divide (log entry 10). -/
def execEnergyAttribution (cores : List Nat) (service : Nat) (input : Nat) (s : State) (shares : Option EnergyShares := none) :
    Host.Outcome State Fault Refusal :=
  if !s.module.powered then .next s
  else
    let s := s.accrue
    let es := match shares with | none => cores | some h => s.coreEnergy h
    let s := ((List.range 128).zip es).foldl (fun s e => s.creditCore e.1 e.2) s
    .next { s with power := { s.power with
      inputEnergy := s.power.inputEnergy + input, serviceEnergy := s.power.serviceEnergy + service, usage := [] } }

/-! ### Control operations (R517) -/

/-- POWER_QUERY. -/
def execPowerQuery (f : FnId) (slot : Fin 28) (s : State) : Host.Outcome State Fault Refusal :=
  .next (s.serve f slot 0x0801 false (fun _ s =>
    let p := s.power
    .done s stOk (leBytes 2 (p.window / 1000) ++ leBytes 2 (p.effective / 1000) ++ leBytes 2 (p.vin / 100) ++ leBytes 2 (p.iin / 100) ++
      leBytes 1 s.dutyMax ++ leBytes 1 (b2n p.stall) ++ leBytes 2 0 ++ leBytes 4 p.eta)))

/-- POWER_SET. -/
def execPowerSet (f : FnId) (slot : Fin 28) (s : State) : Host.Outcome State Fault Refusal :=
  .next (s.serve f slot 0x0802 true (fun r s =>
    let l := r.u 0 2
    let m := r.u 2 1
    let g := r.u 3 1
    let d := r.u 4 1
    checks s [(l < 600 || 1500 < l || m = 0 || 10 < m || g = 0 || 32 < g || d < 25 || 90 < d, stBadPattern)]
      (.done { s with power := { s.power with next := some (l, m, g, d) } } stOk [])))

/-- PACE_WEIGHT_SET: weights are used by the samples alone. -/
def execPaceWeightSet (f : FnId) (slot : Fin 28) (s : State) : Host.Outcome State Fault Refusal :=
  .next (s.serve f slot 0x0803 true (fun r s =>
    checks s [(16 ≤ r.u 0 1 || 16 ≤ r.u 1 1, stBadPattern)]
      (.done (s.updPart (r.u 0 1) (fun q => { q with weight := r.u 1 1 })) stOk [])))

/-- The THERMAL_QUERY response. -/
def State.thermalBytes (s : State) : List Byte :=
  (List.range 16).flatMap (fun k =>
    let c := s.clusterPower k
    leBytes 1 (unsign 8 c.logicTemp) ++ leBytes 1 (unsign 8 c.dramTemp) ++ leBytes 1 c.point ++
      leBytes 1 (b2n (c.row = 1) + 2 * b2n (c.row = 2) + 4 * b2n (c.row = 3)))

/-- THERMAL_QUERY. -/
def execThermalQuery (f : FnId) (slot : Fin 28) (s : State) : Host.Outcome State Fault Refusal :=
  .next (s.serve f slot 0x0804 false (fun _ s => .done s stOk s.thermalBytes))

/-- THERMAL_SET. -/
def execThermalSet (f : FnId) (slot : Fin 28) (s : State) : Host.Outcome State Fault Refusal :=
  .next (s.serve f slot 0x0805 true (fun r s =>
    let d := r.u 0 1
    let l := r.u 1 1
    checks s [(d < 80 || 90 < d || l < 90 || 100 < l, stBadPattern)]
      (.done { s with power := { s.power with dramDerate := d, logicDerate := l } } stOk [])))

/-- ENERGY_QUERY. -/
def execEnergyQuery (f : FnId) (slot : Fin 28) (s : State) : Host.Outcome State Fault Refusal :=
  .next (s.serve f slot 0x0806 false (fun r s =>
    let x := r.u 0 1
    checks s (s.ctxChecks f x false) (.done s stOk (leBytes 8 (s.ctx x).energy))))

end Sys2Proof.Machine
end

