-- ==== Sys2Proof/Machine/Images.lean ====
section
/-! DEFINITION. Firmware images (R550 to R556, R563, R564): verification, pairings, staging, activation, commitment, the CP swap, the
microcode rollout and port updates; recalibration (R557). -/

namespace Sys2Proof.Machine

open Sys2Proof

/-! ### Running images and pairings (R551, R552) -/

/-- Image in a slot. -/
def State.image (s : State) (kind slot : Nat) : Image := kget {} s.service.images (2 * kind + slot)

/-- Slots of a kind that run on the part: of every core, of every port, or the one (R554, R556). -/
def State.runSlots (s : State) (kind : Nat) : List Nat :=
  match kfind s.service.running kind with
  | none => []
  | some r =>
    let slots := if kind = 2 then (List.range 128).map (fun c => (kfind s.service.seqSlot c).getD r)
      else if kind = 3 then (List.range 6).map s.fabSlotOf
      else [r]
    [0, 1].filter slots.contains

/-- A manifest states a version as tested (R551). -/
def Image.covers (x : Image) (kind : Nat) (peer : Bool) (y : Image) : Bool :=
  x.manifest.any (fun e => e.1 = kind && e.2.1 = peer && e.2.2.1 ≤ y.version && y.version ≤ e.2.2.2)

/-- The running images that an image of a kind would run beside, with their kinds and whether they are a neighbour's (R552). -/
def State.beside (s : State) (kind slot : Nat) : List (Nat × Bool × Image) :=
  let here := [1, 2, 3, 4].flatMap (fun k =>
    ((s.runSlots k).filter (fun r => k ≠ kind || ((kind = 2 || kind = 3) && r ≠ slot))).map (fun r => (k, false, s.image k r)))
  let there := if kind = 3 then ((List.range 6).filter (fun q => (s.port q).state = 4)).map (fun q => (3, true, (s.port q).peerFab)) else []
  here ++ there

/-- The first conflict of an image with what it would run beside: CONFLICT_KIND, SIDE and CONFLICT_VERSION (R552, R563). -/
def conflictOf (x : Image) (kind : Nat) : List (Nat × Bool × Image) → Option (Nat × Nat × Nat)
  | [] => none
  | (k, peer, y) :: l =>
    if !x.covers k peer y then some (k, 0, y.version)
    else if !y.covers kind peer x then some (k, 1, y.version)
    else conflictOf x kind l

/-- A pairing check of an image for a slot (R552). -/
def State.pairing (s : State) (x : Image) (kind slot : Nat) : Option (Nat × Nat × Nat) :=
  match conflictOf x kind (s.beside kind slot) with
  | some c => some c
  | none => if kind = 2 && x.capLevel < s.service.capLevel then some (2, 0, (s.image 2 (kget 0 s.service.running 2)).version) else none

/-- A refused pairing is recorded (R552). -/
def State.recordRefused (s : State) (kind : Nat) : State :=
  (s.raise { event := 0x0205, severity := 3, status := stVersionRefused, unit := 0x0D, detail := leBytes 1 kind }).almAll
    { type := 4, status := stVersionRefused, seq := kind }

/-- An image runs (R566). -/
def State.activated (s : State) (kind : Nat) : State := s.raise { event := 0x0206, severity := 3, unit := 0x0D, detail := leBytes 1 kind }

/-! ### Verification and staging (R550, R563, R564) -/

/-- Offset of the body: header, manifest and signature, up to a multiple of 64. -/
def bodyOffset (bs : List Byte) : Nat := (128 + 16 * fieldAt bs 26 2 + 64 + 63) / 64 * 64

/-- Manifest entries of an image. -/
def manifestOf (bs : List Byte) : List (Nat × Bool × Nat × Nat) :=
  (List.range (fieldAt bs 26 2)).map (fun i =>
    let o := 128 + 16 * i
    (fieldAt bs o 1, bitAt (fieldAt bs (o + 1) 1) 0, fieldAt bs (o + 4) 4, fieldAt bs (o + 8) 4))

/-- Every reserved byte of the manifest is zero and every KIND is one of the four (R551). -/
def manifestOk (bs : List Byte) : Bool :=
  (List.range (fieldAt bs 26 2)).all (fun i =>
    let o := 128 + 16 * i
    1 ≤ fieldAt bs o 1 && fieldAt bs o 1 ≤ 4 && fieldAt bs (o + 1) 1 < 2 && fieldAt bs (o + 2) 2 = 0 && fieldAt bs (o + 12) 4 = 0)

/-- The header is as R550 gives it, for a part of stepping A1. -/
def headerOk (bs : List Byte) (kind : Nat) : Bool :=
  let u := fieldAt bs
  u 0 4 = 0x5A35494D && u 4 1 = kind && u 5 1 = 1 && u 6 2 = 0 && u 12 4 ≤ 63 && u 16 4 % 64 = 0 && 64 ≤ u 16 4 && u 16 4 ≤ 16777216 &&
    (kind = 2 || (u 20 2 = 0 && u 22 2 = 0)) && bitAt (u 24 1) 1 && u 25 1 ≤ 3 && u 26 2 ≤ 32 && u 28 4 = 0 && manifestOk bs

/-- Bytes as numbers, as the digests take them. -/
def nats (bs : List Byte) : List Nat := bs.map (fun b => b.toNat)

/-- Key, signature, digest and security version hold (R550; log entry 14). -/
def State.genuine (s : State) (bs : List Byte) : Bool :=
  let u := fieldAt bs
  let key := u 25 1
  let sig := 128 + 16 * u 26 2
  Config.digest 0 (nats ((bs.drop 32).take 32)) % 2 ^ 512 = kget 0 s.service.keyDigest key && !s.service.revoked.testBit key &&
    Config.signatureOk (u 32 32) (nats (bs.take (sig + 64))) &&
    Config.digest 0 (nats ((bs.drop (bodyOffset bs)).take (u 16 4))) % 2 ^ 512 = u 64 64 &&
    kget 0 s.service.minSvn (u 4 1) ≤ u 12 4

/-- The image that verified bytes hold. -/
def imageOf (bs : List Byte) : Image :=
  let u := fieldAt bs
  { state := 1, version := u 8 4, svn := u 12 4, capLevel := u 20 2, resultClass := u 22 2, digest := u 64 64, manifest := manifestOf bs }

/-- Outcome of an image's checks: BAD_PATTERN, IMAGE_INVALID, VERSION_REFUSED or OK (R564). -/
def State.checkImage (s : State) (g : StageOp) (bs : List Byte) : Nat :=
  if !headerOk bs g.kind then stImageInvalid
  else if g.length ≠ bodyOffset bs + fieldAt bs 16 4 then stBadPattern
  else if !s.genuine bs then stImageInvalid
  else if (s.pairing (imageOf bs) g.kind g.slot).isSome then stVersionRefused
  else stOk

/-- Go on with a staging: it ends, or waits for data of another part and begins again. -/
def State.runStage (s : State) (g : StageOp) : State :=
  let finish := fun (s : State) (st : Nat) (resp : List Byte) =>
    let s := if st = stVersionRefused then s.recordRefused g.kind else s
    ({ s with service := { s.service with staging := s.service.staging.erase g } } : State).cpDone.opEnd (some (g.fn, g.opId)) st resp
  match (readCp (cpWho g.fn) g.addr g.length).run s with
  | (.error .wait, s) => s
  | (.error (.fail st), s) => finish s st []
  | (.ok bs, s) =>
    let st := s.checkImage g bs
    if st = stOk then
      finish { s with service := { s.service with images := kput s.service.images (2 * g.kind + g.slot) (imageOf bs) } } st (leBytes 1 g.slot)
    else finish s st []

/-- An activation of a kind is in progress. -/
def State.activating (s : State) (kind : Nat) : Bool := (kind = 1 && s.service.swap.isSome) || s.service.rollouts.any (fun r => r.kind = kind)

/-- The slot of a kind that is neither running nor committed. -/
def State.stageSlot (s : State) (kind : Nat) : Option Nat :=
  [0, 1].find? (fun r => !(s.runSlots kind).contains r && kget 0 s.service.committed kind ≠ r)

/-- IMAGE_STAGE (R563): accepted, or, issued again, goes on with the stagings under way. -/
def execImageStage (f : FnId) (slot : Fin 28) (s : State) : Host.Outcome State Fault Refusal :=
  let s := if s.firmware then s.service.staging.foldl (fun s g => s.runStage g) s else s
  .next (s.serve f slot 0x0901 true (fun r s =>
    let k := r.u 0 1
    let n := r.u 16 4
    let free := s.stageSlot k
    checks s [(k = 0 || 4 < k || !r.zeros 1 7 || n < 256 || 16777216 + 704 < n || 2 ^ 52 < r.u 8 8 + n, stBadPattern),
              (s.activating k || s.service.staging.any (fun g => g.kind = k) || free.isNone, stUpdateConflict)]
      (.async (fun s id =>
        let g : StageOp := { fn := f, opId := id, kind := k, addr := r.u 8 8, length := n, slot := free.getD 0 }
        ({ s with service := { s.service with staging := s.service.staging ++ [g] } } : State).runStage g))))

/-! ### Activation (R552 to R556, R564) -/

/-- The VALID slot of a kind that does not run. -/
def State.freshSlot (s : State) (kind : Nat) : Option Nat :=
  [0, 1].find? (fun r => !(s.runSlots kind).contains r && (s.image kind r).state = 1 &&
    !s.service.staging.any (fun g => g.kind = kind && g.slot = r))

/-- A cabled port of a line dimension (R299, R556). -/
def State.linePort (s : State) (q : Nat) : Bool := s.cabled q && !s.pool.rings.testBit (q / 2)

/-- IMAGE_ACTIVATE: an untested pairing is refused with its conflict, unless FORCE is set on a part whose debug fuse is blown. -/
def execImageActivate (f : FnId) (slot : Fin 28) (s : State) : Host.Outcome State Fault Refusal :=
  .next (s.serve f slot 0x0902 true (fun r s =>
    let k := r.u 0 1
    let fresh := (s.freshSlot k).getD 0
    let split := k = 3 && !bitAt (r.u 1 1) 1 && (List.range 6).any s.linePort
    checks s [(k = 0 || 4 < k || 4 ≤ r.u 1 1 || 8 < r.u 2 1, stBadPattern),
              (s.activating k || (s.freshSlot k).isNone || split, stUpdateConflict)]
      (let x := s.image k fresh
       let conflict := s.pairing x k fresh
       let forces := bitAt (r.u 1 1) 0 && s.service.debugFuse
       match conflict, forces with
       | some (kind, side, version), false =>
         .done (s.recordRefused k) stVersionRefused (leBytes 1 kind ++ leBytes 1 side ++ leBytes 2 0 ++ leBytes 4 version)
       | _, _ =>
         .async (fun s id =>
           let s := if conflict.isNone then s
             else ({ s with service := { s.service with forced := true } } : State).raise
               { event := 0x0207, severity := 3, unit := 0x0D, detail := leBytes 1 k }
           let roll : Rollout := { fn := f, opId := id, kind := k, slot := fresh, max := max 1 (r.u 2 1),
                                   left := List.range (if k = 2 then 128 else 6) }
           if k = 1 then { s with service := { s.service with swap := some { fn := f, opId := id, slot := fresh } } }
           else if k = 4 then
             (({ s with service := { s.service with pwrPending := true } } : State).activated 4).opEnd (some (f.val, id)) stOk []
           else { s with service := { s.service with rollouts := s.service.rollouts ++ [roll] } }))))

/-- Every request that stands POSTED with its doorbell rung is taken (R364, R548, R553). -/
def State.takePosted (s : State) : State :=
  (List.range 17).foldl (fun s f =>
    (s.fn f).rung.foldl (fun s k =>
      if (s.fn f).slotState k = 1 && !(s.req f k).overruns && !s.slotRunning f k then s.takeRequest f k else s)
      (s.updFn f (fun n => { n with rung := [] }))) s

/-- What R217 resumes after a CP firmware swap or a CP restart: a member found APPLYING applies the staged deltas again, unacknowledged
deltas, copies and logged deltas go out again, and re-tiering blocks begin again. -/
def State.resumeOps (s : State) : State :=
  let s := (List.range 16).foldl (fun s k =>
    ((s.exch k).slots.filter (fun o => o.2.kind = 4)).foldl (fun s o =>
      (s.freeOut k o.1).unsendDelta k (o.1 * 128 + kget 0 (s.exch k).tagSeq o.1)) s) s
  let s := if s.epochs.phase = 3 then s.applyDeltas (s.epochs.epoch + 1) else s
  let s := s.pumpDeltas
  let s := (s.epochs.migrations.filter (fun m => 1 ≤ m.state && m.state ≤ 3)).foldl State.recopy s
  let s := (s.epochs.logs.map (fun l => l.num)).foldl State.relog s
  s.epochs.passes.foldl (fun s p => if p.state = 1 || p.state = 2 then State.nextBlock 4097 (s.rollBack p) p.passId else s) s

/-- The operations of R217 are resumed: at once in full service, else when the part enters it. -/
def State.resumeWhenFull (s : State) : State :=
  if s.fullService then s.resumeOps else { s with service := { s.service with resumeDue := true } }

/-- CP_SWAP_POINT (R553): the running thread hands off; issued again within 25 µs, the new image opens the mailboxes. -/
def execCpSwapPoint (s : State) : Host.Outcome State Fault Refusal :=
  match s.service.swap with
  | none => .next s
  | some w =>
    match w.swapAt with
    | none => if s.firmware then .next { s with service := { s.service with swap := some { w with swapAt := some s.refCount } } } else .next s
    | some t =>
      if s.since t 25 || s.service.state = 3 then .next s
      else
        let s := { s with service := { s.service with swap := none, running := kput s.service.running 1 w.slot } }
        .next (((s.activated 1).opEnd (some (w.fn, w.opId)) stOk []).resumeWhenFull).takePosted

/-- CP_SWAP_TIMEOUT (R553): the old thread resumes. -/
def execCpSwapTimeout (s : State) : Host.Outcome State Fault Refusal :=
  match s.service.swap with
  | none => .next s
  | some w =>
    match w.swapAt with
    | none => .next s
    | some t =>
      if !s.since t 25 || s.service.state = 3 then .next s
      else
        let s := ({ s with service := { s.service with swap := none } } : State).opEnd (some (w.fn, w.opId)) stUpdateFailed []
        .next (s.raise { event := 0x0204, severity := 0, unit := 0x0D }).takePosted

/-- The published level: the lowest of the SEQ images on all cores (R555). -/
def State.publish (s : State) : State :=
  let l := (s.runSlots 2).map (fun r => (s.image 2 r).capLevel)
  { s with service := { s.service with capLevel := l.foldl min (l.head?.getD 0) } }

/-- Replace the SEQ rollout. -/
def State.setRollout (s : State) (r : Rollout) : State :=
  { s with service := { s.service with rollouts := s.service.rollouts.map (fun (x : Rollout) => if x.kind = r.kind then r else x) } }

/-- A SEQ rollout with no core left to do ends: the image runs on every core, or the rollout has stopped (R554). -/
def State.seqDone (s : State) (r : Rollout) : State :=
  if !r.left.isEmpty || !r.taken.isEmpty then s
  else if r.failed then s.endRollout r stUpdateFailed
  else
    ((({ s with service := { s.service with running := kput s.service.running 2 r.slot, seqSlot := [] } } : State).publish).activated 2).endRollout
      r stOk

/-- MICROCODE_CORE_UPDATE (R554): the next core is taken once it is idle and its partition has fewer than ROLL_MAX taken; a core taken
ends with its self-test, keeping the new microcode or the old. -/
def execMicrocodeCoreUpdate (c : CoreId) (pass : Bool) (s : State) : Host.Outcome State Fault Refusal :=
  match s.service.rollouts.find? (fun r => r.kind = 2) with
  | none => .next s
  | some r =>
    if !s.firmware then .next s
    else if r.taken.contains c.val then
      let r := { r with taken := r.taken.filter (· ≠ c.val) }
      if pass then
        let s := { s with service := { s.service with seqSlot := kput s.service.seqSlot c r.slot } }
        .next (((s.setRollout r).publish).seqDone r).settle
      else
        let r := { r with left := [], failed := true }
        .next (((s.setRollout r).raise (s.coreEvent c 0x0208 0 0 0 1)).seqDone r).settle
    else
      let st := (s.rasOf c).state
      let same := r.taken.filter (fun d => s.partOf d = s.partOf c)
      if r.left.head? ≠ some c.val || (s.core c).cmd.isSome || s.borrowed c || !(st = 0 || st = 3 || st = 4) ||
          ((s.partOf c).isSome && r.max ≤ same.length) then .next s
      else .next (s.setRollout { r with left := r.left.tail, taken := r.taken ++ [c.val] })

/-- FAB_PORT_UPDATE (R556): the next port is fenced in order; one that carries no traffic takes the image as it stands. -/
def execFabPortUpdate (p : PortId) (s : State) : Host.Outcome State Fault Refusal :=
  match s.service.rollouts.find? (fun r => r.kind = 3) with
  | none => .next s
  | some r =>
    let st := (s.port p).state
    if !s.firmware || r.left.head? ≠ some p.val || !r.taken.isEmpty then .next s
    else if st = 4 then .next ((s.setRollout { r with taken := [p.val] }).planFence p)
    else if st = 0 || st = 6 then
      .next (({ s with service := { s.service with fabSlot := kput s.service.fabSlot p r.slot } } : State).portUpdated r p)
    else .next s

/-! ### Commitment and queries (R550, R563) -/

/-- An image forms tested pairings with those already chosen. -/
def testedWith (x : Image) (kind : Nat) (chosen : List (Nat × Image)) : Bool :=
  chosen.all (fun c => x.covers c.1 false c.2 && c.2.covers kind false x)

/-- Every pairing of a set of slots is tested. -/
def State.setTested (s : State) (set : List (Nat × Nat)) : Bool :=
  set.all (fun e => testedWith (s.image e.1 e.2) e.1 ((set.filter (fun d => d.1 < e.1)).map (fun d => (d.1, s.image d.1 d.2))))

/-- IMAGE_COMMIT: commits the running image and raises the minimum SVN. -/
def execImageCommit (f : FnId) (slot : Fin 28) (s : State) : Host.Outcome State Fault Refusal :=
  .next (s.serve f slot 0x0903 true (fun r s =>
    let k := r.u 0 1
    let run := s.runSlots k
    checks s [(k = 0 || 4 < k, stBadPattern), (run.length ≠ 1, stUpdateConflict)]
      (let slot := run.head?.getD 0
       .done { s with service := { s.service with
         committed := kput s.service.committed k slot,
         minSvn := kmod 0 s.service.minSvn k (fun n => max n (s.image k slot).svn),
         forcedSet := s.service.forced && !s.setTested ((k, slot) :: ([1, 2, 3, 4].filter (· ≠ k)).map (fun j =>
           (j, kget 0 s.service.running j))) } } stOk [])))

/-- One slot of IMAGE_QUERY's response. -/
def State.slotBytes (s : State) (kind slot : Nat) : List Byte :=
  let i := s.image kind slot
  let staging := s.service.staging.any (fun g => g.kind = kind && g.slot = slot)
  let empty := staging || i.state = 0
  leBytes 1 (if staging then 0 else i.state) ++
    leBytes 1 (b2n (!empty && kget 0 s.service.committed kind = slot) + 2 * b2n ((s.runSlots kind).contains slot)) ++ leBytes 2 0 ++
    leBytes 4 (if empty then 0 else i.version) ++ leBytes 4 (if empty then 0 else i.svn) ++ leBytes 4 0

/-- Cores that run another SEQ image than the committed one. -/
def State.coresUpdated (s : State) : Nat :=
  match kfind s.service.running 2 with
  | none => 0
  | some r => ((List.range 128).filter (fun c => (kfind s.service.seqSlot c).getD r ≠ kget 0 s.service.committed 2)).length

/-- IMAGE_QUERY. -/
def execImageQuery (f : FnId) (slot : Fin 28) (s : State) : Host.Outcome State Fault Refusal :=
  .next (s.serve f slot 0x0904 true (fun r s =>
    let k := r.u 0 1
    checks s [(k = 0 || 4 < k, stBadPattern)]
      (.done s stOk (s.slotBytes k 0 ++ s.slotBytes k 1 ++ leBytes 2 (if k = 2 then s.coresUpdated else 0)))))

/-! ### Recalibration (R557) -/

/-- RECAL. -/
def execRecal (f : FnId) (slot : Fin 28) (s : State) : Host.Outcome State Fault Refusal :=
  .next (s.serve f slot 0x0905 true (fun r s =>
    let g := r.u 0 1
    let other := match s.service.recal with | none => false | some c => c.group ≠ g || c.op.isSome
    checks s [(16 ≤ g, stBadPattern), (other, stUpdateConflict)]
      (.async (fun s id =>
        let n := match s.service.recal with | none => 0 | some c => c.slices
        { s with service := { s.service with recal := some { group := g, slices := n, op := some (f.val, id) } } }))))

/-- RECAL_SLICE: after 400 slices the group is calibrated; a group whose limit row governs is passed over. -/
def execRecalSlice (g : Fin 16) (s : State) : Host.Outcome State Fault Refusal :=
  match s.service.recal with
  | none => .next s
  | some c =>
    let p := s.clusterPower g
    if c.group ≠ g.val || p.row = 3 || !s.firmware then .next s
    else if c.slices + 1 < 400 then .next { s with service := { s.service with recal := some { c with slices := c.slices + 1 } } }
    else .next (({ s with service := { s.service with
        recal := none, groupTemp := kput s.service.groupTemp g p.dramTemp, groupCalAt := kput s.service.groupCalAt g s.refCount } } : State).opEnd
      c.op stOk [])

end Sys2Proof.Machine
end

