-- ==== Sys2Proof/Machine/Link.lean ====
section
/-! DEFINITION. The host link at work (R521 to R539): self-resets, FLRs, link training, unmasked vectors, and the host's CXL.mem
accesses with their back-invalidations. -/

namespace Sys2Proof.Machine

open Sys2Proof

/-! ### The self-reset and the FLR (R535 to R539) -/

/-- SELF_RESET (R535, R536): at the trigger the front end takes nothing more, undelivered express slots go, jobs of host-facing
contexts are killed and idle ones are torn down. A second trigger restarts only the host interface (R538). -/
def execSelfReset (cause : Fin 5) (s : State) : Host.Outcome State Fault Refusal :=
  if !s.module.powered then .next s
  else if s.link.resetAt.isSome then .next (if s.link.ifReset then s.hostReset else s)
  else
    let s : State := { s with
      link := { s.link with up := false, resetAt := some s.refCount, ifReset := false, selfResets := min 0xFFFF (s.link.selfResets + 1),
                            lastCause := cause.val + 1 },
      fns := s.fns.map (fun (e : Nat × Fn) => (e.1, { e.2 with expBusy := 0 })) }
    .next (s.loseContexts none).endDrains.settle

/-- FLR_VF (R539): the partition's host-facing contexts are torn down as in a self-reset, and the function is reset. -/
def execFlrVf (p : PartId) (s : State) : Host.Outcome State Fault Refusal :=
  if !s.link.up || (kfind s.link.flrs p).isSome then .next s
  else
    let s : State := { s with link := { s.link with flrs := kput s.link.flrs p s.refCount } }
    .next ((s.loseContexts (some p)).resetFn (1 + p)).endDrains.settle

/-- At the limit, the steps of the contexts that a reset tears down end. -/
def State.drainLimit (s : State) (p : Option Nat) : State :=
  let l := s.toTear p
  let s := l.foldl (fun s x => s.loseKinds [kindStep, kindJob] x) s
  l.foldl State.tearIdle s

/-- SELF_RESET_DRAIN_LIMIT (R536): 1 ms after the trigger the steps still running end with HOST_LINK_LOST, and the host interface is
reset. An UPDATE that has begun runs to its end, and its context is torn down then. -/
def execSelfResetDrainLimit (s : State) : Host.Outcome State Fault Refusal :=
  let s := match s.link.resetAt with
    | none => s
    | some t => if s.since t 1000 then
        let s := s.drainLimit none
        if s.link.ifReset then s else s.hostReset
      else s
  let s := s.link.flrs.foldl (fun s e => if s.since e.2 1000 then s.drainLimit (some e.1) else s) s
  .next s.endDrains.settle

/-! ### Interrupt messages (R533, R534) -/

/-- Send the messages that the PBA records, one each, as far as the function may (R534). -/
def State.sendPending (s : State) (f : Nat) : State :=
  (bitList 2048 (s.fn f).pba).foldl (fun s v =>
    let n := s.fn f
    let e := kget {} n.msixTable v
    if e.masked || !n.msixEnable || !n.busMaster then s
    else ({ s with host := { s.host with msix := ⟨f, v, e.addr, e.data⟩ :: s.host.msix } } : State).updFn f
      (fun n => { n with pba := n.pba - 2 ^ v })) s

/-- Entries of a function's MSI-X table (R533). -/
def vectors (f : Nat) : Nat := if f = 0 then 2048 else 128

/-- MSIX_UNMASK (R534): a vector is unmasked, or MSI-X is enabled, and the recorded messages are sent. -/
def execMsixUnmask (f : FnId) (vector : Option (BitVec 11)) (s : State) : Host.Outcome State Fault Refusal :=
  if !s.reach f then .next s
  else
    match vector with
    | none => .next ((s.updFn f (fun n => { n with msixEnable := true })).sendPending f)
    | some v =>
      if vectors f ≤ v.toNat then .next s
      else .next ((s.updFn f (fun n => { n with
        msixTable := kmod {} n.msixTable v.toNat (fun e => { e with masked := false }) })).sendPending f)

/-! ### Link training (R521, R522, R536, R541) -/

/-- What a function's capability structures advertise (R521). None of it changes; the control registers beside it are the host's
(log entry 9). -/
structure Capabilities where
  /-- Highest link speed, as FE_HOST_STAT codes it, and the widths ×1 to ×16. -/
  maxSpeed : Nat := 7
  widths : List Nat := [1, 2, 4, 8, 16]
  laneReversal : Bool := true
  polarityInversion : Bool := true
  maxPayload : List Nat := [128, 256, 512]
  maxReadRequest : Nat := 4096
  tagBits : List Nat := [10, 14]
  ari : Bool := true
  /-- Virtual functions of the SR-IOV capability: in the physical function only. -/
  virtualFunctions : Nat
  /-- Sizes of an ATS translation, and page request groups outstanding. -/
  atsSizes : List Nat := [2 ^ 21, 2 ^ 30]
  pageRequests : Nat := 256
  pasidBits : Nat := 20
  pasidExecute : Bool := false
  pasidPrivileged : Bool := false
  aer : Bool := true
  /-- ACS: P2P Request Redirect, Completion Redirect and Source Validation. -/
  acsRequestRedirect : Bool := true
  acsCompletionRedirect : Bool := true
  acsSourceValidation : Bool := true
  /-- DOE carries the SPDM exchanges. -/
  doe : Bool := true
  flr : Bool := true
  /-- Power states D0 and D3hot; the return from D3hot resets nothing (No_Soft_Reset). -/
  d3hot : Bool := true
  noSoftReset : Bool := true
  cxlIo : Bool := true
  cxlCache : Bool := true
  cxlMem : Bool := true
  backInvalidate : Bool := true
  hdmDecoders : Nat
  interleaveWays : Nat := 1
deriving DecidableEq, Repr

/-- The capability structures of function `f` (R521, R523, R529). -/
def capabilities (f : FnId) : Capabilities :=
  if f = 0 then { virtualFunctions := 16, hdmDecoders := 2 } else { virtualFunctions := 0, hdmDecoders := 0 }

/-- Flit mode: required from 64 GT/s on (R521). -/
def flitMode (speed : Nat) (flit : Bool) : Bool := flit || 6 ≤ speed

/-- CXL.mem and CXL.cache need 256-byte flits on a link of ×4 or wider at 32 GT/s or faster (R521, R522). -/
def cxlRuns (speed width : Nat) (flit : Bool) : Bool := 5 ≤ speed && 2 ≤ width && flitMode speed flit

/-- HOST_LINK_UP (R536): the link has trained, with what the host sets up in configuration space, its page tables, and the lines of its
memory that carry CXL poison (R594; log entry 9). -/
def execHostLinkUp (speed : Fin 8) (width : Fin 5) (flit : Bool) (busMaster msixEnable : BitVec 17) (pages : List HostPage) (s : State)
    (poisoned : List Nat := []) : Host.Outcome State Fault Refusal :=
  if !s.module.powered || s.module.perst || speed.val = 0 then .next s
  else if s.link.resetAt.isSome && (!s.link.ifReset || !(s.toTear none).isEmpty) then .next s
  else
    let cxl := cxlRuns speed width flit
    let s : State := { s with
      link := { s.link with up := true, speed := speed, width := width, flit := flitMode speed flit, cxlMem := cxl, cxlCache := cxl,
                            resetAt := none, ifReset := false },
      host := { s.host with pages := pages, poison := poisoned.foldl (fun m l => kset false m l true) [] } }
    .next ((List.range 17).foldl (fun s f =>
      (s.updFn f (fun n => { n with busMaster := busMaster.getLsbD f, msixEnable := msixEnable.getLsbD f })).sendPending f) s).settle

/-! ### Host accesses to device memory (R529, R530) -/

/-- The device offset behind a host address (R529). -/
def State.hdmAddr (s : State) (hpa : Nat) : Option Nat :=
  (s.link.hdm.find? (fun e => e.2.committed && e.2.hpa ≤ hpa && hpa < e.2.hpa + e.2.size)).map (fun e => e.2.base + (hpa - e.2.hpa))

/-- Lines that the snoop filter records (R530). -/
def snoopSize : Nat := 131072

/-- Record that the host holds a line; a full filter back-invalidates its oldest entry (R530). -/
def State.recordHeld (s : State) (w : Nat) : State :=
  let s := if s.link.snoop.contains w || s.link.snoop.length < snoopSize then s
    else match s.link.snoop with
      | [] => s
      | o :: _ => s.backInvalidate { line := o, cmd := 0, data := List.replicate 64 0, mask := List.replicate 64 false, info := {} }
  { s with link := { s.link with snoop := s.link.snoop.erase w ++ [w] } }

/-- An access outside both decoders is answered as unsupported and reaches nothing of the part (R529). -/
def State.answerUnsupported (s : State) (hpa : Nat) : State :=
  { s with host := { s.host with unsupported := hpa :: s.host.unsupported } }

/-- CXL_MEM_READ (R467, R469, R530): the line as it stands in device memory, with CXL data poison where it is poisoned. A read that
takes a copy waits for a back-invalidation of the line. `errs` symbols of it are wrong (log entry 15). -/
def execCxlMemRead (hpa errs : Nat) (keep : Bool) (s : State) : Host.Outcome State Fault Refusal :=
  if !s.link.cxlMem then .next s
  else
    match s.hdmAddr hpa with
    | none => .next (s.answerUnsupported hpa)
    | some a =>
      let w := a / 64
      if keep && s.link.pendingInv.any (fun b => b.line = w) then .next s
      else
        let s := (s.placeErrs (64 * w) errs).readCodeword w
        let bad := (kget {} s.mem.info w).poison
        let s := if bad then s.consume { event := 0, unit := 0x0B, addr := s.pool.partId * devSize + 64 * w } else s
        let s := { s with host := { s.host with lines := (readBytes s.mem.bytes (64 * w) 64, bad) :: s.host.lines } }
        .next (if keep then s.recordHeld w else s)

/-- CXL_MEM_WRITE (R461, R469, R530): the host writes a line, or the bytes of it that `mask` names, and holds it no longer. The codeword
becomes plain; its poison stays unless the whole line is written. -/
def execCxlMemWrite (hpa : Nat) (bytes : List Byte) (mask : BitVec 64) (s : State) : Host.Outcome State Fault Refusal :=
  if !s.link.cxlMem then .next s
  else
    match s.hdmAddr hpa with
    | none => .next (s.answerUnsupported hpa)
    | some a =>
      let w := a / 64
      let old := readBytes s.mem.bytes (64 * w) 64
      let line := (List.range 64).map (fun i => if mask.getLsbD i then nthD 0 bytes i else nthD 0 old i)
      let s := s.storeDev (64 * w) line (fun _ old => { poison := old.poison && mask ≠ BitVec.allOnes 64 })
      .next { s with link := { s.link with snoop := s.link.snoop.erase w } }

/-- BACK_INVALIDATE_RESPONSE (R530): the host's dirty line, if any, then the part's writes that waited, become visible. -/
def execBackInvalidateResponse (line : Nat) (dirty : Option (List Byte)) (s : State) : Host.Outcome State Fault Refusal :=
  let waits := s.link.pendingInv.filter (fun b => b.line = line)
  if waits.isEmpty then .next s
  else
    let s := match dirty with
      | none => s
      | some bs => s.storeDev (64 * line) ((bs ++ List.replicate 64 0).take 64) (fun _ _ => {})
    let s := { s with link := { s.link with pendingInv := s.link.pendingInv.filter (fun b => b.line ≠ line) } }
    .next ((waits.foldl (fun s b => b.land s) s).ackLanded waits)

/-- End of what the decoders may map: the range below lies in whole units of 256 MiB, and what is above holds the capture area and
the window backing (R525, R529, R545). -/
def hdmEnd : Nat := 0x3FE0000000

/-- HDM_DECODER_COMMIT (R529). -/
def execHdmDecoderCommit (i : Fin 2) (base size hpa : Nat) (s : State) : Host.Outcome State Fault Refusal :=
  if !s.link.up then .next s
  else
    let bad := base % 2 ^ 28 ≠ 0 || size % 2 ^ 28 ≠ 0 || hdmEnd < base + size
    .next { s with link := { s.link with hdm := kput s.link.hdm i ⟨base, size, hpa, !bad, bad⟩ } }

end Sys2Proof.Machine
end

