-- ==== Sys2Proof/Machine/BringUp.lean ====
section
/-! DEFINITION. Bring-up and resets (R542 to R549), capability records, identity and part control (R562, R563), PERST# and PRESENT
(R584, R587). -/

namespace Sys2Proof.Machine

open Sys2Proof

/-! ### Boot (R542, R550) -/

/-- A slot holds a VALID image at or above the minimum SVN. -/
def State.bootValid (s : State) (kind slot : Nat) : Bool :=
  (s.image kind slot).state = 1 && kget 0 s.service.minSvn kind ≤ (s.image kind slot).svn

/-- The slot of a kind that boots beside those chosen: the committed one, else the other (R550); a set that was activated with FORCE
boots untested on a part whose debug fuse is blown (R552). -/
def State.bootSlot (s : State) (kind : Nat) (chosen : List (Nat × Image)) : Option Nat :=
  let c := kget 0 s.service.committed kind
  let forced := s.service.debugFuse && s.service.forcedSet
  [c, 1 - c].find? (fun r => s.bootValid kind r && (testedWith (s.image kind r) kind chosen || (forced && r = c)))

/-- The slots that boot, kind by kind: CP, SEQ, FAB, PWR (R550). -/
def State.bootSet (s : State) : List Nat → List (Nat × Image) → List (Nat × Nat)
  | [], _ => []
  | k :: ks, chosen =>
    match s.bootSlot k chosen with
    | none => s.bootSet ks chosen
    | some r => (k, r) :: s.bootSet ks (chosen ++ [(k, s.image k r)])

/-- From the 10 ms row of R542 on: images are chosen and started, a stored trip and fallbacks are reported, and the mailboxes open in
reduced service, or in RECOVERY. -/
def State.boot (s : State) : State :=
  let set := s.bootSet [1, 2, 3, 4] []
  let whole := set.length = 4
  let forced := whole && !s.setTested set
  let running := set.foldl (fun (m : KMap Nat) e => kput m e.1 e.2) []
  let s := { s with service := { s.service with state := if whole then 1 else 4, running := running, forced := forced || s.service.forced } }
  let s := if whole then s.takeFirm.publish else s
  let s := (List.range 16).foldl (fun s k => s.updClusterPower k (fun c => { c with point := 3, wantPoint := none })) s
  let s := match s.module.tripRec with
    | none => s
    | some t => ({ s with module := { s.module with tripRec := none } } : State).raise
        { event := 0x0105, severity := 1, unit := 0x0C, cluster := t.cluster,
          detail := leBytes 1 t.sensor ++ leBytes 1 (unsign 8 t.temp) ++ leBytes 8 t.time }
  let s := set.foldl (fun s e =>
    if e.2 = kget 0 s.service.committed e.1 then s
    else s.raise { event := 0x0201, severity := 0, unit := 0x0D, detail := leBytes 1 e.1 }) s
  if forced then s.raise { event := 0x0207, severity := 3, unit := 0x0D } else s

/-- Boot, unless PERST# holds the part at the 10 ms row (R584). -/
def State.bootOrHold (s : State) : State :=
  if s.module.perst then { s with module := { s.module with heldAt10 := true } } else s.boot

/-- A PWR image that waits for a power-on is committed there (R556). -/
def Service.takePwr (v : Service) : Service :=
  let other := 1 - kget 0 v.committed 4
  if v.pwrPending && (kget {} v.images (8 + other)).state = 1 then { v with pwrPending := false, committed := kput v.committed 4 other }
  else { v with pwrPending := false }

/-- POWER_ON (R542): 54 V rises through 36 V; an open latch keeps the input open (R513). -/
def execPowerOn (s : State) : Host.Outcome State Fault Refusal :=
  if s.module.powered || s.module.latch then .next s
  else
    let s := s.powerOff
    .next ({ s with module := { s.module with powered := true, inputOpen := false, trip := false, present := true },
                    service := s.service.takePwr } : State).bootOrHold

/-! ### Full reset and PERST# (R547, R584) -/

/-- An offset in the capture area (R545). -/
def inCapture (a : Nat) : Bool := 0x3FEC000000 ≤ a && a < 0x3FF0000000

/-- Everything that a full reset clears is cleared (R547): the capture area with the CPER sequence, the power controller, the reference
counter, flash and fuses stay, and so do the source sequence counter (R195) and FORCED, which only a power-on ends (R552). -/
def State.clearAll (s : State) : State :=
  let off := s.powerOff
  { off with
    service := { off.service with forced := s.service.forced },
    refCount := s.refCount, power := s.power, ras := { nextSeq := s.ras.nextSeq }, epochs := { srcSeq := s.epochs.srcSeq },
    module := { off.module with powered := true, inputOpen := false, mgmtPtr := s.module.mgmtPtr },
    mem := { bytes := s.mem.bytes.filter (fun e => inCapture e.1), info := s.mem.info.filter (fun e => inCapture (64 * e.1)),
             symErr := s.mem.symErr.filter (fun e => inCapture (64 * e.1)) } }

/-- A full reset (R547). -/
def State.fullReset (s : State) : State := if s.module.powered then s.clearAll.bootOrHold else s

/-- FULL_RESET (R547). -/
def execFullReset (s : State) : Host.Outcome State Fault Refusal := .next s.fullReset

/-- PERST_ASSERT (R584): a full reset, which goes on from the 10 ms row once PERST# is released. -/
def execPerstAssert (s : State) : Host.Outcome State Fault Refusal :=
  if s.module.perst then .next s
  else
    let s := { s with module := { s.module with perst := true } }
    .next (if s.module.powered && !s.module.heldAt10 then s.fullReset else s)

/-- PERST_RELEASE (R584). -/
def execPerstRelease (s : State) : Host.Outcome State Fault Refusal :=
  let held := s.module.heldAt10
  let s := { s with module := { s.module with perst := false, heldAt10 := false } }
  .next (if held then s.boot else s)

/-- PRESENT_OPEN (R587): the input opens as for a lock-out. -/
def execPresentOpen (s : State) : Host.Outcome State Fault Refusal :=
  if !s.module.powered then .next { s with module := { s.module with present := false } }
  else .next { s.powerOff with module := { s.powerOff.module with trip := true, present := false } }

/-! ### Calibration and full service (R544, R546) -/

/-- A unit that failed calibration is reported (R546). -/
def State.degraded (s : State) (unit cluster : Nat) : State := s.raise { event := 0x0202, severity := 0, unit := unit, cluster := cluster }

/-- One cluster's calibration has ended at its highest passing point, 4 for none (R546). -/
def State.calibrated (s : State) (k best : Nat) : State :=
  let s := s.updClusterPower k (fun c => { c with best := min 3 best })
  let s := if best = 0 then s else s.degraded 0 k
  if best < 4 then s else (coresOf k).foldl (fun s c => s.decideFence c 2) s

/-- CLUSTER_PAIR_CALIBRATED (R544): clusters `k` and `k + 8` of the pair in hand; channel groups train meanwhile (R542). -/
def execClusterPairCalibrated (best best8 : Fin 5) (s : State) : Host.Outcome State Fault Refusal :=
  let k := s.service.pair
  if s.service.state ≠ 1 || 8 ≤ k then .next s
  else
    let s := (s.calibrated k best).calibrated (k + 8) best8
    .next ({ s with service := { s.service with pair := k + 1, clustersCal := 2 * (k + 1), groupsCal := 16 } } : State).settle

/-- FULL_SERVICE_ENTRY (R544, R546): every cluster runs at the best point it passed, unless it is derated; ACTIVE ports whose neighbours
are in full service (`peers`) are retrained, one at a time; `slow` names the groups that stay at the reduced rate. Operations that a CP
restart has left are resumed (R217). -/
def execFullServiceEntry (slow : BitVec 16) (peers : BitVec 6) (s : State) : Host.Outcome State Fault Refusal :=
  if s.service.state ≠ 1 || s.service.pair < 8 then .next s
  else
    let s := (List.range 16).foldl (fun s k =>
      s.updClusterPower k (fun c => if 2 ≤ c.row then c else { c with point := c.best, wantPoint := none })) s.accrue
    let now := s.refCount
    let s := { s with
      ras := { s.ras with vigilBase := now },
      service := { s.service with
        state := 2, slowGroups := slow.toNat,
        groupTemp := (List.range 16).map (fun k => (k, (s.clusterPower k).dramTemp)),
        groupCalAt := (List.range 16).map (fun k => (k, now)),
        retrain := (List.range 6).filter (fun q => peers.getLsbD q && (s.port q).state = 4) } }
    let s := (bitList 16 slow.toNat).foldl (fun s g => s.degraded 0x09 g) s
    let s := State.nextRetrain 6 s
    .next (if s.service.resumeDue then ({ s with service := { s.service with resumeDue := false } } : State).resumeOps else s).settle

/-! ### CP restart (R547 to R549) -/

/-- A CP restart begins; a PART_RESET waits for its end. -/
def State.beginRestart (s : State) (op : Option (Nat × Nat)) : State :=
  { s with service := { s.service with state := 3, resume := s.service.state, restart := some s.refCount, restartOp := op } }

/-- CP_WATCHDOG (R547). -/
def execCpWatchdog (s : State) : Host.Outcome State Fault Refusal :=
  if s.service.state = 0 || s.service.state = 3 then .next s else .next (s.beginRestart none)

/-- What R549 says of firmware's own operations after a CP restart. -/
def State.resumeFirmware (s : State) : State :=
  let s := match s.service.swap with
    | none => s
    | some w =>
      let t := { s with service := { s.service with swap := none } }
      match w.swapAt with
      | none => t.opEnd (some (w.fn, w.opId)) stUpdateFailed []
      | some _ => (({ t with service := { t.service with running := kput t.service.running 1 w.slot } } : State).activated 1).opEnd
          (some (w.fn, w.opId)) stOk []
  let s : State := { s with service := { s.service with recal := s.service.recal.map (fun (c : Recal) => { c with slices := 0 }) } }
  let s := if s.pool.join.isSome then s.sendJoin else s
  s.resumeWhenFull

/-- CP_RESTART (R548): the restart ends; requests that stand POSTED are taken, held notices are written, and operations go on. -/
def execCpRestart (s : State) : Host.Outcome State Fault Refusal :=
  if s.service.state ≠ 3 then .next s
  else
    let op := s.service.restartOp
    let s := { s with service := { s.service with state := s.service.resume, restart := none, restartOp := none } }
    let s := (s.resumeFirmware).raise { event := 0x0203, severity := 0, unit := 0x0D }
    let s := match op with
      | none => s
      | some (f, k) => if (s.fn f).serving k && (s.req f k).opcode = 0x0104 then s.respond (s.req f k) stOk [] false else s
    let s := (List.range 17).foldl State.postAllHeld s
    .next s.takePosted.settle

/-! ### Part control (R562, R563) -/

/-- The capability values of R562 from key 1 on. -/
def capValues : List Nat :=
  [128, 16, 256, 64, 1024, 256, 64, 64, 2 ^ 38, 2 ^ 21, 65536, 2 ^ 23, 512, 256, 512, 2 ^ 20, 2 ^ 18, 6, 1024, 10, 3600000000, 64, 32, 16,
   2 ^ 16, 2 ^ 24, 256]

/-- Value of a capability key. -/
def State.capValue (s : State) (key : Nat) : Option Nat := if key = 0 then some s.service.capLevel else capValues[key - 1]?

/-- CAP_READ. -/
def execCapRead (f : FnId) (slot : Fin 28) (s : State) : Host.Outcome State Fault Refusal :=
  .next (s.serve f slot 0x0101 false (fun r s =>
    let vs := (List.range 28).map (fun i => s.capValue (r.u 0 2 + i))
    .done s stOk (leBytes 4 (bitMask ((List.range 28).filter (fun i => (nthD none vs i).isSome))) ++ leBytes 4 0 ++
      vs.flatMap (fun v => leBytes 8 (v.getD 0)))))

/-- "SVZ5-M1200" in ASCII, padded (R563). -/
def productName : List Byte :=
  [0x53, 0x56, 0x5A, 0x35, 0x2D, 0x4D, 0x31, 0x32, 0x30, 0x30, 0, 0, 0, 0, 0, 0]

/-- Version of an image that runs, 0 where none does. -/
def State.runVersion (s : State) (kind : Nat) (pick : Nat → Nat → Nat) : Nat :=
  let l := (s.runSlots kind).map (fun r => (s.image kind r).version)
  l.foldl pick (l.head?.getD 0)

/-- PART_IDENTITY; the identity public key's digest is the ROM's (log entry 14). -/
def execPartIdentity (f : FnId) (slot : Fin 28) (s : State) : Host.Outcome State Fault Refusal :=
  .next (s.serve f slot 0x0102 false (fun _ s =>
    .done s stOk (leBytes 8 Config.serial ++ productName ++ leBytes 1 0x11 ++
      leBytes 1 (b2n s.service.debugFuse + 2 * b2n s.service.forced) ++ leBytes 2 0 ++ leBytes 4 (s.runVersion 1 min) ++
      leBytes 4 (s.runVersion 2 min) ++ leBytes 4 (s.runVersion 2 max) ++ leBytes 4 (s.runVersion 3 min) ++ leBytes 4 (s.runVersion 4 min) ++
      leBytes 64 (Config.digest 1 []))))

/-- Buckets that this part owns (R563). -/
def State.ownedBuckets (s : State) : Nat :=
  ((s.tables.filter (fun e => e.2.state ≠ 0)).map (fun e => (e.2.shard.filter (fun b => shOwner b.2 = s.pool.partId)).length)).sum

/-- PART_QUERY. -/
def execPartQuery (f : FnId) (slot : Fin 28) (s : State) : Host.Outcome State Fault Refusal :=
  .next (s.serve f slot 0x0103 false (fun _ s =>
    .done s stOk (leBytes 1 s.service.state ++ leBytes 1 s.service.clustersCal ++ leBytes 1 s.service.groupsCal ++ leBytes 1 0 ++
      leBytes 4 s.ownedBuckets ++ leBytes 4 (s.epochs.held.filter (fun h => h.active)).length ++
      leBytes 1 (match s.service.recal with | none => 0xFF | some c => c.group))))

/-- PART_RESET: KIND 0 is answered after the restart, KIND 1 is not answered. -/
def execPartReset (f : FnId) (slot : Fin 28) (s : State) : Host.Outcome State Fault Refusal :=
  .next (s.serve f slot 0x0104 true (fun r s =>
    checks s [(1 < r.u 0 1, stBadPattern)]
      (.wait (if r.u 0 1 = 0 then s.beginRestart (some (f.val, slot.val)) else s.fullReset))))

end Sys2Proof.Machine
end

