-- ==== Sys2Proof/Machine/Registers.lean ====
section
/-! DEFINITION. The registers of BAR0 (R568 to R581): what each reads as, and the writes and clearing reads that act. -/

namespace Sys2Proof.Machine

open Sys2Proof

/-! ### What registers read as -/

/-- FE_HOST_STAT (R541). -/
def State.hostStat (s : State) : Nat :=
  s.link.selfResets * 2 ^ 48 + s.link.lastCause * 2 ^ 40 + b2n s.link.cxlCache * 2 ^ 10 + b2n s.link.cxlMem * 2 ^ 9 +
    b2n s.link.flit * 2 ^ 8 + s.link.width * 2 ^ 5 + s.link.speed

/-- FE_SERVICE_STAT (R567). -/
def State.serviceStat (s : State) : Nat :=
  let v := s.service
  s.runVersion 1 min * 2 ^ 32 + v.clustersCal * 2 ^ 19 + v.groupsCal * 2 ^ 14 + kget 0 v.running 1 * 2 ^ 9 + b2n v.debugFuse * 2 ^ 8 + v.state

/-- FE_IDENTITY (R576). -/
def State.identity (s : State) (f : Nat) : Nat :=
  s.pool.partId * 2 ^ 54 + 0x11 * 2 ^ 40 + f * 2 ^ 32 + 0x5A35 * 2 ^ 16 + s.service.capLevel

/-- SCH_PART_STAT (R406). -/
def State.partStat (s : State) (p : Nat) : Nat :=
  let q := s.part p
  let fenced := (bitList 128 q.mask).filter s.fenced
  q.turn.getD 0 * 2 ^ 56 + (s.ctxsOf p).length * 2 ^ 40 + (s.residents p).length * 2 ^ 24 + fenced.length * 2 ^ 16 +
    (s.availableCores p).length * 2 ^ 8 + ((List.range 128).filter (fun c => q.mask.testBit c != q.target.testBit c)).length

/-- Number of cores in a state of R474. -/
def State.coresIn (s : State) (st : Nat) : Nat := ((List.range 128).filter (fun c => (s.rasOf c).state = st)).length

/-- RAS_STAT (R494). -/
def State.rasStat (s : State) : Nat :=
  s.coresIn 1 * 2 ^ 48 + s.coresIn 4 * 2 ^ 40 + s.coresIn 3 * 2 ^ 32 + s.coresIn 2 * 2 ^ 24 + s.ras.captures.length * 2 ^ 16 + s.ras.unread

/-- RAS_CORE_STATE_n (R494). -/
def State.rasCoreState (s : State) (n : Nat) : Nat := ((List.range 16).map (fun j => s.coreState (16 * n + j) * 2 ^ (4 * j))).sum

/-- PWR_STAT (R519). -/
def State.pwrStat (s : State) : Nat :=
  let p := s.power
  b2n p.stall * 2 ^ 52 + b2n p.tlmLost * 2 ^ 51 + min 2047 (p.effective / 1000) * 2 ^ 40 + min 2047 (p.window / 1000) * 2 ^ 29 +
    min 1023 (p.vin / 100) * 2 ^ 19 + min 4095 (p.iin / 100) * 2 ^ 7 + s.dutyMax

/-- PWR_CLUSTER_k (R519). -/
def State.pwrCluster (s : State) (k : Nat) : Nat :=
  let c := s.clusterPower k
  b2n (c.row = 3) * 2 ^ 34 + b2n (c.row = 2) * 2 ^ 33 + b2n (c.row = 1) * 2 ^ 32 + unsign 8 c.dramTemp * 2 ^ 24 +
    unsign 8 c.logicTemp * 2 ^ 16 + c.point * 2 ^ 8 + (coresOf k).foldl (fun m d => max m (s.dutyOf d)) 0

/-- FAB_PORT_STAT (R315). -/
def Port.stat (p : Port) : Nat := p.fences * 2 ^ 32 + p.cause * 2 ^ 16 + b2n p.full * 2 ^ 8 + p.state

/-- CDW_CVT_FLAGS (R64). -/
def State.cvtFlags (s : State) (c : Nat) : Nat :=
  (s.core c).cvt + b2n ((((s.core c).cmd.bind s.cmd?).map (·.ties)).getD false)

/-- CDW_GATHER_STAT (R109). -/
def State.gatherStat (s : State) (c : Nat) : Nat :=
  let k := s.core c
  let es := k.gathers.flatMap (·.entries)
  es.length * 2 ^ 32 + min 256 k.transfers * 2 ^ 16 + b2n (s.gatherStalled c) * 2 + b2n (!k.qGather.isEmpty)

/-- CDW_MX_STAT (R255): an operation streams in one row, so that PASS, CUR_SLOT and LOADING read 0 between rows (log entry 13). -/
def Core.mxStat (k : Core) : Nat :=
  let bits := fun (v : Nat) => bitMask ((List.range 16).filter (fun i => (kget {} k.mx.slots i).kind = v))
  bits 1 * 2 ^ 48 + k.mx.held % 65536 * 2 ^ 32 + bits 2 * 2 ^ 16 + b2n (k.qMatrix.any (fun q => q.phase ≠ 0)) * 4 + b2n (!k.qMatrix.isEmpty)

/-- Elements that the program at the head has not issued: those beyond the slots its ACC streams have read; none once it has run, and
none for a ring program (R287). -/
def Core.vxLeft (k : Core) (q : QDesc) : Nat :=
  let d := parseVec q.bytes
  let accs := (streamsOf d (q.streams.map (·.2))).filter (fun e => e.2.kind = 2)
  let blocks := (List.range (cdiv (progRows d.count d.rowLen) 64)).filter (fun b =>
    accs.all (fun e => (kfind k.vx.read (e.2.base % 16 + b)).isSome))
  if q.ring || d.builtin = 1 || k.vx.sent then 0
  else if accs.isEmpty then d.count else d.count - 64 * d.rowLen * blocks.length

/-- CDW_VX_STAT (R287): a program issues in one row once its slots are read, so that PC reads 0 between rows (log entry 13). -/
def Core.vxStat (k : Core) : Nat :=
  match k.qVector with
  | [] => 0
  | q :: _ =>
    let d := parseVec q.bytes
    let picot := !q.ring && (d.builtin = 1 || (streamsOf d (q.streams.map (·.2))).any (fun e => e.2.picot ≠ 0))
    k.vxLeft q % 8192 * 2 ^ 32 + k.vx.slot % 16 * 2 ^ 16 + b2n picot * 2 ^ 4 + b2n q.ring * 2 ^ 3 +
      b2n ((k.set k.ctx).waiters.any (fun w => w.unit = 2)) * 2 ^ 2 + b2n (k.vx.waitSlot && k.mx.held.testBit k.vx.slot) * 2 + 1

/-- CDW_SEQ_STAT (R343). -/
def State.seqStat (s : State) (c : Nat) : Nat :=
  let k := s.core c
  let q := k.seq
  let full := b2n (k.qGather.length = 8) + 2 * b2n (k.qMove.length = 8) + 4 * b2n (k.qMatrix.length = 8) + 8 * b2n (k.qVector.length = 8)
  let enqs := ((k.cmd.bind s.cmd?).map (fun m => (m.enqs.filter (fun r => r.rank = k.rank)).length)).getD 0
  q.pc % 2048 * 2 ^ 48 + q.waitId % 256 * 2 ^ 32 + q.wait * 2 ^ 28 + full * 2 ^ 16 + min 16 enqs * 2 ^ 8 + b2n q.valid1 * 8 + b2n q.valid0 * 4 +
    b2n q.ended * 2 + b2n q.active

/-- CDW_BOB_CTL (R141) and CDW_BOB_EPOCH (R142). -/
def Slice.ctl (v : Slice) : Nat :=
  v.prefMax * 2 ^ 24 + v.agePeriod * 2 ^ 16 + v.prefEvictMax * 2 ^ 8 + b2n v.prefRemote * 4 + b2n v.prefEn * 2 + b2n v.enable
def Slice.epochReg (v : Slice) : Nat := b2n v.applying * 2 ^ 63 + v.epoch % 2 ^ 40

/-- A tag as R115 lays it out; an invalid way reads 0. -/
def Slice.tagBits (v : Slice) (sel : Nat) : Nat :=
  match kfind v.tags sel with
  | none => 0
  | some g => 2 ^ 127 + b2n g.isLocal * 2 ^ 126 + b2n g.pref * 2 ^ 125 + g.tier * 2 ^ 122 + (g.units - 1) * 2 ^ 118 + g.first * 2 ^ 113 +
      g.freq * 2 ^ 109 + g.age * 2 ^ 106 + g.row * 2 ^ 56 + g.table * 2 ^ 40 + g.epoch % 2 ^ 40

/-- CDW_EXU_CTL (R183) and CDW_EXU_STAT (R184). -/
def Exchange.ctl (x : Exchange) : Nat := x.replyTimeout * 2 ^ 32 + x.batchMax * 2 ^ 16 + x.batchAge
def State.exuStat (s : State) (k : Nat) : Nat :=
  (s.exch k).slots.length * 2 ^ 32 + min 1024 (s.exch k).openCount * 2 ^ 16 + b2n (s.exchStalled k)

/-- The front end waits on a tally for a free express cell (R368, R429). -/
def State.expressWaits (s : State) (c x i : Nat) : Bool :=
  s.fns.any (fun e => (List.range 16).any (fun k =>
    e.2.expBusy.testBit k && (match kfind e.2.chans (e.2.expU k 0 1) with
      | none => false
      | some ch => ch.ctx = x && ch.free = i && ch.rank = (s.core c).rank &&
          ch.cells ≤ ch.count - (kget {} ((s.core c).set x).tallies ch.free).value)))

/-- CDW_SYNC_VAL, CDW_SYNC_WAIT and CDW_SYNC_TARGET of a selection on a core, for a function (R429, R430). -/
def State.syncRead (s : State) (f c sel : Nat) : Nat × Nat × Nat :=
  let x := bitsOf sel 23 16
  let i := sel % 256
  let k := s.core c
  let mine := k.cmd.isSome && k.ctx = x
  if f ≠ 0 && ((s.ctx x).phase = 0 || (s.ctx x).part + 1 ≠ f) then (0, 0, 0)
  else
    match kfind k.sync x with
    | none => (2 ^ 62, 0, 0)
    | some g =>
      if bitAt sel 8 then
        if 64 ≤ i then (0, 0, 0)
        else
          let p := g.pair i
          let seq := mine && k.seq.wait = 2
          let bits := fun (side : Nat) => bitMask ((g.waiters.filter (fun w => w.pair = i && w.side = side && (w.unit ≠ 0 || seq))).map (·.unit))
          (b2n p.sat * 2 ^ 63 + p.consSrc * 2 ^ 51 + p.prodSrc * 2 ^ 48 + p.held * 2 ^ 32 + p.cons * 2 ^ 16 + p.prod, bits 1 * 2 ^ 8 + bits 0, 0)
      else
        let t := kget {} g.tallies i
        let seq := mine && k.seq.wait = 3 && k.seq.waitId = i
        (b2n t.sat * 2 ^ 63 + t.src * 2 ^ 48 + t.value % 2 ^ 48, b2n seq + 8 * b2n (s.expressWaits c x i), if seq then k.seq.target else 0)

/-- Registers of a debug window, by offset in the window (R580). -/
def windowRegs : List Nat :=
  [0x100, 0x140, 0x148, 0x200, 0x208, 0x240, 0x248, 0x250, 0x258, 0x300, 0x340, 0x348, 0x350, 0x358, 0x400, 0x408, 0x500, 0x508, 0x510, 0x518,
   0x8000, 0x8008, 0x8010, 0x8018, 0x8020, 0x8040, 0x8048, 0x8050, 0x8058, 0x8060, 0x8068, 0x8070, 0x8078, 0x8080, 0x8088, 0x8090,
   0x8100, 0x8108, 0x8140, 0x8148, 0x8150, 0x8158, 0x8160, 0x8168, 0x8170, 0x8178]

/-- A core's window is a function's to see (R572). -/
def State.windowOf (s : State) (f c : Nat) : Bool := f = 0 || (s.part (f - 1)).mask.testBit c

/-- A register of core `c`'s debug window, reads that clear or latch apart (R572, R580). -/
def State.windowValue (s : State) (f c o : Nat) : Nat :=
  let k := s.core c
  let n := s.fn f
  let v := s.slice (clusterOf c)
  let x := s.exch (clusterOf c)
  if !s.windowOf f c || (f ≠ 0 && 0x8000 ≤ o) || !windowRegs.contains o then 0
  else if o = 0x100 then s.cvtFlags c
  else if o = 0x140 then s.gatherStat c
  else if o = 0x148 then k.oor
  else if o = 0x200 then k.mxStat
  else if o = 0x208 then k.mx.residue
  else if o = 0x300 then k.vxStat
  else if o = 0x400 then s.seqStat c
  else if o = 0x408 then k.seqFault
  else if o = 0x500 then kget 0 n.syncSel c
  else if o = 0x508 then (s.syncRead f c (kget 0 n.syncSel c)).1
  else if o = 0x510 then (kget (0, 0, 0) n.syncLatch c).2.1
  else if o = 0x518 then (kget (0, 0, 0) n.syncLatch c).2.2
  else if o = 0x8000 then v.ctl
  else if o = 0x8008 then v.epochReg
  else if o = 0x8010 then kget 0 n.bobSel (clusterOf c)
  else if o = 0x8018 then v.tagBits (kget 0 n.bobSel (clusterOf c)) % 2 ^ 64
  else if o = 0x8020 then kget 0 n.bobLatch (clusterOf c) / 2 ^ 64
  else if o < 0x8000 then kget 0 k.counters o
  else if o < 0x8100 then kget 0 v.counters (o - 0x8000)
  else if o = 0x8100 then x.ctl
  else if o = 0x8108 then s.exuStat (clusterOf c)
  else kget 0 x.counters (o - 0x8000)

/-- The registers that R579 and R580 list, by offset in BAR0; mailbox slots, MSI-X table and PBA apart. -/
def regListed (o : Nat) : Bool :=
  o % 8 = 0 &&
    (o < 0x30 || (0x1000 ≤ o && o < 0x5000) || (0x102000 ≤ o && o < 0x102020) || (0x200000 ≤ o && o < 0x202000) ||
      (0x204000 ≤ o && o < 0x204200 && o % 0x20 ≠ 0x18) || (0x300000 ≤ o && o < 0x300010) || (0x300040 ≤ o && o < 0x300078) ||
      (0x400000 ≤ o && o < 0x400010) || (0x400100 ≤ o && o < 0x400140) || (0x400200 ≤ o && o < 0x400280) || o = 0x500000 ||
      (0x500100 ≤ o && o < 0x500180) || (0x500200 ≤ o && o < 0x500230) || (0x600000 ≤ o && o < 0x600180) ||
      (0x1000000 ≤ o && o < 0x1800000 && windowRegs.contains (o % 0x10000)))

/-- Partition or context behind an SCH register, which only its own virtual function reads (R405, R406). -/
def State.schPart (s : State) (o : Nat) : Option Nat :=
  if o < 0x204000 then (if (s.ctx ((o - 0x200000) / 0x20)).phase = 0 then none else some (s.ctx ((o - 0x200000) / 0x20)).part)
  else some ((o - 0x204000) / 0x20)

/-- A listed register that reads 0 through a virtual function (R568, R572, R578). -/
def State.readsZero (s : State) (f o : Nat) : Bool :=
  f ≠ 0 &&
    (o = 0x28 || (0x200000 ≤ o && o < 0x300000 && s.schPart o ≠ some (f - 1)) || (0x300008 ≤ o && o < 0x600000) ||
      (0x1000000 ≤ o && (!s.windowOf f ((o - 0x1000000) / 0x10000) || 0x8000 ≤ o % 0x10000)))

/-- SCH registers (R405, R406). -/
def State.schValue (s : State) (o : Nat) : Nat :=
  let i := (o % 0x4000) / 0x20
  let h := o % 0x20 / 8
  if o < 0x204000 then
    if h = 0 then s.ctxState i else if h = 1 then (s.ctx i).place % 2 ^ 64 else if h = 2 then (s.ctx i).place / 2 ^ 64 else (s.ctx i).since
  else if h = 0 then (s.part i).mask % 2 ^ 64 else if h = 1 then (s.part i).mask / 2 ^ 64 else s.partStat i

/-- What an 8-byte read of the mailbox slots, the MSI-X table or the PBA returns through a function (R362, R524, R533, R534): entries
beyond the function's table read 0. -/
def State.tableValue (s : State) (f o : Nat) : Option Nat :=
  let n := s.fn f
  if 0x100000 ≤ o && o < 0x102000 then some (leNat (readBytes n.mb (o - 0x100000) 8))
  else if 0x800000 ≤ o && o < 0x880000 then
    let i := (o - 0x800000) / 16
    let e := kget {} n.msixTable i
    some (if vectors f ≤ i then 0 else if o % 16 < 8 then e.addr else e.data + b2n e.masked * 2 ^ 32)
  else if 0x880000 ≤ o && o < 0x900000 then some (n.pba / 2 ^ (8 * (o - 0x880000)) % 2 ^ 64)
  else none

/-- What an 8-byte read of a register returns through a function, clearing and latching apart (R570, R571, R579). -/
def State.regValue (s : State) (f o : Nat) : Nat :=
  let n := s.fn f
  if o % 8 = 0 && (s.tableValue f o).isSome then (s.tableValue f o).getD 0
  else if !regListed o || s.readsZero f o then 0
  else if o = 0 then s.refCount
  else if o = 8 then s.hostStat
  else if o = 0x10 then s.serviceStat
  else if o = 0x18 then s.identity f
  else if o = 0x20 then n.irqCause
  else if o = 0x28 then b2n s.ras.debugLock
  else if o < 0x3000 then 0
  else if o < 0x100000 then (s.queue ((o - 0x3000) / 8)).head
  else if o = 0x102008 || o = 0x102010 then n.expBusy
  else if o = 0x102018 then n.expResult
  else if o < 0x200000 then 0
  else if o < 0x300000 then s.schValue o
  else if o = 0x300000 then (s.faultRing f).head
  else if o = 0x300008 then s.xltStat
  else if o < 0x400000 then kget 0 s.xlt.counters (o - 0x300000)
  else if o = 0x400000 then s.rasStat
  else if o = 0x400008 then s.ras.head
  else if o < 0x400200 then s.rasCoreState ((o - 0x400100) / 8)
  else if o < 0x500000 then kget 0 s.ras.counters (o - 0x400000)
  else if o = 0x500000 then s.pwrStat
  else if o < 0x500200 then s.pwrCluster ((o - 0x500100) / 8)
  else if o = 0x500200 then s.power.inputEnergy / 1000 % 2 ^ 48
  else if o = 0x500208 then s.power.serviceEnergy / 1000 % 2 ^ 48
  else if o < 0x600000 then kget 0 s.power.counters (o - 0x500000)
  else if o < 0x1000000 then
    (if o % 0x40 = 0 then (s.port ((o - 0x600000) / 0x40)).stat else kget 0 (s.port ((o - 0x600000) / 0x40)).counters (o % 0x40))
  else s.windowValue f ((o - 0x1000000) / 0x10000) (o % 0x10000)

/-! ### Front-end registers (R577, R578) -/

/-- Hand a read's result to the host. -/
def State.returnRead (s : State) (v : Nat) : State := { s with host := { s.host with reads := v :: s.host.reads } }

/-- FE_IRQ_CAUSE_WRITE (R577). -/
def execFeIrqCauseWrite (f : FnId) (v : BitVec 64) (s : State) : Host.Outcome State Fault Refusal :=
  if !s.reach f then .next s
  else .next (s.updFn f (fun n => { n with irqCause := n.irqCause - (n.irqCause &&& v.toNat) }))

/-- FE_DEBUG_LOCK_WRITE (R13, R578). -/
def execFeDebugLockWrite (f : FnId) (v : BitVec 64) (s : State) : Host.Outcome State Fault Refusal :=
  if !s.reach f then .next s
  else if f ≠ 0 || s.ras.debugLock then .next (s.logEvent 0x0B)
  else .next { s with ras := { s.ras with debugLock := v.getLsbD 0 } }

/-! ### Debug windows (R569 to R573, R578, R580, R581) -/

/-- A write to a debug-window register that only the physical function writes, and that the lock blocks (R140, R572, R578). -/
def State.windowWrite (s : State) (f : Nat) (act : State → State) : State :=
  if !s.reach f then s else if f ≠ 0 || s.ras.debugLock then s.logEvent 0x0B else act s

/-- CDW_CVT_FLAGS_WRITE (R64, R65). -/
def execCdwCvtFlagsWrite (f : FnId) (c : CoreId) (v : BitVec 64) (s : State) : Host.Outcome State Fault Refusal :=
  .next (s.windowWrite f (fun s => s.updCore c (fun k => { k with cvt := k.cvt - (k.cvt &&& (v.toNat &&& 0x7E)) })))

/-- CDW_GATHER_OOR_READ (R110, R570, R572). -/
def execCdwGatherOorRead (f : FnId) (c : CoreId) (s : State) (half : Fin 3 := 0) : Host.Outcome State Fault Refusal :=
  if !s.reach f then .next s
  else
    let s := s.returnRead (halfOf half (s.windowValue f c 0x148))
    .next (if f = 0 && half ≠ 2 then s.updCore c (fun k => { k with oor := 0 }) else s)

/-- CDW_MX_RESIDUE_READ (R256, R570, R572). -/
def execCdwMxResidueRead (f : FnId) (c : CoreId) (s : State) (half : Fin 3 := 0) : Host.Outcome State Fault Refusal :=
  if !s.reach f then .next s
  else
    let s := s.returnRead (halfOf half (s.windowValue f c 0x208))
    .next (if f = 0 && half ≠ 1 then s.updCore c (fun k => { k with
        mx := { k.mx with residue := k.mx.residue - bitsOf k.mx.residue 47 32 * 2 ^ 32 } }) else s)

/-- CDW_MX_RESIDUE_WRITE (R256): W1C of VALID. -/
def execCdwMxResidueWrite (f : FnId) (c : CoreId) (v : BitVec 64) (s : State) : Host.Outcome State Fault Refusal :=
  .next (s.windowWrite f (fun s => s.updCore c (fun k =>
    { k with mx := { k.mx with residue := k.mx.residue - (k.mx.residue &&& (v.toNat &&& 1)) } })))

/-- CDW_SEQ_FAULT_WRITE (R344): W1C of VALID. -/
def execCdwSeqFaultWrite (f : FnId) (c : CoreId) (v : BitVec 64) (s : State) : Host.Outcome State Fault Refusal :=
  .next (s.windowWrite f (fun s => s.updCore c (fun k => { k with seqFault := k.seqFault - (k.seqFault &&& (v.toNat &&& 1)) })))

/-- A slice after a write of CDW_BOB_CTL (R141): ENABLE from 1 to 0 clears VALID in every tag; unused prefetches count (R144). -/
def Slice.setCtl (v : Slice) (w : Nat) : Slice :=
  let off := v.enable && !bitAt w 0
  let v := if off then v.dropTags (fun _ => true) else v
  { v with prefMax := bitsOf w 31 24, agePeriod := bitsOf w 19 16, prefEvictMax := bitsOf w 11 8, prefRemote := bitAt w 2, prefEn := bitAt w 1,
           enable := bitAt w 0 }

/-- CDW_BOB_CTL_WRITE (R140, R141). -/
def execCdwBobCtlWrite (f : FnId) (k : ClusterId) (v : BitVec 64) (s : State) : Host.Outcome State Fault Refusal :=
  .next (s.windowWrite f (fun s => s.updSlice k (fun u => u.setCtl v.toNat)))

/-- CDW_BOB_TAG_SEL_WRITE (R143). -/
def execCdwBobTagSelWrite (f : FnId) (k : ClusterId) (v : BitVec 64) (s : State) : Host.Outcome State Fault Refusal :=
  .next (s.windowWrite f (fun s => s.updFn f (fun n => { n with bobSel := kput n.bobSel k (v.toNat % 65536) })))

/-- CDW_BOB_TAG_LO_READ (R143, R570, R581): the tag is latched for the reading function; a virtual function reads 0 (R572). -/
def execCdwBobTagLoRead (f : FnId) (k : ClusterId) (s : State) (half : Fin 3 := 0) : Host.Outcome State Fault Refusal :=
  if !s.reach f then .next s
  else if f ≠ 0 then .next (s.returnRead 0)
  else
    let tag := (s.slice k).tagBits (kget 0 (s.fn f).bobSel k)
    .next ((s.updFn f (fun n => { n with bobLatch := kput n.bobLatch k tag })).returnRead (halfOf half (tag % 2 ^ 64)))

/-- CDW_EXU_CTL_WRITE (R183, R570): batches opened later take the new values. -/
def execCdwExuCtlWrite (f : FnId) (k : ClusterId) (v : BitVec 64) (s : State) (half : Fin 3 := 0) : Host.Outcome State Fault Refusal :=
  .next (s.windowWrite f (fun s => s.updExch k (fun x =>
    let w := setHalf half x.ctl v.toNat
    { x with replyTimeout := bitsOf w 47 32, batchMax := bitsOf w 22 16, batchAge := bitsOf w 7 0 })))

/-- CDW_SYNC_SEL_WRITE (R429, R572): every function has its own selection; a core outside a virtual function's mask refuses it. -/
def execCdwSyncSelWrite (f : FnId) (c : CoreId) (v : BitVec 64) (s : State) : Host.Outcome State Fault Refusal :=
  let w := v.toNat
  if !s.reach f then .next s
  else if !s.windowOf f c then .next (s.logEvent 0x0B)
  else .next (s.updFn f (fun n => { n with syncSel := kput n.syncSel c (bitsOf w 23 16 * 65536 + bitsOf w 8 0) }))

/-- CDW_SYNC_VAL_READ (R429, R570, R581). -/
def execCdwSyncValRead (f : FnId) (c : CoreId) (s : State) (half : Fin 3 := 0) : Host.Outcome State Fault Refusal :=
  if !s.reach f then .next s
  else if !s.windowOf f c then .next (s.returnRead 0)
  else
    let r := s.syncRead f c (kget 0 (s.fn f).syncSel c)
    .next ((s.updFn f (fun n => { n with syncLatch := kput n.syncLatch c r })).returnRead (halfOf half r.1))

/-! ### Other writes (R569, R571) -/

/-- Registers whose writes are rows of their own. -/
def ownRow (o : Nat) : Bool :=
  o = 0x20 || o = 0x28 || (0x1000 ≤ o && o < 0x5000) || o = 0x102000 || o = 0x102008 || o = 0x300000 || o = 0x400008 ||
    (0x1000000 ≤ o && [0x100, 0x208, 0x408, 0x500, 0x8000, 0x8010, 0x8100].contains (o % 0x10000))

/-- An MSI-X table entry with its dword `i` written (R533, R569). -/
def MsixEntry.setWord (e : MsixEntry) (i w : Nat) : MsixEntry :=
  if i = 0 then { e with addr := e.addr / 2 ^ 32 * 2 ^ 32 + w % 2 ^ 32 }
  else if i = 1 then { e with addr := e.addr % 2 ^ 32 + w % 2 ^ 32 * 2 ^ 32 }
  else if i = 2 then { e with data := w % 2 ^ 32 }
  else { e with masked := bitAt w 0 }

/-- A write to a function's MSI-X table: 8 bytes on a multiple of 8, or the 4 bytes of the dword that another offset names; a
message that waits goes out with the unmasking (R534). -/
def State.msixWrite (s : State) (f o v : Nat) : State :=
  let i := o / 16
  let w := o % 16 / 4
  if vectors f ≤ i then s.logEvent 0x0B
  else
    let set := fun (e : MsixEntry) => if w % 2 = 0 then (e.setWord w v).setWord (w + 1) (v / 2 ^ 32) else e.setWord w v
    (s.updFn f (fun n => { n with msixTable := kmod {} n.msixTable i set })).sendPending f

/-- REGISTER_WRITE (R11, R569, R571, R572, R578): a read-only field ignores it; a hole, a register that reads 0 through the function and
a locked or foreign debug window record a PROTECTION event. Registers with behaviour of their own have their own rows. -/
def execRegisterWrite (f : FnId) (off : BitVec 25) (v : BitVec 64) (s : State) : Host.Outcome State Fault Refusal :=
  let o := off.toNat
  let r := o / 8 * 8
  if !s.reach f then .next s
  else if (0x100000 ≤ o && o < 0x100800) || (0x101000 ≤ o && o < 0x102000) then .next s
  else if o % 4 ≠ 0 then .next (s.logEvent 0x0B)
  else if 0x800000 ≤ o && o < 0x880000 then .next (s.msixWrite f (o - 0x800000) v.toNat)
  else if 0x880000 ≤ o && o < 0x900000 then .next s
  else if !regListed r then .next (s.logEvent 0x0B)
  else if ownRow r then .next s
  else if s.readsZero f r || (0x1000000 ≤ r && (f ≠ 0 || s.ras.debugLock)) then .next (s.logEvent 0x0B)
  else .next s

end Sys2Proof.Machine
end

