-- ==== Sys2Proof/Machine/Attest.lean ====
section
/-! DEFINITION. The management port (R588), and the SPDM exchanges of the physical function (R559 to R561; log entry 14). -/

namespace Sys2Proof.Machine

open Sys2Proof

/-! ### The management port (R588) -/

/-- Answer on the management port; nothing is a NACK. -/
def State.mgmtAnswer (s : State) (bs : List Byte) : State := { s with module := { s.module with mgmtOut := bs :: s.module.mgmtOut } }

/-- The port answers a command: from the 10 ms row on, and, for the log, once firmware has opened it; not in a CP restart. -/
def State.mgmtRun (s : State) (log : Bool) (act : State → State) : State :=
  if !s.module.powered then s
  else if s.service.state = 3 || (log && s.service.state = 0) then s.mgmtAnswer []
  else act s

/-- IDENTITY. -/
def execMgmtIdentity (s : State) : Host.Outcome State Fault Refusal :=
  .next (s.mgmtRun false (fun s =>
    s.mgmtAnswer (leBytes 8 (s.identity 0) ++ leBytes 8 s.serviceStat ++ leBytes 8 Config.serial ++ leBytes 1 0x11)))

/-- POWER. -/
def execMgmtPower (s : State) : Host.Outcome State Fault Refusal :=
  .next (s.mgmtRun false (fun s => s.mgmtAnswer (leBytes 8 s.pwrStat)))

/-- THERMAL. -/
def execMgmtThermal (s : State) : Host.Outcome State Fault Refusal :=
  .next (s.mgmtRun false (fun s => s.mgmtAnswer s.thermalBytes))

/-- CPER_NEXT: the record after the port's own pointer; a NACK where there is none. -/
def execMgmtCperNext (s : State) : Host.Outcome State Fault Refusal :=
  .next (s.mgmtRun true (fun s =>
    let n := max (s.module.mgmtPtr + 1) s.ras.oldest
    if s.ras.nextSeq ≤ n then s.mgmtAnswer []
    else ({ s with module := { s.module with mgmtPtr := n } } : State).mgmtAnswer (s.cperAt n)))

/-- CPER_RESET: the next CPER_NEXT returns the oldest record. -/
def execMgmtCperReset (s : State) : Host.Outcome State Fault Refusal :=
  .next (s.mgmtRun true (fun s => { s with module := { s.module with mgmtPtr := s.ras.oldest - 1 } }))

/-- MGMT_ALERT# is asserted while unread records lie beyond the port's pointer. -/
def State.mgmtAlert (s : State) : Bool := s.module.powered && s.module.mgmtPtr + 1 < s.ras.nextSeq

/-! ### SPDM (R560, R561) -/

/-- An SPDM response: version, code and two parameters, then its payload. -/
def spdmMsg (version code p1 p2 : Nat) (payload : List Byte) : List Byte :=
  leBytes 1 version ++ leBytes 1 code ++ leBytes 1 p1 ++ leBytes 1 p2 ++ payload

/-- Send a response; request and response enter the transcript. -/
def State.spdmSend (s : State) (req : List Nat) (bs : List Byte) : State :=
  { s with spdm := { s.spdm with out := bs :: s.spdm.out, transcript := s.spdm.transcript ++ req ++ nats bs } }

/-- An ERROR response, which enters no transcript: 0x01 InvalidRequest, 0x04 UnexpectedRequest, 0x41 VersionMismatch. -/
def State.spdmError (s : State) (code : Nat) : State :=
  { s with spdm := { s.spdm with out := spdmMsg s.spdm.version 0x7F code 0 [] :: s.spdm.out } }

/-- Answer a request that needs a stage of the negotiation, through the DOE mailbox of the physical function. -/
def State.spdmRun (s : State) (stage : Nat) (act : State → State) : State :=
  if !s.link.up || !s.firmware then s
  else if s.spdm.stage < stage then s.spdmError 0x04
  else act s

/-- GET_VERSION: 1.2 and 1.3; a new negotiation begins. -/
def execGetVersion (s : State) : Host.Outcome State Fault Refusal :=
  .next (s.spdmRun 0 (fun s =>
    ({ s with spdm := { s.spdm with stage := 1, version := 0x10, transcript := [] } } : State).spdmSend [0x84]
      (spdmMsg 0x10 0x04 0 0 (leBytes 1 0 ++ leBytes 1 2 ++ leBytes 2 0x1200 ++ leBytes 2 0x1300))))

/-- GET_CAPABILITIES: CERT_CAP, CHAL_CAP, MEAS_CAP with signatures and MEAS_FRESH_CAP. -/
def execGetCapabilities (ver : BitVec 8) (s : State) : Host.Outcome State Fault Refusal :=
  let v := ver.toNat
  .next (s.spdmRun 1 (fun s =>
    if v ≠ 0x12 && v ≠ 0x13 then s.spdmError 0x41
    else ({ s with spdm := { s.spdm with stage := 2, version := v } } : State).spdmSend [0xE1, v]
      (spdmMsg v 0x61 0 0 (leBytes 4 0 ++ leBytes 4 0x36))))

/-- NEGOTIATE_ALGORITHMS: EdDSA Ed25519 and SHA-512, or an error where the requester lacks one. -/
def execNegotiateAlgorithms (ver : BitVec 8) (ed25519 : Bool) (sha512 : Bool) (s : State) : Host.Outcome State Fault Refusal :=
  .next (s.spdmRun 2 (fun s =>
    if ver.toNat ≠ s.spdm.version then s.spdmError 0x41
    else if !ed25519 || !sha512 then s.spdmError 0x01
    else ({ s with spdm := { s.spdm with stage := 3 } } : State).spdmSend [0xE3, ver.toNat]
      (spdmMsg s.spdm.version 0x63 0 0 (leBytes 4 0x200 ++ leBytes 4 0x4))))

/-- The digest of the certificate chain of slot 0. -/
def State.chainDigest (s : State) : List Byte :=
  let d := s.service.debugFuse
  leBytes 64 (Config.digest 2 ((List.range (Config.certLength d)).map (Config.certByte d)))

/-- GET_DIGESTS: slot 0 only. -/
def execGetDigests (s : State) : Host.Outcome State Fault Refusal :=
  .next (s.spdmRun 3 (fun s => s.spdmSend [0x81] (spdmMsg s.spdm.version 0x01 0 1 s.chainDigest)))

/-- GET_CERTIFICATE: a portion of slot 0's chain. -/
def execGetCertificate (slot : BitVec 4) (off : BitVec 16) (len : BitVec 16) (s : State) : Host.Outcome State Fault Refusal :=
  .next (s.spdmRun 3 (fun s =>
    let d := s.service.debugFuse
    let n := Config.certLength d
    if slot.toNat ≠ 0 || n ≤ off.toNat then s.spdmError 0x01
    else
      let m := min len.toNat (n - off.toNat)
      s.spdmSend [0x82, off.toNat, len.toNat] (spdmMsg s.spdm.version 0x02 0 0 (leBytes 2 m ++ leBytes 2 (n - off.toNat - m) ++
        (List.range m).map (fun i => BitVec.ofNat 8 (Config.certByte d (off.toNat + i)))))))

/-- Sign the transcript with the device identity key and send (R559). -/
def State.spdmSigned (s : State) (req : List Nat) (bs : List Byte) : State :=
  s.spdmSend req (bs ++ leBytes 64 (Config.sign (s.spdm.transcript ++ req ++ nats bs)))

/-- A responder nonce: a free value (log entry 6). -/
def State.nonce (s : State) : State × List Byte :=
  let (s, d) := s.draw
  (s, leBytes 32 (Config.freeValue 7 d))

/-- CHALLENGE. -/
def execChallenge (slot : BitVec 4) (nonce : BitVec 256) (s : State) : Host.Outcome State Fault Refusal :=
  .next (s.spdmRun 3 (fun s =>
    if slot.toNat ≠ 0 then s.spdmError 0x01
    else
      let (s, mine) := s.nonce
      s.spdmSigned [0x83, slot.toNat, nonce.toNat] (spdmMsg s.spdm.version 0x03 0 1 (s.chainDigest ++ mine))))

/-- An image in a measurement: its DIGEST, then its VERSION (R561). -/
def Image.measured (i : Image) : List Byte := leBytes 64 i.digest ++ leBytes 4 i.version

/-- Content of a measurement block, and its DMTF type: 0 immutable ROM, 1 mutable firmware, 2 hardware configuration, 3 firmware
configuration (R561). -/
def State.measurement (s : State) (i : Nat) : Nat × List Byte :=
  let v := s.service
  let running := fun (k : Nat) => (s.runSlots k).flatMap (fun r => (s.image k r).measured)
  if i = 1 then (0, leBytes 64 (Config.digest 3 []))
  else if i = 2 then (1, running 1)
  else if i = 3 then (1, running 2)
  else if i = 4 then (1, (List.range 6).flatMap (fun q => (s.fabImage q).measured))
  else if i = 5 then (1, running 4)
  else if i = 6 then
    (2, leBytes 64 (Config.digest 4 ([b2n v.debugFuse, v.revoked] ++ [1, 2, 3, 4].map (fun k => kget 0 v.minSvn k))))
  else (3, leBytes 64 (Config.digest 5 ([b2n v.forced, v.state] ++ [1, 2, 3, 4].map (fun k => kget 0 v.committed k))))

/-- A block in the DMTF measurement format. -/
def State.measureBlock (s : State) (i : Nat) : List Byte :=
  let m := s.measurement i
  leBytes 1 i ++ leBytes 1 1 ++ leBytes 2 (m.2.length + 3) ++ leBytes 1 m.1 ++ leBytes 2 m.2.length ++ m.2

/-- GET_MEASUREMENTS: the number of blocks for index 0, one block, or all for 0xFF; signed on request. -/
def execGetMeasurements (index : BitVec 8) (nonce : BitVec 256) (sign : Bool) (s : State) : Host.Outcome State Fault Refusal :=
  let i := index.toNat
  .next (s.spdmRun 3 (fun s =>
    if 7 < i && i ≠ 0xFF then s.spdmError 0x01
    else
      let blocks := (if i = 0 then [] else if i = 0xFF then [1, 2, 3, 4, 5, 6, 7] else [i]).map s.measureBlock
      let body := blocks.flatMap id
      let (s, mine) := s.nonce
      let bs := spdmMsg s.spdm.version 0x60 (if i = 0 then 7 else 0) 0 (leBytes 1 blocks.length ++ leBytes 3 body.length ++ body ++ mine)
      let req := [0xE0, i, nonce.toNat]
      if sign then s.spdmSigned req bs else s.spdmSend req bs))

end Sys2Proof.Machine
end

