-- ==== Sys2Proof/Machine/Dispatch.lean ====
section
/-! DEFINITION. One arm per command: a direct call of its meaning. -/

namespace Sys2Proof.Machine

open Sys2Proof

/-- The effect of a command on everything but the queue of waiting commands. -/
def exec (i : Instr) (s : State) : Host.Outcome State Fault Refusal :=
  match i with
  | .powerOn => Sys2Proof.Machine.execPowerOn s
  | .clusterPairCalibrated best best8 => Sys2Proof.Machine.execClusterPairCalibrated best best8 s
  | .fullServiceEntry slow peers => Sys2Proof.Machine.execFullServiceEntry slow peers s
  | .fullReset => Sys2Proof.Machine.execFullReset s
  | .perstAssert => Sys2Proof.Machine.execPerstAssert s
  | .selfReset cause => Sys2Proof.Machine.execSelfReset cause s
  | .selfResetDrainLimit => Sys2Proof.Machine.execSelfResetDrainLimit s
  | .flrVf p => Sys2Proof.Machine.execFlrVf p s
  | .cpWatchdog => Sys2Proof.Machine.execCpWatchdog s
  | .cpRestart => Sys2Proof.Machine.execCpRestart s
  | .capRead f slot => Sys2Proof.Machine.execCapRead f slot s
  | .partIdentity f slot => Sys2Proof.Machine.execPartIdentity f slot s
  | .partQuery f slot => Sys2Proof.Machine.execPartQuery f slot s
  | .partReset f slot => Sys2Proof.Machine.execPartReset f slot s
  | .partitionSet f slot => Sys2Proof.Machine.execPartitionSet f slot s
  | .partitionQuery f slot => Sys2Proof.Machine.execPartitionQuery f slot s
  | .contextCreate f slot => Sys2Proof.Machine.execContextCreate f slot s
  | .contextDestroy f slot => Sys2Proof.Machine.execContextDestroy f slot s
  | .contextQuery f slot => Sys2Proof.Machine.execContextQuery f slot s
  | .contextSuspend f slot => Sys2Proof.Machine.execContextSuspend f slot s
  | .contextResume f slot bad => Sys2Proof.Machine.execContextResume f slot bad s
  | .contextSet f slot => Sys2Proof.Machine.execContextSet f slot s
  | .queueCreate f slot => Sys2Proof.Machine.execQueueCreate f slot s
  | .queueDestroy f slot => Sys2Proof.Machine.execQueueDestroy f slot s
  | .queueQuery f slot => Sys2Proof.Machine.execQueueQuery f slot s
  | .queueRemap f slot => Sys2Proof.Machine.execQueueRemap f slot s
  | .almanacConfig f slot => Sys2Proof.Machine.execAlmanacConfig f slot s
  | .almanacQuery f slot => Sys2Proof.Machine.execAlmanacQuery f slot s
  | .almanacAck f slot => Sys2Proof.Machine.execAlmanacAck f slot s
  | .expressBind f slot => Sys2Proof.Machine.execExpressBind f slot s
  | .opQuery f slot => Sys2Proof.Machine.execOpQuery f slot s
  | .xltSet f slot => Sys2Proof.Machine.execXltSet f slot s
  | .xltInvalidate f slot => Sys2Proof.Machine.execXltInvalidate f slot s
  | .faultResolve f slot => Sys2Proof.Machine.execFaultResolve f slot s
  | .pageMigrate f slot => Sys2Proof.Machine.execPageMigrate f slot s
  | .faultRingSet f slot => Sys2Proof.Machine.execFaultRingSet f slot s
  | .xltQuery f slot => Sys2Proof.Machine.execXltQuery f slot s
  | .tableCreate f slot => Sys2Proof.Machine.execTableCreate f slot s
  | .tableLoad f slot => Sys2Proof.Machine.execTableLoad f slot s
  | .tableSeal f slot => Sys2Proof.Machine.execTableSeal f slot s
  | .tableQuery f slot => Sys2Proof.Machine.execTableQuery f slot s
  | .tableDelete f slot => Sys2Proof.Machine.execTableDelete f slot s
  | .tableFreed t => Sys2Proof.Machine.execTableFreed t s
  | .epochFence f slot => Sys2Proof.Machine.execEpochFence f slot s
  | .epochQuery f slot => Sys2Proof.Machine.execEpochQuery f slot s
  | .epochConfig f slot => Sys2Proof.Machine.execEpochConfig f slot s
  | .bucketMigrate f slot => Sys2Proof.Machine.execBucketMigrate f slot s
  | .rowMigrate f slot => Sys2Proof.Machine.execRowMigrate f slot s
  | .migrateQuery f slot => Sys2Proof.Machine.execMigrateQuery f slot s
  | .migrateCancel f slot => Sys2Proof.Machine.execMigrateCancel f slot s
  | .skewWatch f slot => Sys2Proof.Machine.execSkewWatch f slot s
  | .skewQuery f slot => Sys2Proof.Machine.execSkewQuery f slot s
  | .retierPass f slot => Sys2Proof.Machine.execRetierPass f slot s
  | .retierQuery f slot => Sys2Proof.Machine.execRetierQuery f slot s
  | .retierCancel f slot => Sys2Proof.Machine.execRetierCancel f slot s
  | .shardQuery f slot => Sys2Proof.Machine.execShardQuery f slot s
  | .splitSet f slot => Sys2Proof.Machine.execSplitSet f slot s
  | .splitGet f slot => Sys2Proof.Machine.execSplitGet f slot s
  | .serviceSet f slot => Sys2Proof.Machine.execServiceSet f slot s
  | .redirectQuery f slot => Sys2Proof.Machine.execRedirectQuery f slot s
  | .fabricConfig f slot => Sys2Proof.Machine.execFabricConfig f slot s
  | .portQuery f slot => Sys2Proof.Machine.execPortQuery f slot s
  | .portFence f slot => Sys2Proof.Machine.execPortFence f slot s
  | .portUnfence f slot => Sys2Proof.Machine.execPortUnfence f slot s
  | .aclSet f slot => Sys2Proof.Machine.execAclSet f slot s
  | .aclGet f slot => Sys2Proof.Machine.execAclGet f slot s
  | .poolJoin f slot => Sys2Proof.Machine.execPoolJoin f slot s
  | .poolLeave f slot => Sys2Proof.Machine.execPoolLeave f slot s
  | .poolQuery f slot => Sys2Proof.Machine.execPoolQuery f slot s
  | .rasQuery f slot => Sys2Proof.Machine.execRasQuery f slot s
  | .coreQuery f slot => Sys2Proof.Machine.execCoreQuery f slot s
  | .coreFence f slot => Sys2Proof.Machine.execCoreFence f slot s
  | .coreUnfence f slot => Sys2Proof.Machine.execCoreUnfence f slot s
  | .vigilConfig f slot => Sys2Proof.Machine.execVigilConfig f slot s
  | .vigilWindow f slot => Sys2Proof.Machine.execVigilWindow f slot s
  | .vigilWindowExpiry p => Sys2Proof.Machine.execVigilWindowExpiry p s
  | .cperRingSet f slot => Sys2Proof.Machine.execCperRingSet f slot s
  | .cperRead f slot => Sys2Proof.Machine.execCperRead f slot s
  | .selvageSeal f slot => Sys2Proof.Machine.execSelvageSeal f slot s
  | .selvageCheck f slot => Sys2Proof.Machine.execSelvageCheck f slot s
  | .powerQuery f slot => Sys2Proof.Machine.execPowerQuery f slot s
  | .powerSet f slot => Sys2Proof.Machine.execPowerSet f slot s
  | .paceWeightSet f slot => Sys2Proof.Machine.execPaceWeightSet f slot s
  | .thermalQuery f slot => Sys2Proof.Machine.execThermalQuery f slot s
  | .thermalSet f slot => Sys2Proof.Machine.execThermalSet f slot s
  | .energyQuery f slot => Sys2Proof.Machine.execEnergyQuery f slot s
  | .imageStage f slot => Sys2Proof.Machine.execImageStage f slot s
  | .imageActivate f slot => Sys2Proof.Machine.execImageActivate f slot s
  | .imageCommit f slot => Sys2Proof.Machine.execImageCommit f slot s
  | .imageQuery f slot => Sys2Proof.Machine.execImageQuery f slot s
  | .recal f slot => Sys2Proof.Machine.execRecal f slot s
  | .barrierQuery f slot => Sys2Proof.Machine.execBarrierQuery f slot s
  | .unimplementedOpcode f slot => Sys2Proof.Machine.execUnimplementedOpcode f slot s
  | .asyncOpComplete f op => Sys2Proof.Machine.execAsyncOpComplete f op s
  | .noticePosted f => Sys2Proof.Machine.execNoticePosted f s
  | .mailboxSlotWrite f off bytes => Sys2Proof.Machine.execMailboxSlotWrite f off bytes s
  | .mbExpDoorbellWrite f bits => Sys2Proof.Machine.execMbExpDoorbellWrite f bits s
  | .expressDelivery f k => Sys2Proof.Machine.execExpressDelivery f k s
  | .expressTimeout f k => Sys2Proof.Machine.execExpressTimeout f k s
  | .mbExpResultRead f half => Sys2Proof.Machine.execMbExpResultRead f s half
  | .commitWrite f q count => Sys2Proof.Machine.execCommitWrite f q count s
  | .feSqDoorbellWrite f q count => Sys2Proof.Machine.execFeSqDoorbellWrite f q count s
  | .feCqHeadWrite f q head => Sys2Proof.Machine.execFeCqHeadWrite f q head s
  | .bar2Write f off bytes => Sys2Proof.Machine.execBar2Write f off bytes s
  | .step q => Sys2Proof.Machine.execStep q s
  | .job q => Sys2Proof.Machine.execJob q s
  | .update q => Sys2Proof.Machine.execUpdate q s
  | .marker q => Sys2Proof.Machine.execMarker q s
  | .fenceCycle a b => Sys2Proof.Machine.execFenceCycle a b s
  | .commandTimeout q seq => Sys2Proof.Machine.execCommandTimeout q seq s
  | .drainTimeout q seq => Sys2Proof.Machine.execDrainTimeout q seq s
  | .commandComplete q seq => Sys2Proof.Machine.execCommandComplete q seq s
  | .stepReplay q seq => Sys2Proof.Machine.execStepReplay q seq s
  | .contextTeardown x => Sys2Proof.Machine.execContextTeardown x s
  | .turnPass p => Sys2Proof.Machine.execTurnPass p s
  | .contextSwap x bad => Sys2Proof.Machine.execContextSwap x bad s
  | .coreMove c => Sys2Proof.Machine.execCoreMove c s
  | .seqNop c errs again => Sys2Proof.Machine.execSeqNop c s errs again
  | .seqLi c => Sys2Proof.Machine.execSeqLi c s
  | .seqLui c => Sys2Proof.Machine.execSeqLui c s
  | .seqAdd c lockstep => Sys2Proof.Machine.execSeqAdd c s lockstep
  | .seqAddi c lockstep => Sys2Proof.Machine.execSeqAddi c s lockstep
  | .seqSub c lockstep => Sys2Proof.Machine.execSeqSub c s lockstep
  | .seqMul c lockstep => Sys2Proof.Machine.execSeqMul c s lockstep
  | .seqAnd c lockstep => Sys2Proof.Machine.execSeqAnd c s lockstep
  | .seqOr c lockstep => Sys2Proof.Machine.execSeqOr c s lockstep
  | .seqXor c lockstep => Sys2Proof.Machine.execSeqXor c s lockstep
  | .seqShl c lockstep => Sys2Proof.Machine.execSeqShl c s lockstep
  | .seqShr c lockstep => Sys2Proof.Machine.execSeqShr c s lockstep
  | .seqBeq c => Sys2Proof.Machine.execSeqBeq c s
  | .seqBne c => Sys2Proof.Machine.execSeqBne c s
  | .seqBlt c => Sys2Proof.Machine.execSeqBlt c s
  | .seqBge c => Sys2Proof.Machine.execSeqBge c s
  | .seqJmp c => Sys2Proof.Machine.execSeqJmp c s
  | .seqLds c errs => Sys2Proof.Machine.execSeqLds c s errs
  | .seqSts c => Sys2Proof.Machine.execSeqSts c s
  | .seqGets c => Sys2Proof.Machine.execSeqGets c s
  | .seqFetch c => Sys2Proof.Machine.execSeqFetch c s
  | .seqIssue c => Sys2Proof.Machine.execSeqIssue c s
  | .seqIssuex c => Sys2Proof.Machine.execSeqIssuex c s
  | .seqWaite c => Sys2Proof.Machine.execSeqWaite c s
  | .seqSemtake c errs => Sys2Proof.Machine.execSeqSemtake c s errs
  | .seqSemgive c errs => Sys2Proof.Machine.execSeqSemgive c s errs
  | .seqTadd c errs => Sys2Proof.Machine.execSeqTadd c s errs
  | .seqTwait c errs => Sys2Proof.Machine.execSeqTwait c s errs
  | .seqBarrive c => Sys2Proof.Machine.execSeqBarrive c s
  | .seqBwait c => Sys2Proof.Machine.execSeqBwait c s
  | .seqEnq c => Sys2Proof.Machine.execSeqEnq c s
  | .seqEnd c => Sys2Proof.Machine.execSeqEnd c s
  | .seqFail c => Sys2Proof.Machine.execSeqFail c s
  | .semTakeServed c pair => Sys2Proof.Machine.execSemTakeServed c pair s
  | .tallyWaitSatisfied c => Sys2Proof.Machine.execTallyWaitSatisfied c s
  | .nullDescriptor c => Sys2Proof.Machine.execNullDescriptor c s
  | .gather c lockstep ways words => Sys2Proof.Machine.execGather c lockstep ways s words
  | .rowArrival c gid entry errs transport => Sys2Proof.Machine.execRowArrival c gid entry errs transport s
  | .matrix c lockstep sums vals overlap words => Sys2Proof.Machine.execMatrix c lockstep s sums vals overlap words
  | .vector c lockstep words => Sys2Proof.Machine.execVector c lockstep s words
  | .picotPick c => Sys2Proof.Machine.execPicotPick c s
  | .procession c => Sys2Proof.Machine.execProcession c s
  | .processionArrival c bad => Sys2Proof.Machine.execProcessionArrival c bad s
  | .copy c words => Sys2Proof.Machine.execCopy c s words
  | .vxNop c w => Sys2Proof.Machine.execVxNop c w s
  | .vxMov c w => Sys2Proof.Machine.execVxMov c w s
  | .vxFadd c w => Sys2Proof.Machine.execVxFadd c w s
  | .vxFsub c w => Sys2Proof.Machine.execVxFsub c w s
  | .vxFmul c w => Sys2Proof.Machine.execVxFmul c w s
  | .vxFfma c w => Sys2Proof.Machine.execVxFfma c w s
  | .vxFmin c w => Sys2Proof.Machine.execVxFmin c w s
  | .vxFmax c w => Sys2Proof.Machine.execVxFmax c w s
  | .vxFabs c w => Sys2Proof.Machine.execVxFabs c w s
  | .vxFneg c w => Sys2Proof.Machine.execVxFneg c w s
  | .vxFdiv c w => Sys2Proof.Machine.execVxFdiv c w s
  | .vxFsqrt c w => Sys2Proof.Machine.execVxFsqrt c w s
  | .vxFrsqrt c w => Sys2Proof.Machine.execVxFrsqrt c w s
  | .vxFexp c w => Sys2Proof.Machine.execVxFexp c w s
  | .vxFlog c w => Sys2Proof.Machine.execVxFlog c w s
  | .vxFtanh c w => Sys2Proof.Machine.execVxFtanh c w s
  | .vxFsigm c w => Sys2Proof.Machine.execVxFsigm c w s
  | .vxFclt c w => Sys2Proof.Machine.execVxFclt c w s
  | .vxFcle c w => Sys2Proof.Machine.execVxFcle c w s
  | .vxFceq c w => Sys2Proof.Machine.execVxFceq c w s
  | .vxSel c w => Sys2Proof.Machine.execVxSel c w s
  | .vxCvtif c w => Sys2Proof.Machine.execVxCvtif c w s
  | .vxCvtfi c w => Sys2Proof.Machine.execVxCvtfi c w s
  | .vxFclamp c w => Sys2Proof.Machine.execVxFclamp c w s
  | .vxIadd c w => Sys2Proof.Machine.execVxIadd c w s
  | .vxIsub c w => Sys2Proof.Machine.execVxIsub c w s
  | .vxImul c w => Sys2Proof.Machine.execVxImul c w s
  | .vxImin c w => Sys2Proof.Machine.execVxImin c w s
  | .vxImax c w => Sys2Proof.Machine.execVxImax c w s
  | .vxAnd c w => Sys2Proof.Machine.execVxAnd c w s
  | .vxOr c w => Sys2Proof.Machine.execVxOr c w s
  | .vxXor c w => Sys2Proof.Machine.execVxXor c w s
  | .vxShl c w => Sys2Proof.Machine.execVxShl c w s
  | .vxShra c w => Sys2Proof.Machine.execVxShra c w s
  | .vxShrl c w => Sys2Proof.Machine.execVxShrl c w s
  | .vxIclt c w => Sys2Proof.Machine.execVxIclt c w s
  | .vxIceq c w => Sys2Proof.Machine.execVxIceq c w s
  | .vxScanFadd c w => Sys2Proof.Machine.execVxScanFadd c w s
  | .vxScanFmax c w => Sys2Proof.Machine.execVxScanFmax c w s
  | .vxScanFmin c w => Sys2Proof.Machine.execVxScanFmin c w s
  | .vxScanFfma c w => Sys2Proof.Machine.execVxScanFfma c w s
  | .vxScanIadd c w => Sys2Proof.Machine.execVxScanIadd c w s
  | .vxScanImax c w => Sys2Proof.Machine.execVxScanImax c w s
  | .vxScanImin c w => Sys2Proof.Machine.execVxScanImin c w s
  | .vxSt c w => Sys2Proof.Machine.execVxSt c w s
  | .bobbinFill k table row epoch => Sys2Proof.Machine.execBobbinFill k table row epoch s
  | .agingTick k => Sys2Proof.Machine.execAgingTick k s
  | .prefetchIssue ways => Sys2Proof.Machine.execPrefetchIssue s ways
  | .batchClose k => Sys2Proof.Machine.execBatchClose k s
  | .batchSend k => Sys2Proof.Machine.execBatchSend k s
  | .lookupReq h es ways => Sys2Proof.Machine.execLookupReq h es ways s
  | .replySegmentSend k ways => Sys2Proof.Machine.execReplySegmentSend k s ways
  | .prefetchDropTimeout k => Sys2Proof.Machine.execPrefetchDropTimeout k s
  | .lookupReply h es => Sys2Proof.Machine.execLookupReply h es s
  | .replyTimeout k slot => Sys2Proof.Machine.execReplyTimeout k slot s
  | .readReq h p addr len => Sys2Proof.Machine.execReadReq h p addr len s
  | .readReply h status ws => Sys2Proof.Machine.execReadReply h status ws s
  | .write h p addr ws bad => Sys2Proof.Machine.execWrite h p addr ws bad s
  | .writeAck h status => Sys2Proof.Machine.execWriteAck h status s
  | .arrive h p addr pid => Sys2Proof.Machine.execArrive h p addr pid s
  | .arriveAck h status => Sys2Proof.Machine.execArriveAck h status s
  | .barrierArrival => Sys2Proof.Machine.execBarrierArrival s
  | .barrierHoldTimeout q seq => Sys2Proof.Machine.execBarrierHoldTimeout q seq s
  | .delta h es => Sys2Proof.Machine.execDelta h es s
  | .deltaAck h astatus holder => Sys2Proof.Machine.execDeltaAck h astatus holder s
  | .stageFullResend => Sys2Proof.Machine.execStageFullResend s
  | .migrateCopy h table bucket isRow row reply final => Sys2Proof.Machine.execMigrateCopy h table bucket isRow row reply final s
  | .migrateLog h table bucket isRow row entry => Sys2Proof.Machine.execMigrateLog h table bucket isRow row entry s
  | .migrateAck h table bucket isRow row isLog again => Sys2Proof.Machine.execMigrateAck h table bucket isRow row isLog s again
  | .migrationReady table isRow index => Sys2Proof.Machine.execMigrationReady table isRow index s
  | .fenceClose epoch src => Sys2Proof.Machine.execFenceClose epoch src s
  | .closeConditionMet => Sys2Proof.Machine.execCloseConditionMet s
  | .graceExpiry => Sys2Proof.Machine.execGraceExpiry s
  | .fenceClosed epoch src changes => Sys2Proof.Machine.execFenceClosed epoch src changes s
  | .fenceApply epoch src changes => Sys2Proof.Machine.execFenceApply epoch src changes s
  | .fenceApplyDone => Sys2Proof.Machine.execFenceApplyDone s
  | .fenceApplied epoch src stats => Sys2Proof.Machine.execFenceApplied epoch src stats s
  | .fenceLimitExpiry => Sys2Proof.Machine.execFenceLimitExpiry s
  | .retierBlockPrepared pass => Sys2Proof.Machine.execRetierBlockPrepared pass s
  | .joinReq poolId dx dy dz part rings => Sys2Proof.Machine.execJoinReq poolId dx dy dz part s rings
  | .joinGrant epoch members => Sys2Proof.Machine.execJoinGrant epoch members s
  | .joinDeny part check => Sys2Proof.Machine.execJoinDeny part check s
  | .joinReqResend => Sys2Proof.Machine.execJoinReqResend s
  | .memberUp part => Sys2Proof.Machine.execMemberUp part s
  | .memberDown part => Sys2Proof.Machine.execMemberDown part s
  | .departureTimeout part => Sys2Proof.Machine.execDepartureTimeout part s
  | .linkDown part port cause lastSeq => Sys2Proof.Machine.execLinkDown part port cause lastSeq s
  | .linkUp part port cause lastSeq => Sys2Proof.Machine.execLinkUp part port s cause lastSeq
  | .dropped uncertain route kind hdr => Sys2Proof.Machine.execDropped uncertain route kind hdr s
  | .ctrlResend => Sys2Proof.Machine.execCtrlResend s
  | .flitReceive p fl => Sys2Proof.Machine.execFlitReceive p fl s
  | .packetForward p vc => Sys2Proof.Machine.execPacketForward p vc s
  | .trainLock p => Sys2Proof.Machine.execTrainLock p s
  | .equaliseDone p => Sys2Proof.Machine.execEqualiseDone p s
  | .identityBlock p poolId part port dx dy dz rings peerFull fab => Sys2Proof.Machine.execIdentityBlock p poolId part port dx dy dz rings peerFull fab s
  | .trainTimeout p => Sys2Proof.Machine.execTrainTimeout p s
  | .laneLost p => Sys2Proof.Machine.execLaneLost p s
  | .degraded p => Sys2Proof.Machine.execDegraded p s
  | .portDrainComplete p => Sys2Proof.Machine.execPortDrainComplete p s
  | .portDrainTimeout p => Sys2Proof.Machine.execPortDrainTimeout p s
  | .linkDownTimeout p => Sys2Proof.Machine.execLinkDownTimeout p s
  | .aclDrainTimeout => Sys2Proof.Machine.execAclDrainTimeout s
  | .faultBatchFlush => Sys2Proof.Machine.execFaultBatchFlush s
  | .priResponse x page grant poisoned => Sys2Proof.Machine.execPriResponse x page grant s poisoned
  | .atsInvalidateRequest f pasid va size => Sys2Proof.Machine.execAtsInvalidateRequest f pasid va size s
  | .xltDrainTimeout => Sys2Proof.Machine.execXltDrainTimeout s
  | .cxlMemRead hpa errs keep => Sys2Proof.Machine.execCxlMemRead hpa errs keep s
  | .cxlMemWrite hpa bytes mask => Sys2Proof.Machine.execCxlMemWrite hpa bytes mask s
  | .backInvalidateResponse line dirty => Sys2Proof.Machine.execBackInvalidateResponse line dirty s
  | .hdmDecoderCommit dec base size hpa => Sys2Proof.Machine.execHdmDecoderCommit dec base size hpa s
  | .selvageReread => Sys2Proof.Machine.execSelvageReread s
  | .patrolScrub cw errs => Sys2Proof.Machine.execPatrolScrub cw errs s
  | .captureDone c => Sys2Proof.Machine.execCaptureDone c s
  | .classifyRepeatDone c again peerFails equal => Sys2Proof.Machine.execClassifyRepeatDone c again peerFails equal s
  | .neighbourTimeout c => Sys2Proof.Machine.execNeighbourTimeout c s
  | .coreFenced c => Sys2Proof.Machine.execCoreFenced c s
  | .vigilDue c => Sys2Proof.Machine.execVigilDue c s
  | .vigilTake c => Sys2Proof.Machine.execVigilTake c s
  | .vigilPhaseDone c digestA digestB digestC => Sys2Proof.Machine.execVigilPhaseDone c digestA digestB digestC s
  | .vigilTestAbandoned c => Sys2Proof.Machine.execVigilTestAbandoned c s
  | .vigilOverdue c => Sys2Proof.Machine.execVigilOverdue c s
  | .shadowCompare c equal => Sys2Proof.Machine.execShadowCompare c equal s
  | .cperRecord => Sys2Proof.Machine.execCperRecord s
  | .microcodeCoreUpdate c pass => Sys2Proof.Machine.execMicrocodeCoreUpdate c pass s
  | .fabPortUpdate p => Sys2Proof.Machine.execFabPortUpdate p s
  | .cpSwapPoint => Sys2Proof.Machine.execCpSwapPoint s
  | .cpSwapTimeout => Sys2Proof.Machine.execCpSwapTimeout s
  | .recalSlice g => Sys2Proof.Machine.execRecalSlice g s
  | .powerSample milliwatts activity rails => Sys2Proof.Machine.execPowerSample milliwatts activity s rails
  | .inputLockout millivolts => Sys2Proof.Machine.execInputLockout millivolts s
  | .efficiencyUpdate rail input rails => Sys2Proof.Machine.execEfficiencyUpdate rail input s rails
  | .energyAttribution cores service input shares => Sys2Proof.Machine.execEnergyAttribution cores service input s shares
  | .telemetryFrame crcOk millivolts milliamps rails which => Sys2Proof.Machine.execTelemetryFrame crcOk millivolts milliamps rails s which
  | .telemetryLost => Sys2Proof.Machine.execTelemetryLost s
  | .droop k => Sys2Proof.Machine.execDroop k s
  | .thermalReading k logic dram sensors layers => Sys2Proof.Machine.execThermalReading k logic dram s sensors layers
  | .thermalTrip k => Sys2Proof.Machine.execThermalTrip k s
  | .presentOpen => Sys2Proof.Machine.execPresentOpen s
  | .feIrqCauseWrite f v => Sys2Proof.Machine.execFeIrqCauseWrite f v s
  | .feDebugLockWrite f v => Sys2Proof.Machine.execFeDebugLockWrite f v s
  | .xltFaultHeadWrite f v => Sys2Proof.Machine.execXltFaultHeadWrite f v s
  | .rasCperHeadWrite f v => Sys2Proof.Machine.execRasCperHeadWrite f v s
  | .xltStatRead f half => Sys2Proof.Machine.execXltStatRead f s half
  | .cdwCvtFlagsWrite f c v => Sys2Proof.Machine.execCdwCvtFlagsWrite f c v s
  | .cdwGatherOorRead f c half => Sys2Proof.Machine.execCdwGatherOorRead f c s half
  | .cdwMxResidueRead f c half => Sys2Proof.Machine.execCdwMxResidueRead f c s half
  | .cdwMxResidueWrite f c v => Sys2Proof.Machine.execCdwMxResidueWrite f c v s
  | .cdwSeqFaultWrite f c v => Sys2Proof.Machine.execCdwSeqFaultWrite f c v s
  | .cdwBobCtlWrite f k v => Sys2Proof.Machine.execCdwBobCtlWrite f k v s
  | .cdwBobTagSelWrite f k v => Sys2Proof.Machine.execCdwBobTagSelWrite f k v s
  | .cdwBobTagLoRead f k half => Sys2Proof.Machine.execCdwBobTagLoRead f k s half
  | .cdwExuCtlWrite f k v half => Sys2Proof.Machine.execCdwExuCtlWrite f k v s half
  | .cdwSyncSelWrite f c v => Sys2Proof.Machine.execCdwSyncSelWrite f c v s
  | .cdwSyncValRead f c half => Sys2Proof.Machine.execCdwSyncValRead f c s half
  | .registerWrite f off v => Sys2Proof.Machine.execRegisterWrite f off v s
  | .mgmtIdentity => Sys2Proof.Machine.execMgmtIdentity s
  | .mgmtPower => Sys2Proof.Machine.execMgmtPower s
  | .mgmtThermal => Sys2Proof.Machine.execMgmtThermal s
  | .mgmtCperNext => Sys2Proof.Machine.execMgmtCperNext s
  | .mgmtCperReset => Sys2Proof.Machine.execMgmtCperReset s
  | .getVersion => Sys2Proof.Machine.execGetVersion s
  | .getCapabilities ver => Sys2Proof.Machine.execGetCapabilities ver s
  | .negotiateAlgorithms ver ed25519 sha512 => Sys2Proof.Machine.execNegotiateAlgorithms ver ed25519 sha512 s
  | .getDigests => Sys2Proof.Machine.execGetDigests s
  | .getCertificate slot off len => Sys2Proof.Machine.execGetCertificate slot off len s
  | .challenge slot nonce => Sys2Proof.Machine.execChallenge slot nonce s
  | .getMeasurements index nonce sign => Sys2Proof.Machine.execGetMeasurements index nonce sign s
  | .mbDoorbellWrite f slot => Sys2Proof.Machine.execMbDoorbellWrite f slot s
  | .msixUnmask f vector => Sys2Proof.Machine.execMsixUnmask f vector s
  | .hostLinkUp speed width flit busMaster msixEnable pages poisoned => Sys2Proof.Machine.execHostLinkUp speed width flit busMaster msixEnable pages s poisoned
  | .perstRelease => Sys2Proof.Machine.execPerstRelease s
  | .heldBatchDiscard k => Sys2Proof.Machine.execHeldBatchDiscard k s
  | .droopRecovery k => Sys2Proof.Machine.execDroopRecovery k s
  | .pointVoltageReached half => Sys2Proof.Machine.execPointVoltageReached half s
  | .hotSwapLatchRelease => Sys2Proof.Machine.execHotSwapLatchRelease s

end Sys2Proof.Machine
end

