-- ==== Sys2Proof/Machine/Tick.lean ====
section
/-! DEFINITION. What a tick of the reference counter does on an idle block (R36, R170 to R172, R185). -/

namespace Sys2Proof.Machine

open Sys2Proof

/-- The token buckets of a unit, in bytes, and what each has gained below a whole byte. -/
structure Buckets where
  tokens : KMap Int
  frac : KMap Nat
deriving DecidableEq, Repr

/-- A token bucket after a gain, up to its depth of 8 KiB (R172). -/
def bucketRefill (old : Int) (gain : Nat) : Int := min 8192 (old + gain)

/-- One bucket of a unit of `rate` bytes in a tick gains the share `num / den` of it, in percent (R170, R172). -/
def Buckets.gain (b : Buckets) (rate key num den : Nat) : Buckets :=
  let all := kget 0 b.frac key + rate * num
  { tokens := kput b.tokens key (bucketRefill (kget 0 b.tokens key) (all / (100 * den))), frac := kset 0 b.frac key (all % (100 * den)) }

/-- Cores of cluster `k` that a partition's shares count (R170, R173). -/
def Partition.coresIn (q : Partition) (k : Nat) : Nat := popCount 8 (q.shareMask >>> (8 * k))

/-- Cores in all partitions of the part, as the shares count them (R170). -/
def State.sharedCores (s : State) : Nat := (s.parts.map (fun e => popCount 128 e.2.shareMask)).sum

/-- The bytes of an exchange unit of 300 GB/s in a tick of 10 ns, and of a DRAM scheduler of 2 TB/s (R170). -/
abbrev exchRate : Nat := 3000
abbrev dramRate : Nat := 20000

/-- The buckets of cluster `k`'s exchange unit after a tick: pool service, which there has the one class READ, and WRITE and REMOTE of every
partition with a core in the cluster (R170, R171). -/
def State.refill (s : State) (k : Nat) (b : Buckets) : Buckets :=
  s.parts.foldl (fun b (e : Nat × Partition) =>
      let q := e.2
      let share := (100 - q.service) * q.coresIn k
      let den := 8 * (q.splitWrite + q.splitRemote)
      if share = 0 then b
      else (b.gain exchRate (bucketKey e.1 1) (share * q.splitWrite) den).gain exchRate (bucketKey e.1 2) (share * q.splitRemote) den)
    (b.gain exchRate (bucketKey 16 0) s.serviceShare 1)

/-- What cluster `k`'s DRAM scheduler keeps of its rates, of 200: half in reduced service and where the channel group stays at the reduced rate
(R544, R546), and of that 25 % while the limit row of R510 governs, and 97 % while refresh is doubled (R511; log entry 36). -/
def State.dramScale (s : State) (k : Nat) : Nat :=
  (if !s.fullService || s.service.slowGroups.testBit k then 1 else 2) *
    (if (s.clusterPower k).row = 3 then 25 else if (s.clusterPower k).row = 1 then 97 else 100)

/-- The buckets of cluster `k`'s DRAM scheduler after a tick: READ and WRITE of pool service and of every partition that has a core (R170,
R171), all scaled alike (R511). -/
def State.refillDram (s : State) (k : Nat) (b : Buckets) : Buckets :=
  let scale := s.dramScale k
  let service := 200 * (s.serviceRead + s.serviceWrite)
  s.parts.foldl (fun b (e : Nat × Partition) =>
      let q := e.2
      let share := scale * (100 - q.service) * popCount 128 q.shareMask
      let den := 200 * (s.sharedCores * (q.splitRead + q.splitWrite))
      if share = 0 then b
      else (b.gain dramRate (bucketKey e.1 0) (share * q.splitRead) den).gain dramRate (bucketKey e.1 1) (share * q.splitWrite) den)
    ((b.gain dramRate (bucketKey 16 0) (scale * s.serviceShare * s.serviceRead) service).gain dramRate (bucketKey 16 1)
      (scale * s.serviceShare * s.serviceWrite) service)

/-- A closed batch waits for tokens (R172, R185). -/
def Exchange.tokenWait (x : Exchange) : Bool := (x.closed ++ x.round).any (fun b => !x.holds b.bucket (16 + 16 * b.entries.length))

/-- An exchange unit after a tick: its buckets have gained, and TOKEN_WAIT has counted the 14 FCLK cycles of the tick where a closed batch
waited (R172, R185). -/
def State.tickExch (s : State) (k : Nat) (x : Exchange) : Exchange :=
  let b := s.refill k { tokens := x.tokens, frac := x.frac }
  { x with tokens := b.tokens, frac := b.frac, counters := if x.tokenWait then bump x.counters 0x178 14 else x.counters }

/-- Cluster `k`'s DRAM scheduler after a tick. -/
def State.tickDram (s : State) (k : Nat) (d : DramSched) : DramSched :=
  let b := s.refillDram k { tokens := d.tokens, frac := d.frac }
  { tokens := b.tokens, frac := b.frac }

/-- A tick while the module has power: the 64-bit reference counter advances by one (R36) and the buckets of every exchange unit and DRAM
scheduler gain their tokens (R172; log entry 13 for the rates). -/
def tick (s : State) : State :=
  if s.module.powered then
    { s with
      refCount := (s.refCount + 1) % 2 ^ 64
      exchanges := (List.range 16).foldl (fun m k => kmod {} m k (s.tickExch k)) s.exchanges
      dram := (List.range 16).foldl (fun m k => kmod {} m k (s.tickDram k)) s.dram }
  else s

end Sys2Proof.Machine
end

