-- ==== Sys2Proof/Safety.lean ====
section
/-! DEFINITION. The terms that claims are stated in: when a command's own effect is due. -/

namespace Sys2Proof.Machine

open Sys2Proof

/-! ### What no command undoes -/

/-- Device memory is in canonical form; the fuses hold key digests `keys`, revocations `revoked` and the debug fuse `debug`; the minimum
security version of image kind `kind` is at least `svn` (R550); and nothing but `queue`, or a rest of it, waits. -/
structure State.Keeps (keys : KMap Nat) (revoked : Nat) (debug : Bool) (kind svn : Nat) (queue : List Instr) (s : State) : Prop where
  mem : Memory.wf s.mem = true
  keys : s.service.keyDigest = keys
  revoked : s.service.revoked = revoked
  debug : s.service.debugFuse = debug
  svn : svn ≤ kget 0 s.service.minSvn kind
  queue : s.pending <:+ queue

/-! ### Sequencers -/

/-- The sequencer of core `c` runs, and the word at its PC is a well-formed instruction `w` with opcode `op` (R324), in a
pattern of CAP_LEVEL 0x0100 or above (R322). -/
abbrev State.atIns (s : State) (c op w : Nat) : Prop :=
  s.seqRuns c = true ∧ (s.core c).seq.ins? = some w ∧ insOp w = op ∧ insClean w = true ∧
    256 ≤ (s.core c).seq.capLevel

/-- Register `n` of core `c` as 64 bits (R323). -/
def State.g64 (s : State) (c n : Nat) : W64 := BitVec.ofNat 64 ((s.core c).seq.g n)

/-- The immediate of an instruction, sign-extended to 64 bits (R324). -/
def imm64 (w : Nat) : W64 := (BitVec.ofNat 32 w).signExtend 64

/-! ### Mailbox requests -/

/-- A well-formed request with opcode `op` runs in a slot of function `f`, and firmware answers requests, in RECOVERY one of R550
(R17, R18, R362, R363). -/
abbrev State.posted (s : State) (f slot op : Nat) : Prop :=
  s.firmware = true ∧ (s.service.state = 4 → inRecovery op = true) ∧ (s.fn f).serving slot = true ∧ (s.req f slot).opcode = op ∧ 1 ≤ (s.req f slot).slots ∧
    (s.req f slot).slots ≤ 4 ∧ (s.req f slot).version = 1

/-- The outcome of a request that is answered at once (R363): DONE with a status and a response, after a change of the state. -/
def State.answers (s t : State) (f slot status : Nat) (resp : List Byte) : Host.Outcome State Fault Refusal :=
  .next (t.respond (s.req f slot) status resp false)

/-- The outcome of a request that is accepted as an asynchronous operation (R365): the next OP_ID is taken, the work starts, and the
response carries ASYNC and the OP_ID. -/
def State.accepted (s : State) (f slot opcode : Nat) (start : State → Nat → State) : Host.Outcome State Fault Refusal :=
  let r := s.req f slot
  let id := (s.fn f).nextOp
  let op : AsyncOp := { opId := id, opcode := opcode, tag := r.tag, irq := r.irq, part := none }
  let t := s.updFn f (fun n => { n with nextOp := (id + 1) % 2 ^ 32, ops := op :: n.ops.filter (fun o => o.opId ≠ id) })
  .next ((start t id).respond r stOk (leBytes 4 id) true)

/-! ### Vector instructions -/

/-- The vector element state of core `c`. -/
def State.elem (s : State) (c : Nat) : VxState := (s.core c).vx.elem

/-- The state with another vector element state on core `c`. -/
def State.withElem (s : State) (c : Nat) (e : VxState) : State := s.updCore c (fun k => { k with vx := { k.vx with elem := e } })

/-- The element state after an instruction `w` that writes `v` to its destination and adds flags (R64, R267). -/
def VxState.wrote (e : VxState) (w v flags : Nat) : VxState := { e with v := e.v.set (vxDst w) v, flags := e.flags ||| flags }

/-- Saturation to INT32: the value's 32 bits and the SAT_INT flag (R54, R270). -/
def sat32i (i : Int) : Nat × Nat :=
  if i < -2 ^ 31 then (0x80000000, 2) else if 2 ^ 31 - 1 < i then (0x7FFFFFFF, 2) else ((BitVec.ofInt 32 i).toNat, 0)

end Sys2Proof.Machine
end

