-- ==== Sys2Proof/Certificates/Slice0/Obligations.lean ====
section
/-! DEFINITION. The statements for the provers. OBLIGATIONS.json lists them with the rules they rest on. -/

open Sys2Proof Sys2Proof.Machine

/-! ### Core sequencers -/

/-- R323, R325: an arithmetic, logic or immediate instruction writes gD modulo 2^64 and goes on; nothing else changes.
R323: sixteen 64-bit registers of which g0 reads as 0 and ignores writes; a write changes only its own register.
R459, R470: where the duplicated datapaths disagree, the instruction is a lockstep mismatch of the sequencer instead, and a word of
the instruction buffer that cannot be read twice is a fault with SELVAGE_MISMATCH (the operands that say so are the model's, log entry 15).
R325: a branch goes to PC + sext(IMM) where its condition holds and on where it does not; JMP always goes there. A target outside
the code is a fault of the branch (R342): recorded with the branch's PC unless a fault is recorded already, and the command fails.
R326: the values of the GETS selectors for a core that runs a command. -/
def Obligations.SequencerInstructions : Prop :=
  (∀ (s : State) (c : CoreId) (w : Nat),
     let a := s.g64 c (insA w)
     let b := s.g64 c (insB w)
     let d := s.g64 c (insD w)
     let put := fun (v : W64) => Host.Outcome.next (s.updSeq c (fun q => (q.setG (insD w) v.toNat).adv))
     (s.atIns c 0x00 w → exec (.seqNop c 0 false) s = .next (s.updSeq c Sequencer.adv)) ∧
     (s.atIns c 0x01 w → exec (.seqLi c) s = put (imm64 w)) ∧
     (s.atIns c 0x02 w → exec (.seqLui c) s = put ((d &&& 0xFFFFFFFF#64) ||| ((BitVec.ofNat 64 w) <<< 32))) ∧
     (s.atIns c 0x03 w → exec (.seqAdd c false) s = put (a + b)) ∧
     (s.atIns c 0x04 w → exec (.seqAddi c false) s = put (a + imm64 w)) ∧
     (s.atIns c 0x05 w → exec (.seqSub c false) s = put (a - b)) ∧
     (s.atIns c 0x06 w → exec (.seqMul c false) s = put (a * b)) ∧
     (s.atIns c 0x07 w → exec (.seqAnd c false) s = put (a &&& b)) ∧
     (s.atIns c 0x08 w → exec (.seqOr c false) s = put (a ||| b)) ∧
     (s.atIns c 0x09 w → exec (.seqXor c false) s = put (a ^^^ b)) ∧
     (s.atIns c 0x0A w → exec (.seqShl c false) s = put (a <<< (b.toNat % 64))) ∧
     (s.atIns c 0x0B w → exec (.seqShr c false) s = put (a >>> (b.toNat % 64))) ∧
     (s.atIns c 0x00 w → ∀ (errs : Fin 4) (again : Bool), exec (.seqNop c errs again) s =
       .next (if errs = 3 && again then (s.sramErr c 1 errs).seqFail c stSelvageMismatch 0 0
         else (s.sramErr c 1 errs).updSeq c Sequencer.adv)) ∧
     (∀ e ∈ [(0x03, Instr.seqAdd c true), (0x04, .seqAddi c true), (0x05, .seqSub c true), (0x06, .seqMul c true), (0x07, .seqAnd c true),
             (0x08, .seqOr c true), (0x09, .seqXor c true), (0x0A, .seqShl c true), (0x0B, .seqShr c true)],
       s.atIns c e.1 w → exec e.2 s = .next (s.arithFault c 1 false ⟨true, 0, 0, 0⟩ (leBytes 8 w)))) ∧
  (∀ (q : Sequencer) (n m v : Nat),
     q.g 0 = 0 ∧ q.setG 0 v = q ∧ q.g m < 2 ^ 64 ∧
     (n ≠ 0 → (q.setG n v).g n = v % 2 ^ 64) ∧ (m ≠ n → (q.setG n v).g m = q.g m) ∧ (q.setG n v).pc = q.pc ∧
     q.adv.pc = q.pc + 1 ∧ q.adv.regs = q.regs) ∧
  (∀ (s : State) (c : CoreId) (w : Nat),
     let a := s.g64 c (insA w)
     let b := s.g64 c (insB w)
     let pc := ((s.core c).seq.pc : Int) + (BitVec.ofNat 32 w).toInt
     let goes := fun (taken : Bool) => Host.Outcome.next (
       if !taken then s.updSeq c Sequencer.adv
       else if 0 ≤ pc ∧ pc < ((s.core c).seq.code.length : Int) then s.updSeq c (fun q => q.goto pc.toNat)
       else (s.updCore c (fun k => k.recordFault stBadPattern 0 0)).failCore c stBadPattern)
     (s.atIns c 0x10 w → exec (.seqBeq c) s = goes (a == b)) ∧
     (s.atIns c 0x11 w → exec (.seqBne c) s = goes (a != b)) ∧
     (s.atIns c 0x12 w → exec (.seqBlt c) s = goes (a.slt b)) ∧
     (s.atIns c 0x13 w → exec (.seqBge c) s = goes (!a.slt b)) ∧
     (s.atIns c 0x14 w → exec (.seqJmp c) s = goes true) ∧
     (∀ (q : Sequencer) (t : Nat), (q.goto t).pc = t ∧ (q.goto t).regs = q.regs ∧ (q.goto t).code = q.code)) ∧
  (∀ (s : State) (c key : Nat) (m : Cmd), (s.core c).cmd = some key → s.cmd? key = some m →
     s.getsValue c 0 = some (s.core c).rank ∧ s.getsValue c 1 = some m.cores.length ∧ s.getsValue c 2 = some c ∧
     s.getsValue c 3 = some (c / 8) ∧ s.getsValue c 4 = some s.pool.partId ∧
     (m.kind = kindStep → s.getsValue c 5 = some m.epoch) ∧ (m.kind ≠ kindStep → s.getsValue c 5 = some s.epochs.epoch) ∧
     s.getsValue c 6 = some (s.core c).ctx ∧ s.getsValue c 7 = some m.part ∧
     (∀ i, i < 4 → s.getsValue c (8 + i) = some (fieldAt m.entry (32 + 4 * i) 4)) ∧
     s.getsValue c 12 = some s.refCount ∧ s.getsValue c 13 = some s.service.capLevel ∧
     s.getsValue c 14 = some (if m.ties then 1 else 0) ∧ (∀ i, 14 < i → s.getsValue c i = none))

/-- R325, R326, R331, R342: LDS, STS, GETS and FETCH. A scratch access is 8-byte aligned within the context's window; LDS of unpoisoned
words loads 8 little-endian bytes and notes the rounding flag (R465), and STS stores them; GETS reads the value its selector names;
FETCH goes on at once while its block is in flight, and fills its batch buffer when the block is read. -/
def Obligations.SequencerLoadsAndStores : Prop :=
  ∀ (s : State) (c : CoreId) (w : Nat),
    let k := s.core c
    let x := k.ctx
    let addr := (s.g64 c (insA w) + imm64 w).toNat
    (s.atIns c 0x18 w → addr % 8 = 0 → addr + 8 ≤ s.winSize x → bitAt (s.scrRangeFlags c x addr 8) 0 = false →
      exec (.seqLds c 0) s = .next (s.updCore c (fun k =>
        { k with sawTies := k.sawTies || bitAt (s.scrRangeFlags c x addr 8) 1,
                 seq := (k.seq.setG (insD w) (s.scrNat c x addr 8)).adv }))) ∧
    (s.atIns c 0x18 w → addr % 8 = 0 → addr + 8 ≤ s.winSize x →
      (∀ errs : Fin 4, errs ≠ 3 → bitAt (s.scrRangeFlags c x addr 8) 0 = false → exec (.seqLds c errs) s = exec (.seqLds c 0) (s.sramErr c 6 errs)) ∧
      (s.scrRangeFlags c x addr 8 % 2 = 1 → ∃ t : State, exec (.seqLds c 0) s = .next (t.seqFail c stPoisonConsumed 0 0) ∧
        kget 0 t.ras.counters 0x238 = (kget 0 s.ras.counters 0x238 + 1) % 2 ^ 48 ∧ t.core c = s.core c)) ∧
    (s.atIns c 0x19 w → addr % 8 = 0 → addr + 8 ≤ s.winSize x →
      exec (.seqSts c) s = .next ((s.writeScr c x addr (leBytes 8 (s.g64 c (insB w)).toNat) (s.tieFlag c (s.coreTies c))).updSeq c
        Sequencer.adv)) ∧
    (∀ v, s.atIns c 0x1A w → s.getsValue c (insImm w) = some v →
      exec (.seqGets c) s = .next (s.updSeq c (fun q => (q.setG (insD w) v).adv))) ∧
    (∀ (n buf : Nat) (ws : List WireWord) (ok : Bool) (t : State),
      let va := k.seq.descVa + 2048 * n
      let sent := (s.updSeq c (fun q => q.stall 6 0)).updSeq c (fun q => { q.adv with fetch := kput q.fetch buf (va, q.pc) })
      let read := readBlock (s.seqWho c) va 2048 (blockIdOf x va) false
      s.atIns c 0x20 w → n = (s.g64 c (insA w) + BitVec.ofNat 64 (insImm w)).toNat → n < k.seq.descCount →
        buf = (if insBuf w then 1 else 0) → kfind k.seq.fetch buf = none →
        (read.run sent = (.error .wait, t) → exec (.seqFetch c) s = .next t) ∧
        (read.run sent = (.ok (ws, ok), t) → exec (.seqFetch c) s = .next (t.updCore c (fun k =>
          let bs := ws.flatMap (fun (x : WireWord) => x.data)
          let q := { k.seq with fetch := kdel k.seq.fetch buf }
          let q := if insBuf w then { q with buf1 := bs, valid1 := true } else { q with buf0 := bs, valid0 := true }
          { k.endAccess 0 with seq := q, sawTies := k.sawTies || ws.any (fun (x : WireWord) => x.ties) }))))

/-- R322, R342: a PC outside the code, a reserved OP, an instruction of a pattern whose CAP_LEVEL is below 0x0100, a reserved bit that
is not zero, a misaligned or outlying scratch address, an unknown selector, a batch beyond DESC_COUNT and a WAITE mask of 0 are faults
with BAD_PATTERN: recorded in CDW_SEQ_FAULT unless a fault is already recorded there (R344), and the command fails. -/
def Obligations.SequencerFaults : Prop :=
  ∀ (s : State) (c : CoreId) (w : Nat),
    let k := s.core c
    let addr := (s.g64 c (insA w) + imm64 w).toNat
    let fault := Host.Outcome.next ((s.updCore c (fun k => k.recordFault stBadPattern 0 0)).failCore c stBadPattern)
    (∀ (k : Core) (status type slot : Nat),
      (bitAt k.seqFault 0 = true → k.recordFault status type slot = k) ∧
      (bitAt k.seqFault 0 = false → k.recordFault status type slot = { k with
        seqFault := status * 2 ^ 48 + k.seq.pc % 2048 * 2 ^ 32 + type * 2 ^ 24 + slot * 2 ^ 16 + 1 })) ∧
    (s.seqRuns c = true → k.seq.ins? = none → exec (.seqNop c 0 false) s = fault ∧ exec (.seqAdd c false) s = fault ∧ exec (.seqEnd c) s = fault) ∧
    (s.seqRuns c = true → k.seq.ins? = some w → insMask (insOp w) = none → exec (.seqNop c 0 false) s = fault) ∧
    (s.seqRuns c = true → k.seq.ins? = some w → insOp w = 0x03 → insClean w = false → exec (.seqAdd c false) s = fault) ∧
    (s.seqRuns c = true → k.seq.ins? = some w → insOp w = 0x03 → k.seq.capLevel < 0x0100 → exec (.seqAdd c false) s = fault) ∧
    (s.atIns c 0x18 w → (addr % 8 ≠ 0 ∨ s.winSize k.ctx < addr + 8) → exec (.seqLds c 0) s = fault) ∧
    (s.atIns c 0x19 w → (addr % 8 ≠ 0 ∨ s.winSize k.ctx < addr + 8) → exec (.seqSts c) s = fault) ∧
    (s.atIns c 0x1A w → s.getsValue c (insImm w) = none → exec (.seqGets c) s = fault) ∧
    (s.atIns c 0x20 w → k.seq.descCount ≤ (s.g64 c (insA w) + BitVec.ofNat 64 (insImm w)).toNat → exec (.seqFetch c) s = fault) ∧
    (s.atIns c 0x23 w → insImm w = 0 → exec (.seqWaite c) s = fault)

/-! ### Synchronisation -/

/-- R411, R412: a tally sticks at 2^48 − 1 once a sum reaches it, and a zero add changes nothing. R415: a give adds one unit and sticks
at 65,535 with the pair's SAT bit, without a status; a take removes one from its side, and waits, with the pair as it was, while the
side is 0. -/
def Obligations.TalliesAndPairs : Prop :=
  (∀ (t : Tally) (n src : Nat), t.sat = false → n ≠ 0 → t.value + n < 2 ^ 48 - 1 → t.add n src = { t with value := t.value + n, src := src }) ∧
  (∀ (t : Tally) (n src : Nat), t.sat = false → n ≠ 0 → 2 ^ 48 - 1 ≤ t.value + n →
    t.add n src = { value := 2 ^ 48 - 1, sat := true, src := src }) ∧
  (∀ (t : Tally) (n src : Nat), t.sat = true → (t.add n src).value = t.value ∧ (t.add n src).sat = true) ∧
  (∀ (t : Tally) (src : Nat), t.add 0 src = t) ∧
  (∀ (p : Pair) (src : Nat), p.prod ≤ 65535 → (p.giveProd src).prod = min 65535 (p.prod + 1) ∧ (p.giveProd src).cons = p.cons ∧
    ((p.giveProd src).sat = (p.sat || p.prod == 65535))) ∧
  (∀ (p : Pair) (src : Nat), p.cons ≤ 65535 → (p.giveCons src).cons = min 65535 (p.cons + 1) ∧ (p.giveCons src).prod = p.prod ∧
    ((p.giveCons src).sat = (p.sat || p.cons == 65535))) ∧
  (∀ p : Pair, (p.take 0).prod = p.prod - 1 ∧ (p.take 0).cons = p.cons ∧ (p.take 1).cons = p.cons - 1 ∧ (p.take 1).prod = p.prod) ∧
  (∀ (s : State) (c : CoreId) (w : Nat),
    let x := (s.core c).ctx
    let p := ((s.core c).set x).pair (insImm w)
    (s.atIns c 0x28 w → p.prod = 0 → ∃ t, exec (.seqSemtake c 0) s = .next t ∧ ((t.core c).set x).pair (insImm w) = p ∧
      (t.core c).seq.pc = (s.core c).seq.pc ∧ t.cmds = s.cmds) ∧
    (s.atIns c 0x29 w → p.held ≠ 0 → p.cons = 65535 → ∃ t, exec (.seqSemgive c 0) s = .next t ∧
      (((t.core c).set x).pair (insImm w)).cons = 65535 ∧ (((t.core c).set x).pair (insImm w)).sat = true ∧ t.cmds = s.cmds ∧ t.ras = s.ras)) ∧
  (∀ (g : SyncSet) (u : SemWaiter), g.grants.contains u = false → (g.pair u.pair).side u.side = 0 →
    (g.engineTake u).2 = false ∧ (g.engineTake u).1.pair u.pair = g.pair u.pair)

/-- R325, R329, R411 to R417: WAITE, SEMTAKE, SEMGIVE, TADD and TWAIT go on where their condition holds; SEMTAKE queues and a wait
records its code and id (R343) where it does not; SEMGIVE with nothing held ends the command with SEM_UNDERFLOW.
R459, R467, R469: one or two wrong symbols in the entry read change nothing of this; an uncorrectable entry tears the context down with
POISON_CONSUMED (the operand is the model's, log entry 15).
R413, R414, R416: the first waiting take on a side that holds a unit is served, and a TWAIT whose tally has reached its target ends. -/
def Obligations.SequencerSynchronisation : Prop :=
  (∀ (s : State) (c : CoreId) (w : Nat),
     let k := s.core c
     let x := k.ctx
     let i := insImm w
     let g := k.set x
     (s.atIns c 0x23 w → i ≠ 0 → k.drained i = true → exec (.seqWaite c) s = .next (s.updSeq c Sequencer.adv)) ∧
     (s.atIns c 0x23 w → i ≠ 0 → k.drained i = false → exec (.seqWaite c) s = .next (s.updSeq c (fun q => q.stall 1 i))) ∧
     (s.atIns c 0x28 w → g.free i 0 = true →
       exec (.seqSemtake c 0) s = .next ((s.updCore c (fun k => k.updSet x (fun g =>
         g.updPair i (fun p => { p.take 0 with held := min 65535 (p.held + 1) })))).updSeq c Sequencer.adv)) ∧
     (s.atIns c 0x28 w → g.free i 0 = false → g.waiters.contains ⟨i, 0, 0⟩ = false →
       exec (.seqSemtake c 0) s = .next ((s.updCore c (fun k => k.updSet x (fun g =>
         { g with waiters := g.waiters ++ [⟨i, 0, 0⟩] }))).updSeq c (fun q => q.stall 2 i))) ∧
     (s.atIns c 0x29 w → (g.pair i).held ≠ 0 →
       exec (.seqSemgive c 0) s = .next ((s.updCore c (fun k => k.updSet x (fun g =>
         g.updPair i (fun p => { p.giveCons 1 with held := p.held - 1 })))).updSeq c Sequencer.adv)) ∧
     (s.atIns c 0x29 w → (g.pair i).held = 0 → exec (.seqSemgive c 0) s = .next (s.seqFail c stSemUnderflow 0 0)) ∧
     (s.atIns c 0x2A w →
       exec (.seqTadd c 0) s = .next ((s.tallyAdd c x i (s.g64 c (insA w)).toNat 1 k.cmd).updSeq c Sequencer.adv)) ∧
     (s.atIns c 0x2B w → (s.g64 c (insA w)).toNat ≤ (kget {} g.tallies i).value → (s.g64 c (insA w)).toNat < 2 ^ 48 →
       exec (.seqTwait c 0) s = .next (s.updSeq c Sequencer.adv)) ∧
     (s.atIns c 0x2B w → (kget {} g.tallies i).value < (s.g64 c (insA w)).toNat → (s.g64 c (insA w)).toNat < 2 ^ 48 →
       exec (.seqTwait c 0) s = .next (s.updSeq c (fun q => { q.stall 3 i with target := (s.g64 c (insA w)).toNat }))) ∧
     (∀ e ∈ [(0x28, fun (errs : Fin 4) => Instr.seqSemtake c errs), (0x29, fun (errs : Fin 4) => .seqSemgive c errs),
             (0x2A, fun (errs : Fin 4) => .seqTadd c errs), (0x2B, fun (errs : Fin 4) => .seqTwait c errs)], s.atIns c e.1 w →
       (∀ errs : Fin 4, errs ≠ 3 → exec (e.2 errs) s = exec (e.2 0) (s.sramErr c 5 errs)) ∧
       (let key := k.cmd.getD 0
        let ev : RasEvent := { event := 0, unit := 5, core := c, cluster := clusterOf c, ctx := x, queue := key / 2 ^ 48, seq := key % 2 ^ 48 }
        exec (e.2 3) s = .next (((s.sramErr c 5 3).consume ev).tear x stPoisonConsumed)))) ∧
  (∀ (s : State) (c : CoreId) (pair : Fin 64) (w : SemWaiter),
    let k := s.core c
    let g := k.set k.ctx
    g.waiters.find? (fun w => w.pair = pair.val && w.side = 0 && (g.pair pair).prod ≠ 0) = some w → w.unit = 0 →
    exec (.semTakeServed c pair) s = .next (s.updCore c (fun k =>
      { k.updSet k.ctx (fun g => { g.updPair pair (fun p => { p.take 0 with held := min 65535 (p.held + 1) }) with
          waiters := g.waiters.erase w }) with seq := k.seq.adv }))) ∧
  (∀ (s : State) (c : CoreId) (pair : Fin 64) (w : SemWaiter),
    let k := s.core c
    let g := k.set k.ctx
    g.waiters.find? (fun w => w.pair = pair.val && w.side = 0 && (g.pair pair).prod ≠ 0) = some w → w.unit ≠ 0 →
    exec (.semTakeServed c pair) s = .next (s.updCore c (fun k => k.updSet k.ctx (fun g =>
      { g.updPair pair (fun p => p.take w.side) with waiters := g.waiters.erase w, grants := g.grants ++ [w] })))) ∧
  (∀ (s : State) (c : CoreId), (s.core c).seq.wait = 3 → s.seqRuns c = true →
    (s.core c).seq.target ≤ (kget {} ((s.core c).set (s.core c).ctx).tallies (s.core c).seq.waitId).value →
    exec (.tallyWaitSatisfied c) s = .next (s.updSeq c Sequencer.adv))

/-- R178, R423, R424: BARRIVE sends the core's arrival, with its PID, to the barrier unit once the core's earlier writes are visible,
and stalls; BWAIT goes on when the round of the core's last arrival is complete and else waits there.
R422 to R425, R431: an arrival that is due counts, and its participant goes on; one ahead of its round is held; the arrival that makes
COUNT completes the round, and the record is written; a refused arrival fails its command; a held arrival that outlasts its command's
timeout ends it as TIMEOUT does; BARRIER_QUERY reports an active barrier. -/
def Obligations.BarrierInstructions : Prop :=
  (∀ (s : State) (c : CoreId) (w pa : Nat) (t : State) (b : Barrier),
     let k := s.core c
     let va := (s.g64 c (insA w)).toNat
     let pid := pidOf t.pool.partId (t.core c).ctx (t.core c).rank 0
     (barrierPlace (s.seqWho c) va).run s = (.ok pa, t) → pa / devSize = t.pool.partId → t.barrierAt (pa % devSize) = some b →
     b.fits (t.roomIn (s.seqWho c) va) = true →
     (s.atIns c 0x2C w → k.seq.arrHeld = false → s.visible c = true →
       exec (.seqBarrive c) s = .next (({ t with arrivals := t.arrivals ++
         [⟨pa % devSize, pid, (t.ctx (t.core c).ctx).part, k.cmd.getD 0, c, true, none⟩] } : State).updSeq c
           (fun q => { q.stall 4 0 with arrHeld := true }))) ∧
     (∀ e, s.atIns c 0x2D w → b.entries.find? (fun e => e.pid = pidOf t.pool.partId k.ctx k.rank 0) = some e → e.lastGen ≤ b.round →
       exec (.seqBwait c) s = .next (t.updSeq c Sequencer.adv)) ∧
     (∀ e, s.atIns c 0x2D w → b.entries.find? (fun e => e.pid = pidOf t.pool.partId k.ctx k.rank 0) = some e → b.round < e.lastGen →
       b.waiters.contains c.val = false →
       exec (.seqBwait c) s = .next ((t.putBarrier { b with waiters := b.waiters ++ [c.val] }).updSeq c (fun q => q.stall 4 0)))) ∧
  (∀ (s : State) (a : Arrival) (rest : List Arrival), s.arrivals = a :: rest →
    let u : State := { s with arrivals := rest }
    (∀ b, s.barrierAt a.addr = some b → u.arrivalRefused a (some b) = none →
      (let e : Participant := ⟨a.pid, b.round + 1, false, none, some a⟩
       let c : Barrier := { b with arrived := b.arrived + 1, lastPid := a.pid, entries := b.entries ++ [e] }
       (∀ d ∈ b.entries, d.pid ≠ a.pid) → b.arrived + 1 < b.count →
        exec .barrierArrival s = .next ((u.putBarrier (u.wakeWaiters c)).releaseArrival a)) ∧
      (let e : Participant := ⟨a.pid, b.round + 1, false, none, some a⟩
       let c : Barrier := u.wakeWaiters { b with round := b.round + 1, arrived := 0, lastPid := a.pid, entries := b.entries ++ [e] }
       (∀ d ∈ b.entries, d.pid ≠ a.pid ∧ d.hold = false) → b.held = 0 → b.arrived + 1 = b.count →
        exec .barrierArrival s = .next (((u.writePlain c.addr c.bytes).putBarrier c).releaseArrival a)) ∧
      (let c : Barrier := { b with held := b.held + 1,
                                   entries := b.entries.map (fun e => if e.pid = a.pid then { e with hold := true, arrival := some a } else e) }
       (∃ d ∈ b.entries, d.pid = a.pid) → (∀ d ∈ b.entries, d.pid = a.pid → b.round < d.lastGen) → b.arrived ≠ b.count →
        exec .barrierArrival s = .next (u.putBarrier (u.wakeWaiters c)))) ∧
    (∀ st, u.arrivalRefused a (s.barrierAt a.addr) = some st → exec .barrierArrival s = .next (u.refuseArrival a st)) ∧
    (∀ b, a.addr % 64 ≠ 0 → u.arrivalRefused a (some b) = some stBarrierMisuse) ∧ u.arrivalRefused a none = some stBarrierMisuse) ∧
  (∀ (s : State) (q : QueueId) (seq : BitVec 48),
    let key := q.val * 2 ^ 48 + seq.toNat
    s.barriers.any (fun b => b.entries.any (fun e => e.hold && e.arrival.any (fun a => a.isLocal && a.cmd = key))) = true →
    exec (.barrierHoldTimeout q seq) s = .next (s.expire key)) ∧
  (∀ (s t : State) (f : FnId) (slot : Fin 28) (pa : Nat) (b : Barrier),
    let r := s.req f slot
    s.posted f slot 0x0A01 → s.strangeCtx f (r.u 0 1) = false → r.u 8 8 % 64 = 0 →
    s.xlateCp false (r.u 0 1) (r.u 8 8) false true = (t, .ok (.dev pa)) → pa / devSize = s.pool.partId →
    s.barriers.find? (fun b => b.addr = pa % devSize) = some b →
    exec (.barrierQuery f slot) s = s.answers t f slot stOk (leBytes 2 1 ++ leBytes 2 b.count ++ leBytes 2 b.arrived ++ leBytes 2 b.held ++
      leBytes 8 b.round ++ leBytes 8 b.lastPid ++ leBytes 16 (bitMask (b.waiters.map (· % 128))) ++ leBytes 2 b.entries.length))

/-- R325, R328, R329, R331 to R333: ISSUE of a loaded buffer's slot, ISSUEX of a descriptor in scratch: a descriptor that passes its checks
goes to its queue if that has room, else the sequencer stalls; a refused one is a sequencer fault that records its type and slot. An ISSUE
waits while a FETCH of its buffer is in flight. A NULL descriptor does nothing but let the sequencer go on. R330, R339, R340: ENQ reserves a
place in a queue of the core's own context, and with it the next slot of its ring (log entry 33), for the entry in scratch, and waits while
none is free; END waits until every FETCH has landed and every queue is empty, and then ends the core's share, and the command with OK when
every core has ended; FAIL ends the command with PATTERN_FAILED and its detail. -/
def Obligations.DescriptorIssue : Prop :=
  (∀ (s : State) (c : CoreId) (w : Nat) (b : List Byte) (recs : Option (List (List Byte))),
     let k := s.core c
     let type := fieldAt b 0 1
     let landed := kfind k.seq.fetch (if insBuf w then 1 else 0) = none
     (∀ t, s.atIns c 0x21 w → (endFetch c (if insBuf w then 1 else 0)).run s = (.error .wait, t) →
       exec (.seqIssue c) s = .next (t.updSeq c (fun q => q.stall 6 0))) ∧
     (s.atIns c 0x21 w → landed → k.issued? w = some (b, recs) → s.judge c b recs = none → k.room type = true →
       exec (.seqIssue c) s = .next ((s.enqueueDesc c (w % 32) b (recs.getD [])).updSeq c Sequencer.adv)) ∧
     (s.atIns c 0x21 w → landed → k.issued? w = some (b, recs) → s.judge c b recs = none → k.room type = false →
       ∃ code, exec (.seqIssue c) s = .next (s.updSeq c (fun q => q.stall 5 code))) ∧
     (∀ st, s.atIns c 0x21 w → landed → k.issued? w = some (b, recs) → s.judge c b recs = some st →
       exec (.seqIssue c) s = .next (s.seqFail c st type (w % 32))) ∧
     (s.atIns c 0x21 w → landed → k.issued? w = none → exec (.seqIssue c) s = .next (s.seqFail c stBadPattern 0 0)) ∧
     (s.atIns c 0x22 w → b = s.scr c k.ctx (k.seq.g (insA w)) 64 → recordCount b = 0 → k.seq.g (insA w) % 64 = 0 →
       k.seq.g (insA w) + 64 ≤ s.winSize k.ctx → bitAt (s.scrRangeFlags c k.ctx (k.seq.g (insA w)) 64) 0 = false →
       exec (.seqIssuex c) s = .next ((s.updCore c (fun k => { k with
         sawTies := k.sawTies || bitAt (s.scrRangeFlags c (s.core c).ctx ((s.core c).seq.g (insA w)) 64) 1 })).issue c 0xFF b (some []))) ∧
     (s.atIns c 0x21 w → landed → k.issued? w = some (b, recs) → type = 0 → fieldAt b 1 1 = 1 →
       exec (.nullDescriptor c) s = .next (s.updSeq c Sequencer.adv) ∧ exec (.seqIssue c) s = .next (s.updSeq c Sequencer.adv))) ∧
  (∀ (s : State) (c : CoreId) (w key : Nat) (m : Cmd),
     let k := s.core c
     let a := k.seq.g (insA w)
     let q := insImm w
     (s.core c).cmd = some key → s.cmd? key = some m → m.key = key →
     (s.atIns c 0x30 w → a % 64 = 0 → a + 64 ≤ s.winSize k.ctx → bitAt (s.scrRangeFlags c k.ctx a 64) 0 = false →
       (s.queue q).state ≠ 0 → (s.queue q).ctx = k.ctx → m.depth < 7 → k.seq.enqs < 16 →
       (m.enqs.filter (fun r => r.rank = k.rank)).length ≤ k.seq.enqs → s.slotsFree q 1 = true →
       ∃ t, exec (.seqEnq c) s = .next t ∧ (t.queue q).reserved = (s.queue q).reserved + 1 ∧
         (t.core c).seq.pc = k.seq.pc + 1 ∧ (t.core c).seq.enqs = k.seq.enqs + 1 ∧ t.mem = s.mem ∧
         t.cmd? key = some { m with enqs := m.enqs ++ [⟨q, m.enqs.length, s.scr c k.ctx a 64, k.rank, true, (s.queue q).nextSlot 0⟩] }) ∧
     (s.atIns c 0x30 w → a % 64 = 0 → a + 64 ≤ s.winSize k.ctx → (s.queue q).state ≠ 0 → (s.queue q).ctx = k.ctx → m.depth < 7 →
       k.seq.enqs < 16 → (m.enqs.filter (fun r => r.rank = k.rank)).length ≤ k.seq.enqs → s.slotsFree q 1 = false →
       exec (.seqEnq c) s = .next (s.updSeq c (fun k => k.stall 7 (q % 256)))) ∧
     (s.slotsFree q 1 = true ↔ (s.queue q).reserved < 2 ^ (s.queue q).sqLog2 ∧
       ∀ e ∈ s.cmds, ∀ r ∈ e.2.enqs, r.queue = q → r.ringSlot ≠ (s.queue q).nextSlot 0) ∧
     (s.atIns c 0x38 w → k.seq.fetch = [] → k.drained 0xF = true → k.wpend = 0 → m.endedCores + 1 ≠ m.cores.length →
       ∃ t, exec (.seqEnd c) s = .next t ∧ (t.core c).seq.ended = true ∧ (t.core c).seq.active = false ∧
         t.cmd? key = some { m with endedCores := m.endedCores + 1 } ∧ t.mem = s.mem) ∧
     (s.atIns c 0x38 w → k.seq.fetch = [] → k.drained 0xF = true → k.wpend = 0 → m.endedCores + 1 = m.cores.length →
       exec (.seqEnd c) s = .next (((s.updSeq c (fun q => { q.adv with ended := true, active := false })).updCmd key
         (fun m => { m with endedCores := m.endedCores + 1 })).endCmd key stOk)) ∧
     (s.atIns c 0x38 w → k.seq.fetch = [] → k.drained 0xF = false → exec (.seqEnd c) s = .next (s.updSeq c (fun q => q.stall 1 0xF))) ∧
     (s.atIns c 0x39 w →
       exec (.seqFail c) s = .next ((s.updCmd key (fun m => { m with detail := insImm w })).seqFail c stPatternFailed 0 0)))

/-! ### Vector instructions -/

/-- R269, R270: moves and floating-point instructions write their rounded result to the destination register of the element and
collect its flags; nothing else of the machine changes. FEXP, FLOG, FTANH and FSIGM are functions of input and rounding mode (R271;
log entry 7).
R269, R270: comparisons give 0 where an operand is NaN and take −0 and +0 as equal; SEL takes B unless A is a zero pattern; FCLAMP is
FMIN(FMAX(A, B), C); CVTIF and CVTFI convert under R52 to R55. -/
def Obligations.VectorFloat : Prop :=
  (∀ (s : State) (c : CoreId) (w : BitVec 32),
     let e := s.elem c
     let a := e.operand (vxA w.toNat)
     let b := e.operand (vxB w.toNat)
     let d := e.operand (vxC w.toNat)
     let op := vxOpc w.toNat
     let put := fun (r : Nat × Nat) => Host.Outcome.next (s.withElem c (e.wrote w.toNat r.1 r.2))
     (op = 0x00 → exec (.vxNop c w) s = .next (s.withElem c e)) ∧
     (op = 0x01 → exec (.vxMov c w) s = put (a, 0)) ∧
     (op = 0x02 → exec (.vxFadd c w) s = put (arith32 e.ties (fvAdd (f32 a) (f32 b)))) ∧
     (op = 0x03 → exec (.vxFsub c w) s = put (arith32 e.ties (fvAdd (f32 a) (fvNeg (f32 b))))) ∧
     (op = 0x04 → exec (.vxFmul c w) s = put (arith32 e.ties (fvMul (f32 a) (f32 b)))) ∧
     (op = 0x05 → exec (.vxFfma c w) s = put (arith32 e.ties (fvAdd (fvMul (f32 a) (f32 b)) (f32 d)))) ∧
     (op = 0x06 → exec (.vxFmin c w) s = put (fmin32 a b, 0)) ∧
     (op = 0x07 → exec (.vxFmax c w) s = put (fmax32 a b, 0)) ∧
     (op = 0x08 → exec (.vxFabs c w) s = put (if fvIsNan (f32 a) then 0x7FC00000 else a % 2 ^ 31, 0)) ∧
     (op = 0x09 → exec (.vxFneg c w) s =
       put (if fvIsNan (f32 a) then 0x7FC00000 else if a < 2 ^ 31 then a + 2 ^ 31 else a - 2 ^ 31, 0)) ∧
     (op = 0x0A → exec (.vxFdiv c w) s = put (fdiv32 e.ties a b)) ∧
     (op = 0x0B → exec (.vxFsqrt c w) s = put (fsqrt32 e.ties a)) ∧
     (op = 0x0C → exec (.vxFrsqrt c w) s = put (frsqrt32 e.ties a)) ∧
     (op = 0x0D → exec (.vxFexp c w) s = put (fexp32 e.ties a)) ∧
     (op = 0x0E → exec (.vxFlog c w) s = put (flog32 e.ties a)) ∧
     (op = 0x0F → exec (.vxFtanh c w) s = put (ftanh32 e.ties a)) ∧
     (op = 0x10 → exec (.vxFsigm c w) s = put (fsigm32 e.ties a))) ∧
  (∀ (s : State) (c : CoreId) (w : BitVec 32),
     let e := s.elem c
     let a := e.operand (vxA w.toNat)
     let b := e.operand (vxB w.toNat)
     let d := e.operand (vxC w.toNat)
     let op := vxOpc w.toNat
     let nan := fvIsNan (f32 a) || fvIsNan (f32 b)
     let put := fun (r : Nat × Nat) => Host.Outcome.next (s.withElem c (e.wrote w.toNat r.1 r.2))
     (op = 0x11 → exec (.vxFclt c w) s = put (if fvLt (f32 a) (f32 b) then 1 else 0, 0)) ∧
     (op = 0x12 → nan = false → exec (.vxFcle c w) s = put (if fvLt (f32 a) (f32 b) || !fvLt (f32 b) (f32 a) then 1 else 0, 0)) ∧
     (op = 0x13 → nan = false →
       exec (.vxFceq c w) s = put (if fvLt (f32 a) (f32 b) || fvLt (f32 b) (f32 a) then 0 else 1, 0)) ∧
     (nan = true → (op = 0x11 → exec (.vxFclt c w) s = put (0, 0)) ∧ (op = 0x12 → exec (.vxFcle c w) s = put (0, 0)) ∧
       (op = 0x13 → exec (.vxFceq c w) s = put (0, 0))) ∧
     (op = 0x14 → exec (.vxSel c w) s = put (if a = 0 ∨ a = 0x80000000 then d else b, 0)) ∧
     (op = 0x15 → exec (.vxCvtif c w) s = put (arith32 e.ties (intVal (BitVec.ofNat 32 a).toInt))) ∧
     (op = 0x16 → exec (.vxCvtfi c w) s = put (intEncode 32 e.ties (f32 a))) ∧
     (op = 0x17 → exec (.vxFclamp c w) s = put (fmin32 (fmax32 a b) d, 0)))

/-- R269, R270: integer instructions on 32-bit two's-complement operands; IADD, ISUB and IMUL clamp to the INT32 range and set SAT_INT.
R272 to R274: a scan instruction clears its column's carry at a segment start, updates it (an empty carry takes the value itself)
unless CONTRIB_ONLY holds it, and gives the carry after or, with EXCL, before the update; ST writes its element unless SEGEND holds it
back. -/
def Obligations.VectorIntegers : Prop :=
  (∀ (s : State) (c : CoreId) (w : BitVec 32),
     let e := s.elem c
     let a := BitVec.ofNat 32 (e.operand (vxA w.toNat))
     let b := BitVec.ofNat 32 (e.operand (vxB w.toNat))
     let op := vxOpc w.toNat
     let put := fun (r : Nat × Nat) => Host.Outcome.next (s.withElem c (e.wrote w.toNat r.1 r.2))
     (op = 0x18 → exec (.vxIadd c w) s = put (sat32i (a.toInt + b.toInt))) ∧
     (op = 0x19 → exec (.vxIsub c w) s = put (sat32i (a.toInt - b.toInt))) ∧
     (op = 0x1A → exec (.vxImul c w) s = put (sat32i (a.toInt * b.toInt))) ∧
     (op = 0x1B → exec (.vxImin c w) s = put (if a.sle b then a.toNat else b.toNat, 0)) ∧
     (op = 0x1C → exec (.vxImax c w) s = put (if b.sle a then a.toNat else b.toNat, 0)) ∧
     (op = 0x1D → exec (.vxAnd c w) s = put ((a &&& b).toNat, 0)) ∧
     (op = 0x1E → exec (.vxOr c w) s = put ((a ||| b).toNat, 0)) ∧
     (op = 0x1F → exec (.vxXor c w) s = put ((a ^^^ b).toNat, 0)) ∧
     (op = 0x20 → exec (.vxShl c w) s = put ((a <<< (b.toNat % 32)).toNat, 0)) ∧
     (op = 0x21 → exec (.vxShra c w) s = put ((a.sshiftRight (b.toNat % 32)).toNat, 0)) ∧
     (op = 0x22 → exec (.vxShrl c w) s = put ((a >>> (b.toNat % 32)).toNat, 0)) ∧
     (op = 0x23 → exec (.vxIclt c w) s = put (if a.slt b then 1 else 0, 0)) ∧
     (op = 0x24 → exec (.vxIceq c w) s = put (if a = b then 1 else 0, 0))) ∧
  (∀ (s : State) (c : CoreId) (w : BitVec 32),
     let e := s.elem c
     let a := e.operand (vxA w.toNat)
     let b := e.operand (vxB w.toNat)
     let op := vxOpc w.toNat
     let key := e.scan * 4096 + e.col
     let old := if e.starts w.toNat then none else kfind e.carry key
     let idle := vxBit7 w.toNat && !e.contrib
     let result := fun (new : Option Nat) => if vxBit4 w.toNat then old.getD 0 else new.getD 0
     let scan := fun (first : Nat × Nat) (next : Nat → Nat × Nat) =>
       let r := match old with | none => first | some k => next k
       let new := if idle then old else some r.1
       let done := e.wrote w.toNat (result new) (if idle then 0 else r.2)
       let carry := match new with | none => kdel e.carry key | some k => kput e.carry key k
       Host.Outcome.next (s.withElem c { done with carry := carry, scan := e.scan + 1 })
     (op = 0x28 → exec (.vxScanFadd c w) s = scan (a, 0) (fun k => fadd32 e.ties k a)) ∧
     (op = 0x29 → exec (.vxScanFmax c w) s = scan (a, 0) (fun k => (fmax32 k a, 0))) ∧
     (op = 0x2A → exec (.vxScanFmin c w) s = scan (a, 0) (fun k => (fmin32 k a, 0))) ∧
     (op = 0x2B → exec (.vxScanFfma c w) s = scan (fmul32 e.ties a b) (fun k => ffma32 e.ties a b k)) ∧
     (op = 0x2C → exec (.vxScanIadd c w) s = scan (a, 0) (fun k => isat (signed 32 k + signed 32 a))) ∧
     (op = 0x2D → exec (.vxScanImax c w) s = scan (a, 0) (fun k => (if signed 32 a ≤ signed 32 k then k else a, 0))) ∧
     (op = 0x2E → exec (.vxScanImin c w) s = scan (a, 0) (fun k => (if signed 32 k ≤ signed 32 a then k else a, 0))) ∧
     (op = 0x30 → vxBit4 w.toNat = false → bitAt w.toNat 23 = false →
       exec (.vxSt c w) s = .next (s.withElem c
         { e with d0 := kput e.d0 (e.idx * 2 ^ 48 + e.row * 4096 + e.col) (a, vxBit7 w.toNat) })) ∧
     (op = 0x30 → vxBit4 w.toNat = true → e.segEnd = true → bitAt w.toNat 23 = true →
       exec (.vxSt c w) s = .next (s.withElem c
         { e with d1 := kput e.d1 (e.idx * 2 ^ 48 + e.segOrd * 4096 + e.col) (a, vxBit7 w.toNat) })) ∧
     (op = 0x30 → vxBit4 w.toNat = true → e.segEnd = false → exec (.vxSt c w) s = .next (s.withElem c e)))

/-! ### Engine descriptors -/

/-- R230, R252, R258, R277, R283, R329: the descriptor at the head of an engine's queue runs once its operands can be read: a VECTOR or a
PICOT_PICK ends with its outputs written and its head dropped, an unsplit MATRIX runs its own range while no slot of it is held, then its
Picot sums and statistics, counts its tail cycles and ends, and a GATHER issues and pools as far as it can and ends when its ring program
has. R120: ways of the slice in which the code finds an uncorrectable error are dropped before its lookups. R459, R467, R469: words that an
engine reads with wrong symbols are corrected, or poisoned, before its work; an uncorrectable word of the engine's own ends the command with
POISON_CONSUMED (the operand is the model's, log entry 15). -/
def Obligations.EngineDescriptors : Prop :=
  ∀ (s t u : State) (c : CoreId) (q : QDesc) (rest : List QDesc), s.engines c = true →
    (∀ d ts, (s.core c).qVector = q :: rest → q.ring = false → d = parseVec q.bytes → ts = streamsOf d (q.streams.map (·.2)) →
      d.builtin = 0 →
      ((vecWork c d ts).run s = (.ok (), t) → exec (.vector c false) s = .next t) ∧
      ((s.core c).vx.sent = true → (s.core c).wpend = 0 →
        exec (.vector c false) s = .next (s.vecEnd c d) ∧ ((s.vecEnd c d).core c).qVector = rest)) ∧
    (∀ d xf wf p, (s.core c).qMatrix = q :: rest → d = parseMx q.bytes → fmtOfCode d.xFmt = some xf → fmtOfCode d.wFmt = some wf →
      mxPair xf wf = some p → q.begun = false → (s.core c).mx.held &&& d.slotMask = 0 → d.count = 1 →
      (mxOwn c d p xf wf 0 [] []).run s = (.ok (), t) → (mxTail c d p xf wf).run t = (.ok (), u) →
      (∀ r ∈ rest, r.begun = false) →
      exec (.matrix c false [] []) s = .next ((u.updCore c (fun k =>
        { k with counters := bump k.counters 0x250 d.tailCycles }.mxEnd d 0)).updCore c (fun k =>
          if k.qMatrix.any (fun r => r.begun) then k else k.endAccess 3))) ∧
    (∀ (lock : Bool) (ways : List (Fin 65536)) (words : List SramErr),
      (∀ (q : QDesc) (rest : List QDesc), (s.core c).qVector = q :: rest → q.ring = false → (parseVec q.bytes).builtin = 0 →
        exec (.vector c lock words) s = if lostWord words then .next ((s.sramWords c 4 words).loseWord c 4)
          else exec (.vector c lock) (s.sramWords c 4 words)) ∧
      ((s.core c).qMatrix = q :: rest → ∀ sums vals overlap,
        exec (.matrix c lock sums vals overlap words) s = if lostWord words then .next ((s.sramWords c 3 words).loseWord c 3)
          else exec (.matrix c lock sums vals overlap) (s.sramWords c 3 words)) ∧
      ((s.core c).qGather = q :: rest →
        exec (.gather c lock ways words) s = if lostWord words then .next ((s.sramWords c 2 words).loseWord c 2)
          else exec (.gather c lock ways) (s.sramWords c 2 words))) ∧
    (∀ g, (s.core c).qGather = q :: rest → (s.core c).run? q.gid = some g →
      (gatherLoop c q.gid ((s.core c).qVector.head?.any (fun v => v.ring && v.gid = q.gid))
        (2 * (g.count + 2 * g.bags + g.entries.length) + 8)).run s = (.ok (), t) →
      exec (.gather c false []) s = .next (t.gatherEnd c q.gid)) ∧
    (∀ ways, (s.core c).qGather = q :: rest →
      exec (.gather c false ways) s = exec (.gather c false []) (s.dropWays (clusterOf c) (ways.map (·.val)))) ∧
    (∀ d st e ts, (s.core c).qVector = q :: rest → q.ring = false → d = parseVec q.bytes → d.builtin = 1 →
      streamsOf d (q.streams.map (·.2)) = (e, st) :: ts → bitAt (s.scrRangeFlags c (s.core c).ctx st.mag (4 * st.pk)) 0 = false →
      let x := (s.core c).ctx
      let s1 := s.updCore c (fun k => { k with sawTies := k.sawTies || bitAt (s.scrRangeFlags c x st.mag (4 * st.pk)) 1 })
      let mags := (List.range st.pk).map (fun i => (i, fieldAt (s.scr c x st.mag (4 * st.pk)) (4 * i) 4))
      let l := sortNats (pickChannels d.picotP (mags.filter (fun e => !fvIsNan (f32 e.2))))
      exec (.picotPick c) s = .next ((s1.writeScr c x (st.list - 2) (leBytes 2 l.length ++ l.flatMap (leBytes 2))
        (s1.tieFlag c (s1.coreTies c))).vecEnd c d))

/-- R248, R459, R470, R471, R474: a residue or lockstep mismatch is counted, quarantines a core in service, keeps its descriptor and
scratch in a free capture slot for the classification, and ends the command's work on it.
R245, R247: the predicted residue of a check and the observed one differ exactly where the errors that its 64 rows latched do not sum to a
multiple of 7; an operation in which no check finds a difference is not stopped. -/
def Obligations.ArithmeticFaults : Prop :=
  (∀ (ks : List (List Int × Int)) (ds : List Int), (∀ e ∈ ks, e.1.length ≤ 64) →
    (predicted ks = observed (cellSums ks ++ ds) ↔ ds.sum % 7 = 0)) ∧
  ∀ (s : State) (c : CoreId) (q : QDesc) (rest : List QDesc) (f : MxFault), s.engines c = true →
    ((s.core c).qVector = q :: rest → q.ring = false → (parseVec q.bytes).builtin = 0 →
      exec (.vector c true) s = .next (s.arithFault c 4 false ⟨true, 0, 0, 0⟩ q.bytes)) ∧
    (∀ sums vals, (s.core c).qMatrix = q :: rest →
      exec (.matrix c true sums vals) s = .next (s.arithFault c 3 false ⟨true, 0, 0, 0⟩ q.bytes) ∧
      (s.mxDetected c sums = none → exec (.matrix c false sums vals) s = .next (runOn s c (mxRow c sums vals 0))) ∧
      (∀ j d xf wf p e, s.mxDetected c sums = some (j, d, xf, wf, p, e) →
        e ∈ sums ∧ d.mismatch p xf wf (fun a n => s.scr c (s.core c).ctx a n) (s.coreTies c) sums e = true ∧
        (∀ r ∈ sums, d.mismatch p xf wf (fun a n => s.scr c (s.core c).ctx a n) (s.coreTies c) sums r = true →
          d.checkKey p xf wf e * 64 + e.column ≤ d.checkKey p xf wf r * 64 + r.column) ∧
        exec (.matrix c false sums vals) s = .next
          ((s.updCore c (fun k => { k with counters := d.countStop p xf wf e k.counters })).arithFault c 3 p.mode.steps
            ⟨false, e.column, e.slot, e.group⟩ (nthD q (q :: rest) j).bytes))) ∧
    (∀ i, (s.core c).cmd = none → (s.rasOf c).state = 0 → leastBelow 8 (fun i => (kfind s.ras.captures i).isNone) = some i →
      let t := s.arithFault c 4 false f q.bytes
      (t.rasOf c).state = 1 ∧ (kfind t.ras.captures i).map (fun p => (p.core, p.desc, p.scratch)) = some (c.val, q.bytes, (s.core c).scratch) ∧
      t.ras.classify.map (·.core) = s.ras.classify.map (·.core) ++ [c.val] ∧
      kget 0 t.ras.counters (if f.lockstep then 0x230 else 0x228) =
        (kget 0 s.ras.counters (if f.lockstep then 0x230 else 0x228) + 1) % 2 ^ 48)

/-- R174, R175, R329, R338: COPY within scratch moves its bytes and ends; a COPY whose work with device memory is done ends and adds to
its tally; a PROCESSION frees its other buffer for one arrival that its own tally counts, and sends its current buffer once its
successor's other buffer is free; an arrival writes the buffer, adds to the tally and ends the sender's descriptor.
R175, R176: a procession buffer that arrives with its check passed is written at its offset and counted by its tally, and the
sender's descriptor ends; a failed check ends the step as a fault. -/
def Obligations.Transfers : Prop :=
  (∀ (s : State) (c : CoreId) (q : QDesc) (rest : List QDesc), s.engines c = true → (s.core c).qMove = q :: rest →
     let k := s.core c
     let x := k.ctx
     let finish := fun (t : State) (d : CopyDesc) =>
       let t := (t.updCore c (fun k => { k with moveSent := true })).updCore c Core.moveEnd
       if d.tallyEn then t.tallyAdd c x d.tally 1 2 k.cmd else t
     (∀ d, fieldAt q.bytes 0 1 = 5 → d = parseCopy q.bytes → d.dir = 2 → k.moveSent = false → k.wpend = 0 →
       bitAt (s.scrRangeFlags c x d.scr d.len) 0 = false →
       let s1 := s.updCore c (fun k => { k with sawTies := k.sawTies || bitAt (s.scrRangeFlags c x d.scr d.len) 1 })
       exec (.copy c) s = .next (finish (s1.writeScr c x d.scr2 (s.scr c x d.scr d.len) (s1.tieFlag c (s1.coreTies c))) d)) ∧
     (∀ d, fieldAt q.bytes 0 1 = 5 → d = parseCopy q.bytes → k.moveSent = true → k.wpend = 0 →
       exec (.copy c) s = .next (let t := s.updCore c Core.moveEnd
         if d.tallyEn then t.tallyAdd c x d.tally 1 2 k.cmd else t)) ∧
     (∀ d tally room, k.procHead? = some d → k.procBegun = true → k.moveSent = false → (s.core (successor d.mask c)).procRoom = tally :: room →
       ∃ t f, exec (.procession c) s = .next t ∧ t.flows = s.flows ++ [f] ∧ f.src = c.val ∧ f.dst = successor d.mask c ∧
         f.off = (if d.current then d.bufA else d.bufB) ∧ f.tally = tally ∧
         f.data = s.scr c x (if d.current then d.bufB else d.bufA) d.size ∧ t.mem = s.mem ∧
         (successor d.mask c ≠ c.val → (t.core c).moveSent = true) ∧
         (t.core (successor d.mask c)).procRoom = room) ∧
     (∀ d t, k.procHead? = some d → k.procBegun = false →
       t = s.updCore c (fun k => { k with procBegun := true, procRoom := k.procRoom ++ [d.tally] }) →
       exec (.procession c) s = exec (.procession c) t)) ∧
  (∀ (s : State) (c : CoreId) (f : RingFlow), s.flows.find? (fun f => f.dst = c.val) = some f →
     (exec (.processionArrival c false) s = .next
       (((({ s with flows := s.flows.erase f } : State).writeWords64 c (s.core c).ctx f.off f.data f.flags).tallyAdd c (s.core c).ctx f.tally 1 5
         (some f.cmd)).updCore f.src (fun k => if k.moveSent && k.procHead?.isSome then k.moveEnd else k))) ∧
     (exec (.processionArrival c true) s = .next ((({ s with flows := s.flows.erase f } : State).rasCount 0x220 1).failCmd f.cmd c stSelvageMismatch)))

/-! ### Bobbin and the exchange -/

/-- R114, R122: a set of a Bobbin slice holds at most 16 tags and 32 data units, and a fill keeps that. -/
def Obligations.BobbinSetCapacity : Prop :=
  ∀ (sl : Slice) (g : BobTag), g.units ≤ 16 →
    (sl.ways (bobSet g.table g.row)).length ≤ 16 → ((sl.ways (bobSet g.table g.row)).map (·.2.units)).sum ≤ 32 →
    ((sl.install g).ways (bobSet g.table g.row)).length ≤ 16 ∧
    (((sl.install g).ways (bobSet g.table g.row)).map (·.2.units)).sum ≤ 32

/-- R119, R121, R125, R134: an aging tick after 2^(16 + AGE_PERIOD) lookups ages every tag; a local row arrives and is delivered to its
ring entry; a fill from this part's memory answers every waiter of its miss; the prefetcher issues an index of a step that waits.
R120: ways in which the code finds an uncorrectable error are dropped before the prefetcher's lookups. -/
def Obligations.BobbinOperation : Prop :=
  (∀ (s : State) (k : ClusterId),
    let n := 2 ^ (16 + (s.slice k).agePeriod)
    let aged := fun (g : BobTag) => if g.age < 7 then { g with age := g.age + 1 } else { g with age := 0, freq := g.freq / 2, noticed := false }
    (s.slice k).agePeriod ≤ 10 → n ≤ (s.slice k).lookups →
    exec (.agingTick k) s = .next (s.updSlice k (fun sl =>
      { sl with lookups := sl.lookups - n, tags := sl.tags.map (fun e => (e.1, aged e.2)) }))) ∧
  (∀ (s t : State) (k : ClusterId) (table : BitVec 16) (row epoch : BitVec 40) (m : Miss) (e : ReplyEntry),
    (s.slice k).misses.find? (fun m => m.table = table.toNat && m.row = row.toNat && m.epoch = epoch.toNat) = some m →
    (s.lookupTarget k table.toNat row.toNat m.epoch).1 = s.pool.partId →
    s.ownerRow (s.missBucket m) table.toNat row.toNat m.epoch = (t, .reply e) → e.estatus ≠ 2 →
    exec (.bobbinFill k table row epoch) s = .next (t.answer k m e false)) ∧
  (∀ (s t : State) (c : CoreId) (gid n : Nat) (g : GatherRun) (e : RingEntry) (r : ReplyEntry),
    (s.core c).run? gid = some g → g.entry? n = some e → e.source = 1 → e.ready = false → s.halted c = false →
    s.ownerRow (s.readBucket c) g.table e.row g.epoch = (t, .reply r) → r.estatus ≠ 2 →
    let k := c.val / 8
    let key := (t.core c).cmd.getD 0
    let w : MissWaiter := ⟨0, c, gid, n⟩
    exec (.rowArrival c gid n 0 false) s = .next (((t.updSlice k (fun sl =>
      { sl with misses := sl.misses.map (fun m => if m.waiters.contains w then { m with waiters := m.waiters.erase w } else m) })).replyCheck g.table e.row g.epoch r
        (key / 2 ^ 48) (key % 2 ^ 48)).deliverRing c gid n r)) ∧
  (∀ (s t : State) (p : PrefStep) (m : Cmd), s.link.up = true → s.prefetch = [p] → s.cmd? p.cmd = some m → m.phase = .waiting →
    (s.ctx m.ctx).place ≠ 0 → p.hint < m.u 56 1 → (prefetchOne p m).run (s.forgetPref (fun c => decide (c ≠ p.cmd))) = (.ok (), t) →
    exec (.prefetchIssue []) s = .next t) ∧
  (∀ (s : State) (w : Fin 1048576) (ways : List (Fin 1048576)),
    exec (.prefetchIssue (w :: ways)) s = exec (.prefetchIssue ways) (s.dropWays (w.val / 65536) [w.val % 65536]))

/-- R156 to R161, R168, R172: an entry that the unit accepts leaves at most 1,024 open batches; BATCH_CLOSE closes the batches that have
reached their age; BATCH_SEND sends what waits and then the next batch of the round, where a slot is free and the bucket holds its bytes (the
form of a round is log entry 27, a message beyond the bucket's depth log entry 45), and no prefetch batch before a waiting demand batch or
write of its partition; a batch without a full reply by its timeout frees its slot, moves the slot's use
count on, and ends its lookups with OWNER_UNREACHABLE or TIMEOUT. -/
def Obligations.ExchangeBatches : Prop :=
  (∀ (s : State) (k : ClusterId), ∃ t, exec (.batchClose k) s = .next t ∧
    (t.exch k).openB = (s.exch k).openB.filter (fun b => !(b.opened + 2 * b.age ≤ s.refCount)) ∧
    (t.exch k).closed = (s.exch k).closed ++ (s.exch k).openB.filter (fun b => b.opened + 2 * b.age ≤ s.refCount) ∧
    (t.exch k).slots = (s.exch k).slots ∧ t.mem = s.mem ∧ ∀ j, j ≠ k.val → t.exch j = s.exch j) ∧
  (∀ (s t : State) (k : ClusterId) (b : Batch),
    let v := s.flushWrites k
    let u := v.updExch k (fun x => (x.startRound (v.writesWaiting k) v.pool.partId).offerAgain v.refCount)
    let fwd := b.entries.any (fun e => e.isForward || e.isAsk || e.isReread)
    ((u.exch k).nextBatch (u.writesWaiting k) = none → exec (.batchSend k) s = .next u) ∧
    ((u.exch k).nextBatch (u.writesWaiting k) = some b →
      ((u.updExch k (fun x => { x with round := x.round.erase b })).sendBatch k b fwd = none → exec (.batchSend k) s = .next u) ∧
      ((u.updExch k (fun x => { x with round := x.round.erase b })).sendBatch k b fwd = some t →
        exec (.batchSend k) s = .next (t.updExch k (fun x => x.offerAgain t.refCount))))) ∧
  (∀ (x : Exchange) (writes : List Nat) (b : Batch), x.nextBatch writes = some b →
    b ∈ x.round ∧ (b.prefetch = true → b.part ∉ writes ∧ ∀ d ∈ x.round ++ x.closed, d.part = b.part → d.prefetch = true)) ∧
  (∀ (s : State) (k : Nat) (b : Batch) (i : Nat) (fwd : Bool), s.member b.owner = true → (s.exch k).freeSlot = some i →
    b.owner = s.pool.partId →
    let h : MsgHdr := { prefetch := b.prefetch, redirected := b.redirected, forward := fwd, srcPart := s.pool.partId,
                        srcCluster := k, tagSlot := i, tagSeq := kget 0 (s.exch k).tagSeq i, epoch := b.epoch }
    let m := Msg.lookupReq h (b.entries.map (fun e => ⟨e.table, e.row, e.gen⟩))
    (s.exch k).holds b.bucket (16 + m.bytes) = true →
    ∃ t, s.sendBatch k b fwd = some t ∧
      kfind (t.exch k).slots i = some { kind := 0, batch := b, sent := t.refCount } ∧
      kget 0 (t.exch k).tokens b.bucket = kget 0 (s.exch k).tokens b.bucket - (16 + m.bytes : Nat)) ∧
  (∀ (x : Exchange) (key bytes : Nat), bytes ≤ 8192 → (x.holds key bytes = true ↔ (bytes : Int) ≤ kget 0 x.tokens key)) ∧
  (∀ (x : Exchange) (now owner part epoch : Nat) (prefetch redirected : Bool) (e : XchgEntry),
    x.accepts owner part epoch prefetch redirected = true → x.openCount ≤ 1024 →
    (x.take now owner part epoch prefetch redirected e).openCount ≤ 1024) ∧
  (∀ (s : State) (k : ClusterId) (slot : Fin 512) (o : OutSlot), kfind (s.exch k).slots slot = some o →
    s.since o.sent o.batch.timeout = true → o.kind = 0 →
    exec (.replyTimeout k slot) s = .next ((s.freeOut k slot).failBatch k o.batch
      (fun c => if (s.freeOut k slot).elapsed c then stTimeout else stOwnerUnreachable))) ∧
  (∀ (s : State) (k i : Nat), (((s.freeOut k i).exch k).slots = kdel (s.exch k).slots i) ∧
    kget 0 ((s.freeOut k i).exch k).tagSeq i = (kget 0 (s.exch k).tagSeq i + 1) % 128)

/-- R164: an owner's exchange unit holds a lookup batch of an epoch that it has not reached, and discards it without a reply, with a RAS
event, when the hold outlasts its own reply timeout. A lookup of an epoch before the previous one is answered EPOCH_CLOSED; one whose table
is not SERVING, has another generation or no such row, TABLE_UNAVAILABLE; one that hits the slice, with the row as the slice holds it; one
that misses, and that no open miss serves, with what this part reads of the row, which fills the slice. Reply segments go out once their
entries are complete, under pool-service tokens (R171).
R165: a prefetch batch waits, and what of it is not served 4 µs after its arrival is answered DROPPED; a demand batch never is.
R161, R163, R166, R167: a reply that names no outstanding slot with its use count is late, and only counted; the reply of the last entry of a
batch frees its slot; an entry whose step has ended is discarded; REDIRECT to another part sends the lookup on to HOLDER and records a hint,
and the fourth ends the step with REDIRECT; a reserved status is taken as TABLE_UNAVAILABLE with a RAS event; any other is delivered to what
waits on the lookup's miss. -/
def Obligations.Lookups : Prop :=
  (∀ (s : State) (h : MsgHdr) (es : List LookupEntry) (ways : List (Fin 65536)), s.epochs.epoch < h.epoch →
    ∃ t, exec (.lookupReq h es ways) s = .next t ∧
    ∃ v, (t.exch (h.srcCluster % 16)).serving = (s.exch (h.srcCluster % 16)).serving ++ [v] ∧ v.held = true ∧ v.hdr = h ∧
      v.entries = es.map (fun e => { table := e.table, row := e.row, gen := e.gen }) ∧ v.arrived = s.refCount ∧ t.mem = s.mem) ∧
  (∀ (s : State) (h : MsgHdr) (es : List LookupEntry) (ways : List (Fin 65536)), h.epoch ≤ s.epochs.epoch → h.prefetch = true →
    ∃ t, exec (.lookupReq h es ways) s = .next t ∧
    ∃ v, (t.exch (h.srcCluster % 16)).serving = (s.exch (h.srcCluster % 16)).serving ++ [v] ∧ v.held = false ∧ v.hdr = h ∧
      v.entries = es.map (fun e => { table := e.table, row := e.row, gen := e.gen }) ∧ v.arrived = s.refCount ∧ t.mem = s.mem) ∧
  (∀ (s : State) (h : MsgHdr) (es : List LookupEntry) (ways : List (Fin 65536)), h.epoch ≤ s.epochs.epoch → h.prefetch = false →
    let s1 := (s.takeMsg (.lookupReq h es)).dropWays (h.srcCluster % 16) (ways.map (·.val))
    let v : Serving := { sid := (s1.exch (h.srcCluster % 16)).nextSid, hdr := h, entries := es.map (fun e => { table := e.table, row := e.row, gen := e.gen }),
                         arrived := s1.refCount, held := false }
    let s2 := s1.updExch (h.srcCluster % 16) (fun x => { x with serving := x.serving ++ [v], nextSid := x.nextSid + 1 })
    exec (.lookupReq h es ways) s = .next (s2.serveAll (h.srcCluster % 16) v)) ∧
  (∀ (s : State) (h : MsgHdr) (e : LookupEntry), h.epoch ≤ s.epochs.epoch → h.prefetch = false →
    let k := h.srcCluster % 16
    let x := s.exch k
    let tab := s.table e.table
    let v : Serving := { sid := x.nextSid, hdr := h, entries := [{ table := e.table, row := e.row, gen := e.gen }], arrived := s.refCount, held := false }
    let answered := fun (r : ReplyEntry) => ∃ t, exec (.lookupReq h [e] []) s = .next t ∧
      (t.exch k).serving = x.serving ++ [{ v with entries := [{ table := e.table, row := e.row, gen := e.gen, reply := some r }] }]
    (∀ w ∈ x.serving, w.sid ≠ x.nextSid) → x.forwarding x.nextSid 0 = false → (s.slice k).holdsServe x.nextSid 0 = false →
    s.copyPending e.table e.row h.epoch = false →
    (h.epoch + 1 < s.epochs.epoch → answered { estatus := 3 }) ∧
    (s.epochs.epoch ≤ h.epoch + 1 → (tab.state ≠ 2 ∨ tab.gen ≠ e.gen ∨ tab.rowCount ≤ e.row) → answered { estatus := 4 }) ∧
    (s.epochs.epoch ≤ h.epoch + 1 → tab.state = 2 → tab.gen = e.gen → e.row < tab.rowCount →
      (∀ w g, (s.slice k).hit e.table e.row h.epoch = some (w, g) →
        answered { tier := g.tier, slot16 := g.slot.length / 16, estatus := 0, slot := g.slot, ties := g.ties }) ∧
      (∀ (s5 u : State) (r : ReplyEntry),
        let s2 := (s.takeMsg (.lookupReq h [e])).updExch k (fun x => { x with serving := x.serving ++ [v], nextSid := x.nextSid + 1 })
        let s3 := s2.updExch k (fun x => { x with counters := bump x.counters 0x150 1 })
        let s4 := if s3.ownsRow e.table e.row then s3.skewLookup e.table e.row else s3
        (s2.ownerRow (bucketKey 16 0) e.table e.row h.epoch).2 = .reply r →
        s4.bobLookup k e.table e.row h.epoch true = (s5, none) → (s.slice k).joinable e.table e.row h.epoch = false →
        s5.ownerRow (bucketKey 16 0) e.table e.row h.epoch = (u, .reply r) →
        exec (.lookupReq h [e] []) s = .next ((u.bobFill k e.table e.row h.epoch r false false).setReply k x.nextSid 0 r)))) ∧
  (∀ (s : State) (k : ClusterId) (v : Serving) (r : ReplyEntry) (e : ServeEntry), (s.exch k).serving = [v] → v.held = false → v.sent = 0 →
    v.entries = [e] → e.reply = some r → r.slot16 ≤ 64 → kget [] s.outbox k.val = [] →
    let m := Msg.lookupReply { v.hdr with seg := 0 } [r]
    (s.exch k).holds (bucketKey 16 0) (16 + m.bytes) = true →
    ∃ t, exec (.replySegmentSend k []) s = .next t ∧ (t.exch k).serving = [] ∧
      (t.exch k).tokens = ((s.exch k).charge (bucketKey 16 0) (16 + m.bytes)).tokens ∧ t.mem = s.mem ∧
      t = ((s.updExch k (fun x => x.charge (bucketKey 16 0) (16 + m.bytes))).updExch k
        (fun x => { x with serving := x.serving.filter (fun w => w.sid ≠ v.sid) })).sendMsg v.hdr.srcPart 0 m) ∧
  (∀ (s : State) (k : ClusterId), ∃ t, exec (.prefetchDropTimeout k) s = .next t ∧ t.mem = s.mem ∧
    (t.exch k).serving = (s.exch k).serving.map (fun v =>
      if v.hdr.prefetch = true ∧ s.since v.arrived 4 = true then
        { v with held := false, entries := v.entries.map (fun e => { e with reply := some (e.reply.getD { estatus := 6 }) }) }
      else v)) ∧
  (∀ (s : State) (k : ClusterId),
    let old := fun (v : Serving) => v.held && s.since v.arrived (s.exch k).timeout
    ∃ t, exec (.heldBatchDiscard k) s = .next t ∧ t.mem = s.mem ∧ t.pool = s.pool ∧ t.outbox = s.outbox ∧
      (t.exch k).serving = (s.exch k).serving.filter (fun v => !old v) ∧
      t.ras.events.length = s.ras.events.length + ((s.exch k).serving.filter old).length) ∧
  (∀ (s : State) (h : MsgHdr) (es : List ReplyEntry), (s.takeMsg (.lookupReply h es)).answered? h 0 = none →
    exec (.lookupReply h es) s = .next ((s.takeMsg (.lookupReply h es)).late h (16 + (Msg.lookupReply h es).bytes))) ∧
  (∀ (s : State) (h : MsgHdr) (o : OutSlot) (e : XchgEntry) (r : ReplyEntry),
    let s1 := s.takeMsg (.lookupReply h [r])
    let k := h.srcCluster % 16
    s1.answered? h 0 = some o → o.batch.entries = [e] → e.answered = false → h.seg = 0 →
    let s2 := s1.updExch k (fun x =>
      let x := x.charge o.batch.bucket (16 + (Msg.lookupReply h [r]).bytes)
      if s1.stale k e then { x with counters := bump x.counters 0x168 1 } else x)
    let s3 := s2.updExch k (fun x => { x with slots := kput x.slots h.tagSlot { o with batch := { o.batch with entries := [{ e with answered := true }] } } })
    exec (.lookupReply h [r]) s = .next ((s3.freeOut k h.tagSlot).takeReply k o.batch e r)) ∧
  (∀ (s : State) (k : Nat) (b : Batch) (e : XchgEntry) (r : ReplyEntry) (m : Miss), e.isOwn = false →
    (s.slice k).missOf e.table e.row b.epoch e.waiter = some m →
    (s.waits k e.waiter = true →
      ((r.estatus = 0 ∨ r.estatus = 1 ∨ r.estatus = 3 ∨ r.estatus = 4 ∨ r.estatus = 5) → s.takeReply k b e r = s.answer k m r true) ∧
      (let u := (s.updExch k (fun x => x.noteHint e.table e.row b.epoch r.holder)).redirected k e.cmd
       r.estatus = 2 →
        (4 ≤ e.hops + 1 → s.takeReply k b e r = u.failEntry k b e (fun _ => stRedirect)) ∧
        (e.hops + 1 < 4 → r.holder ≠ s.pool.partId →
          s.takeReply k b e r = u.sendOn k r.holder b.part b.epoch { e with hops := e.hops + 1, answered := false } ∧
          (u.exch k).hint e.table e.row b.epoch = some r.holder)) ∧
      (r.estatus = 6 → s.takeReply k b e r = s.dropMiss k b m) ∧
      (6 < r.estatus → s.takeReply k b e r = (s.logEvent 8).answer k m { r with estatus := 4 } true)) ∧
    (s.waits k e.waiter = false → m.waiters.find? s.ringWaits = none →
      s.takeReply k b e r = s.updSlice k (fun sl => { sl with misses := sl.misses.erase m })))

/-- R148, R178, R303, R423: a read, write or arrival from another part that the access list lets in is served and answered with status 0,
and one that it does not is answered with PROTECTION and changes no memory; a write of which lines wait for the host (R530) is acknowledged
when the last of them is written; written data that fails its check is poisoned (R464); an
answer that matches its outstanding slot completes the access it belongs to.
R171, R172: an answer is pool service's: it goes at once where the unit's bucket holds its bytes and none waits before it, and else waits
there in order. -/
def Obligations.RemoteAccesses : Prop :=
  (∀ (s : State) (h : MsgHdr) (p : PartId) (addr len : Nat),
    let k := h.srcCluster % 16
    let s1 := s.takeMsg (.readReq h addr len)
    let n := (min len 4096 + 63) / 64
    let a := addr % devSize / 64 * 64
    let u := (s1.dramCharge (bucketKey 16 0) a (64 * n)).touch a (64 * n)
    (s1.accessOk h.srcPart 2 p addr = true → exec (.readReq h p addr len) s =
      .next (u.serviceSend k h.srcPart (.readReply h 0 ((List.range n).map (fun i => u.devLine (a + 64 * i)))))) ∧
    (s1.accessOk h.srcPart 2 p addr = false →
      exec (.readReq h p addr len) s = .next (s1.serviceSend k h.srcPart (.readReply h stProtection [])))) ∧
  (∀ (s : State) (k dest : Nat) (m : Msg), dest ≠ s.pool.partId →
    let key := bucketKey 16 0
    (kget [] s.outbox k = [] → (s.exch k).holds key (16 + m.bytes) = true →
      s.serviceSend k dest m = (s.updExch k (fun x => x.charge key (16 + m.bytes))).sendMsg dest 0 m) ∧
    ((kget [] s.outbox k ≠ [] ∨ (s.exch k).holds key (16 + m.bytes) = false) →
      s.serviceSend k dest m = { s with outbox := kput s.outbox k (kget [] s.outbox k ++ [⟨dest, m⟩]) })) ∧
  (∀ (s : State) (h : MsgHdr) (p : PartId) (addr : Nat) (ws : List WireWord),
    let k := h.srcCluster % 16
    let s1 := s.takeMsg (.write h addr ws)
    let a := addr % devSize / 64 * 64
    let n := ws.length
    (s1.accessOk h.srcPart 3 p addr = true →
      exec (.write h p addr ws false) s = .next (((s1.dramCharge (bucketKey 16 1) a (64 * n)).storeLines 0 none a ws).ackWrite h
        s.link.pendingInv.length n) ∧
      exec (.write h p addr ws true) s = .next
        ((((s1.badBlock { event := 0, unit := 0x08, cluster := k, addr := addr }).dramCharge (bucketKey 16 1) a (64 * n)).storeLines 0 none
          a (ws.map (fun w => { w with poison := true }))).ackWrite h s.link.pendingInv.length n)) ∧
    (s1.accessOk h.srcPart 3 p addr = false → ∀ bad, exec (.write h p addr ws bad) s = .next (s1.serviceSend k h.srcPart (.writeAck h stProtection)))) ∧
  (∀ (s : State) (h : MsgHdr) (first n : Nat),
    (s.link.pendingInv.length ≤ first → s.ackWrite h first n = s.serviceSend (h.srcCluster % 16) h.srcPart (.writeAck h 0)) ∧
    (first < s.link.pendingInv.length → ∃ w, s.ackWrite h first n = { s with link := { s.link with
      pendingInv := s.link.pendingInv.take first ++ w } } ∧ w.length = s.link.pendingInv.length - first ∧
      ∀ b ∈ w, b.hdr = some h ∧ (b.whole = true ↔ w.length = n))) ∧
  (∀ (s : State) (h : MsgHdr) (p : PartId) (addr pid : Nat),
    let s1 := s.takeMsg (.arrive h addr pid)
    (s1.accessOk h.srcPart 4 p addr = true → ∃ t, exec (.arrive h p addr pid) s = .next t ∧ t.mem = s.mem ∧
      t.arrivals = s.arrivals ++ [{ addr := addr % 2 ^ 38, pid := pid, part := p, isLocal := false, hdr := some h }]) ∧
    (s1.accessOk h.srcPart 4 p addr = false →
      exec (.arrive h p addr pid) s = .next (s1.serviceSend (h.srcCluster % 16) h.srcPart (.arriveAck h stProtection)))) ∧
  (∀ (s : State) (h : MsgHdr) (ws : List WireWord) (o : OutSlot) (i : Nat) (w : WireWord),
    let k := h.srcCluster % 16
    (s.takeMsg (.readReply h 0 ws)).answered? h 1 = some o → o.core < 128 → ws[i]? = some w →
    ((s.core o.core).rpend.contains (o.addr / 64 + i)) = true → o.addr / 64 + i < 2 ^ 60 →
    ∃ t, exec (.readReply h 0 ws) s = .next t ∧ kfind (t.core o.core).rbuf (o.addr / 64 + i) = some w ∧
      (t.core o.core).rpend.contains (o.addr / 64 + i) = false ∧ kfind (t.exch k).slots h.tagSlot = kfind (kdel (s.exch k).slots h.tagSlot) h.tagSlot ∧
      t.mem = s.mem) ∧
  (∀ (s : State) (h : MsgHdr) (o : OutSlot), (s.takeMsg (.writeAck h 0)).answered? h 2 = some o → (s.core o.core).cmd = some o.cmd →
    ∃ t, exec (.writeAck h 0) s = .next t ∧ (t.core o.core).wpend = (s.core o.core).wpend - 1 ∧ t.mem = s.mem ∧
      ∀ j, j ≠ o.core → t.core j = s.core j) ∧
  (∀ (s : State) (h : MsgHdr) (o : OutSlot), (s.takeMsg (.arriveAck h 0)).answered? h 3 = some o → (s.core o.core).cmd = some o.cmd →
    o.len = 0 → (s.core o.core).seq.arrHeld = true →
    ∃ t, exec (.arriveAck h 0) s = .next t ∧ (t.core o.core).seq.pc = (s.core o.core).seq.pc + 1 ∧
      (t.core o.core).seq.arrHeld = false ∧ (t.core o.core).seq.wait = 0 ∧ t.mem = s.mem)

/-- R303: a part's own accesses pass; another part's access passes exactly where the address lies in this part, its region's entry allows
the access kind and the partition, and the entry's mode and bitmap or the membership map let the source in.
R303: ACL_SET writes the entry of every region it names, and the bitmap where MODE asks for one, and is answered at once where no access
waits that passed under the old one; what is not performed 30 µs after the request is answered with PROTECTION, but for a write of which a
line has been accepted; ACL_GET reports the entry. -/
def Obligations.AccessList : Prop :=
  (∀ (s : State) (src kind p addr : Nat),
     let g := addr % 2 ^ 38 / 2 ^ 30
     let e := kget 0 s.pool.acl g
     s.accessOk src kind p addr = true ↔ src = s.pool.partId ∨
       (addr / 2 ^ 38 = s.pool.partId ∧ e.testBit kind = true ∧ e.testBit (48 + p) = true ∧
         ((e % 4 = 1 ∧ (kget 0 s.pool.aclMap g).testBit src = true) ∨ (e % 4 = 2 ∧ s.member src = true)))) ∧
  (∀ (s u : State) (f : FnId) (slot : Fin 28) (bs : List Byte), f.val = 0 →
    let r := s.req f slot
    let e := r.u 8 8 / 2 ^ 48 * 2 ^ 48 + r.u 8 8 % 32
    s.posted f slot 0x060A → r.u 0 1 ≤ r.u 1 1 → r.u 8 1 % 4 ≠ 3 → (∀ d ∈ s.pool.aclDrains, ¬ (d.fn = f.val ∧ d.slot = slot.val)) →
    s.passedIn (r.u 0 1) (r.u 1 1) = [] →
    (if r.u 8 1 % 4 = 1 then readCp (cpWho f) (r.u 16 8) 128 else pure []).run s = (.ok bs, u) →
    ksorted u.pool.acl = true → ksorted u.pool.aclMap = true →
    ∃ t : State, exec (.aclSet f slot) s = .next (t.respond r stOk [] false) ∧ t.mem = u.mem ∧
      (∀ g, r.u 0 1 ≤ g → g ≤ r.u 1 1 → kget 0 t.pool.acl g = e ∧ (e % 4 = 1 → kget 0 t.pool.aclMap g = leNat bs)) ∧
      (∀ g, (g < r.u 0 1 ∨ r.u 1 1 < g) → kget 0 t.pool.acl g = kget 0 u.pool.acl g ∧ kget 0 t.pool.aclMap g = kget 0 u.pool.aclMap g)) ∧
  (∀ s : State,
    let late := s.pool.aclDrains.filter (fun d => decide (d.start + 3000 ≤ s.refCount))
    let gone := fun (a : Arrival) => late.any (fun d => a.hdr.any d.waits.contains)
    exec .aclDrainTimeout s = .next (((s.arrivals.filter gone).foldl
      (fun (t : State) (a : Arrival) => match a.hdr with | some h => t.serviceSend (h.srcCluster % 16) h.srcPart (.arriveAck h stProtection) | none => t)
      { s with arrivals := s.arrivals.filter (fun a => !gone a) }).dropWrites (fun h => late.any (fun d => d.waits.contains h)))) ∧
  (∀ (s : State) (late : MsgHdr → Bool),
    let gone := fun (b : BackInv) => b.whole && b.hdr.any late
    (s.dropWrites late).link.pendingInv = s.link.pendingInv.map (fun b =>
      if gone b then { b with mask := List.replicate 64 false, hdr := none, whole := false } else b) ∧
    ((∀ b ∈ s.link.pendingInv, gone b = false) → s.dropWrites late = s) ∧ (s.dropWrites late).mem = s.mem) ∧
  (∀ (s t : State) (f : FnId) (slot : Fin 28), f.val = 0 →
    let r := s.req f slot
    s.posted f slot 0x060B → (writeCp (cpWho f) (f, slot) (r.u 8 8) (leBytes 128 (kget 0 s.pool.aclMap (r.u 0 1)))).run s = (.ok (), t) →
    exec (.aclGet f slot) s = .next (t.cpDone.respond r stOk (leBytes 8 (kget 0 t.pool.acl (r.u 0 1))) false))

/-! ### Queues and mailboxes -/

/-- R347, R348: a doorbell, or a write of the COMMIT word through the window, is a wake with its count. It accepts the entries up to the
count: the queue's COMMIT count becomes it, the sequence counter rises by the number of entries, and each of them is a command, the first
with the bytes of the ring's next slot. A count that would accept more entries than the ring holds free (DEDUCED for slots that ENQ
holds, log entry 33) is ignored and recorded as PROTECTION in the context's fault batch, and a wake of a queue that is absent, DEAD or
closing is ignored. R349, R525: a doorbell of a queue, and a write to an area, that the function may not name is discarded with a PROTECTION
event in the RAS block. R21, R525, R527: a write to the window is taken page by page; one to a page that no step protects stores its bytes,
one to a page that a step protects is discarded and recorded as PROTECTION. -/
def Obligations.QueueIntake : Prop :=
  (∀ (s : State) (f : FnId) (q : QueueId) (count : BitVec 32),
     let u := s.queue q
     let d := (count.toNat + 2 ^ 32 - u.commit) % 2 ^ 32
     s.intake f = true → (u.state = 1 ∨ u.state = 2) → u.closing = none → u.commit < 2 ^ 32 → d ≠ 0 → s.slotsFree q d = true →
     s.strangeQueue f q = false →
     ∃ t, exec (.feSqDoorbellWrite f q count) s = .next t ∧ (t.queue q).commit = count.toNat ∧ (t.queue q).seq = u.seq + d ∧
       (∀ p, p ≠ q → t.queue p = s.queue p) ∧ (∀ i, 1 ≤ i → i ≤ d → (t.cmd? (cmdKey q (u.seq + i))).isSome = true) ∧
       (t.cmd? (cmdKey q (u.seq + 1))).map (fun c => c.entry) = some (s.devBytes (u.slotAddr (u.nextSlot 0)) 64)) ∧
  (∀ (s : State) (f : FnId) (q : QueueId) (count : BitVec 32),
     let u := s.queue q
     let d := (count.toNat + 2 ^ 32 - u.commit) % 2 ^ 32
     s.intake f = true → (u.state = 1 ∨ u.state = 2) → u.closing = none → u.commit < 2 ^ 32 → d ≠ 0 → s.slotsFree q d = true →
     s.strangeCtx f u.ctx = false → s.protectedPage u.ctx (u.sqOff / 4096) = false → u.sqOff + 64 ≤ 2 ^ 20 → u.sqOff % 4096 = 0 →
     s.commitsIn u.ctx u.sqOff 4 = [q.val] → Memory.wf s.mem = true →
     s.lineHeld ((windowBacking + u.ctx * 2 ^ 20 + u.sqOff) / 64) = false →
     ∃ t, exec (.commitWrite f q count) s = .next t ∧ (t.queue q).commit = count.toNat ∧ (t.queue q).seq = u.seq + d ∧
       (∀ p, p ≠ q → t.queue p = s.queue p) ∧ ∀ i, 1 ≤ i → i ≤ d → (t.cmd? (cmdKey q (u.seq + i))).isSome = true) ∧
  (∀ (s : State) (f : FnId) (off : BitVec 28) (bytes : List Byte),
     let x := off.toNat / 2 ^ 20
     let o := off.toNat % 2 ^ 20
     let a := windowBacking + off.toNat
     s.intake f = true → bytes ≠ [] → off.toNat % 4096 + bytes.length ≤ 4096 → s.strangeCtx f x = false →
     s.protectedPage x (o / 4096) = false → s.commitsIn x o bytes.length = [] → Memory.wf s.mem = true →
     (∀ w ∈ codewords a bytes.length, s.lineHeld w = false) →
     ∃ t, exec (.bar2Write f off bytes) s = .next t ∧ t.queues = s.queues ∧ t.cmds = s.cmds ∧ ∀ y, kget 0 t.mem.bytes y =
       if a ≤ y ∧ y < a + bytes.length then bytes.getD (y - a) 0 else kget 0 s.mem.bytes y) ∧
  (∀ (s : State) (f : FnId) (off : BitVec 28) (bytes : List Byte),
     let x := off.toNat / 2 ^ 20
     let o := off.toNat % 2 ^ 20
     s.intake f = true → bytes ≠ [] → o + bytes.length ≤ 2 ^ 20 →
     (s.strangeCtx f x = true → exec (.bar2Write f off bytes) s = .next (s.logEvent 0x0B)) ∧
     (s.strangeCtx f x = false → exec (.bar2Write f off bytes) s =
       .next ((pageSplit (bytes.length + 1) off.toNat bytes).foldl (fun t p => t.windowPage p.1 p.2) s)) ∧
     (s.strangeCtx f x = false → off.toNat % 4096 + bytes.length ≤ 4096 → s.protectedPage x (o / 4096) = true →
       exec (.bar2Write f off bytes) s = .next (s.faultNotice x stProtection (apertureBase + o) 0 0))) ∧
  (∀ (s : State) (f : FnId) (q : QueueId) (count : BitVec 32),
     let u := s.queue q
     let d := (count.toNat + 2 ^ 32 - u.commit) % 2 ^ 32
     s.intake f = true →
     (s.strangeQueue f q = true → exec (.feSqDoorbellWrite f q count) s = .next (s.logEvent 0x0B)) ∧
     (s.strangeQueue f q = false →
       ((u.state = 0 ∨ u.state = 3 ∨ u.closing.isSome = true ∨ d = 0) → exec (.feSqDoorbellWrite f q count) s = .next s) ∧
       ((u.state = 1 ∨ u.state = 2) → u.closing = none → d ≠ 0 → s.slotsFree q d = false →
         exec (.feSqDoorbellWrite f q count) s = .next (s.faultNotice u.ctx stProtection q q 0))) ∧
     (u.state ≠ 0 → exec (.commitWrite f q count) s = .next (s.windowArea f (u.ctx * 2 ^ 20 + u.sqOff) (leBytes 4 count.toNat)))) ∧
  (∀ (s : State) (q d : Nat), s.slotsFree q d = true ↔ d + (s.queue q).reserved ≤ 2 ^ (s.queue q).sqLog2 ∧
     ∀ e ∈ s.cmds, ∀ r ∈ e.2.enqs, r.queue = q → ∀ i, i < d → r.ringSlot ≠ (s.queue q).nextSlot i)

/-- R357: a HEAD within the written records advances the consumed count, and held records are written as the ring gets room.
R330, R352, R356, R360, R361: a command whose timer has expired ends with TIMEOUT where it has not begun, and drains or is torn down
with its context where it runs; 30 µs into a drain it ends; two heads that wait on each other end with FENCE_CYCLE; an ended command
whose writes are visible completes and leaves the queue's outstanding commands. -/
def Obligations.CommandEnds : Prop :=
  (∀ (s : State) (f : FnId) (q : QueueId) (head : BitVec 32),
     let u := s.queue q
     s.reach f = true → s.strangeQueue f q = false → u.state ≠ 0 →
     ((head.toNat + 2 ^ 32 - u.head) % 2 ^ 32 ≤ (u.written % 2 ^ 32 + 2 ^ 32 - u.head) % 2 ^ 32 →
       exec (.feCqHeadWrite f q head) s =
         .next (State.flushRecords (u.held.length + 1) (s.updQueue q (fun u => { u with head := head.toNat })) q).settle) ∧
     ((u.written % 2 ^ 32 + 2 ^ 32 - u.head) % 2 ^ 32 < (head.toNat + 2 ^ 32 - u.head) % 2 ^ 32 →
       exec (.feCqHeadWrite f q head) s = .next (s.logEvent 0x0B))) ∧
  (∀ (s : State) (q : QueueId) (seq : BitVec 48) (c : Cmd),
     let key := q.val * 2 ^ 48 + seq.toNat
     s.cmd? key = some c →
     (c.phase = .waiting → c.draining = none → s.elapsed c = true → exec (.commandTimeout q seq) s = .next (s.endCmd key stTimeout)) ∧
     (c.phase = .running → c.draining = none → s.elapsed c = true →
       let u := (s.waitFaults c).updCmd key (fun c => { c with drained := true, draining := some (c.draining.getD s.refCount) })
       exec (.commandTimeout q seq) s = .next (if (s.queue c.queue).kill then (s.waitFaults c).tear c.ctx stTimeout
         else if u.cmdDrained c then u.endCmd key stTimeout else u)) ∧
     (∀ t, c.draining = some t → t + 3000 ≤ s.refCount → exec (.drainTimeout q seq) s = .next (s.endCmd key stTimeout)) ∧
     (c.phase = .ended → (∀ b ∈ s.link.pendingInv, b.cmd ≠ c.key) → exec (.commandComplete q seq) s = .next (s.complete c)) ∧
     (∀ (a b : QueueId) (h g : Cmd), a ≠ b → s.head? a = some h → s.head? b = some g → (s.waitsOn h).all (fun w => w.1 ≠ a.val) = true →
       (s.waitsOn g).all (fun w => w.1 ≠ b.val) = true → s.headWaits a b = true → s.headWaits b a = true →
       exec (.fenceCycle a b) s = .next ((s.endCmd h.key stFenceCycle).endCmd g.key stFenceCycle)))

/-- R18, R359, R377, R378, R433: QUEUE_CREATE takes the lowest free queue with the request's rings, of which every page that it names has a
translation; QUEUE_DESTROY of an idle queue removes it;
QUEUE_QUERY and OP_QUERY report; QUEUE_REMAP gives a BLOCKED queue a new ring and writes the held records there.
An opcode that is not implemented, or that RECOVERY does not answer (R550), is answered with CAPABILITY_MISSING, and a version that is not
with VERSION_REFUSED, and nothing but the response changes; an illegal SLOTS comes before the two (log entry 42). -/
def Obligations.QueueOperations : Prop :=
  ∀ (s : State) (f : FnId) (slot : Fin 28),
    let r := s.req f slot
    (∀ q t, s.posted f slot 0x0301 → s.strangeCtx f (r.u 0 1) = false → 6 ≤ r.u 2 1 → r.u 2 1 ≤ 12 → 6 ≤ r.u 3 1 → r.u 3 1 ≤ 16 →
      10 ≤ r.u 4 4 → r.u 4 4 ≤ 3600000000 → r.u 8 4 % 4096 = 0 → r.u 8 4 + 64 * (2 ^ r.u 2 1 + 1) ≤ 2 ^ 20 → queueVector f (r.u 12 2) = true →
      r.u 16 8 % 4096 = 0 → r.u 16 8 + 64 * 2 ^ r.u 3 1 ≤ 2 ^ 52 → leastBelow 1024 (fun q => (s.queue q).state = 0) = some q →
      (s.ctx (r.u 0 1)).phase ≠ 0 → (s.ctx (r.u 0 1)).phase ≠ 7 → (s.part (s.ctx (r.u 0 1)).part).alm.placed = true →
      let u : SQueue := { state := 1, fn := f, ctx := r.u 0 1, sqOff := r.u 8 4, sqLog2 := r.u 2 1, cqAddr := r.u 16 8, cqLog2 := r.u 3 1,
                          kill := bitAt (r.u 1 1) 0, timeout := r.u 4 4, vector := r.u 12 2 }
      s.namedThere f (r.u 16 8) (64 * 2 ^ r.u 3 1) = (t, stOk) →
      exec (.queueCreate f slot) s = s.answers { t with queues := kput t.queues q u } f slot stOk (leBytes 2 q)) ∧
    (let q := r.u 0 2
     s.posted f slot 0x0302 → s.strangeQueue f q = false → q < 1024 → (s.queue q).state ≠ 0 → (s.queue q).closing = none →
      s.queueCmds q = [] → ksorted s.queues = true →
      ∃ t, exec (.queueDestroy f slot) s = s.answers t f slot stOk [] ∧ kfind t.queues q = none ∧ t.fns = s.fns ∧ t.mem = s.mem ∧
        ∀ p, p ≠ q → t.queue p = s.queue p) ∧
    (let q := r.u 0 2
     let u := s.queue q
     s.posted f slot 0x0303 → s.strangeQueue f q = false → q < 1024 → exec (.queueQuery f slot) s =
      s.answers s f slot stOk (leBytes 2 u.state ++ leBytes 2 u.ctx ++ leBytes 4 0 ++ leBytes 8 u.seq ++ leBytes 8 u.done ++
        leBytes 8 u.written ++ leBytes 2 u.held.length)) ∧
    (let q := r.u 0 2
     s.posted f slot 0x0304 → s.strangeQueue f q = false → q < 1024 → 6 ≤ r.u 16 1 → r.u 16 1 ≤ 16 → r.u 8 8 % 4096 = 0 →
      r.u 8 8 + 64 * 2 ^ r.u 16 1 ≤ 2 ^ 52 → (s.queue q).state = 2 →
      ∀ t, s.namedThere (s.queue q).fn (r.u 8 8) (64 * 2 ^ r.u 16 1) = (t, stOk) → exec (.queueRemap f slot) s =
      s.answers (State.flushRecords ((s.queue q).held.length + 1)
        (t.updQueue q (fun u => { u with state := 1, cqAddr := r.u 8 8, cqLog2 := r.u 16 1, ringCount := 0 })) q).settle f slot stOk []) ∧
    (∀ o, s.posted f slot 0x0309 → (s.fn f).ops.find? (fun o => o.opId = r.u 0 4) = some o → o.done = true →
      exec (.opQuery f slot) s = s.answers s f slot stOk (leBytes 2 2 ++ leBytes 2 o.status ++ (o.resp ++ List.replicate 44 0).take 44)) ∧
    (s.firmware = true → (s.fn f).serving slot = true → ¬ (implemented r.opcode = true ∧ r.version = 1) →
      let lost := s.service.state = 4 ∧ inRecovery r.opcode = false
      let legal := 1 ≤ r.slots ∧ r.slots ≤ 4
      ((lost ∨ (legal ∧ implemented r.opcode = false)) → exec (.unimplementedOpcode f slot) s = s.answers s f slot stCapabilityMissing []) ∧
      (¬ lost → legal → implemented r.opcode = true → exec (.unimplementedOpcode f slot) s = s.answers s f slot stVersionRefused []) ∧
      (¬ lost → ¬ legal → exec (.unimplementedOpcode f slot) s = s.answers s f slot stBadPattern []))

/-- R373, R375, R377: ALMANAC_CONFIG places a partition's Almanac in writable leaves of this part; ALMANAC_QUERY reports it, and
ALMANAC_ACK takes the driver's acknowledged sequence. -/
def Obligations.AlmanacOperations : Prop :=
  ∀ (s : State) (f : FnId) (slot : Fin 28),
    let r := s.req f slot
    let p := r.u 0 1
    let a := (s.part p).alm
    (∀ pages, s.posted f slot 0x0305 → f.val = 0 → p < 16 → 16 ≤ r.u 1 1 → r.u 1 1 ≤ 24 → r.u 8 8 % 2 ^ 25 = 0 →
      r.u 8 8 + 64 * 2 ^ r.u 1 1 ≤ 2 ^ 52 → s.holdsQueue p = false → s.ringPages ((64 * 2 ^ r.u 1 1 + (2 ^ 25 - 1)) / 2 ^ 25) (r.u 8 8) = .ok pages →
      bitAt (r.u 2 1) 0 = false →
      exec (.almanacConfig f slot) s = s.answers (s.updPart p (fun q => { q with
        alm := { q.alm with placed := true, base := r.u 8 8, pages := pages, log2 := r.u 1 1, oldest := q.alm.writeSeq, pfRecords := false,
                            wrapNoted := q.alm.writeSeq / 2 ^ r.u 1 1 } })) f slot stOk []) ∧
    (s.posted f slot 0x0306 → r.foreign p = false → p < 16 → a.placed = true → exec (.almanacQuery f slot) s =
      s.answers s f slot stOk (leBytes 8 a.base ++ leBytes 8 a.log2 ++ leBytes 8 a.writeSeq ++ leBytes 8 a.oldest ++ leBytes 8 a.ack ++
        leBytes 8 a.wrapped)) ∧
    (s.posted f slot 0x0307 → r.foreign p = false → p < 16 → a.placed = true → r.u 8 8 < a.writeSeq → exec (.almanacAck f slot) s =
      s.answers (s.updPart p (fun q => { q with alm := { q.alm with ack := r.u 8 8 } })) f slot stOk [])

/-- R362 to R371: a mailbox slot write within one slot is stored unless a running request holds the slot; a doorbell hands a POSTED request
to firmware, which marks it RUNNING; a finished asynchronous operation posts its notice; a notice goes into the next free notice slot with
vector 0, and a held one goes there later, with the vector where firmware was down when it was due. A doorbell for a slot that is not POSTED
is ignored with an event. R363: a response stands in the request's slots as its header, with STATE DONE, followed by its payload; nothing of
device memory changes where no Almanac takes the function's records. -/
def Obligations.ControlMailbox : Prop :=
  (∀ (s : State) (f : FnId),
     (∀ (off : Fin 8192) (bytes : List Byte), s.reach f = true → bytes ≠ [] → bytes.length ≤ 64 →
       ((off.val < 0x800 ∧ off.val / 64 = (off.val + bytes.length - 1) / 64 ∧ s.slotRunning f (off.val / 64) = false) ∨
         (0x1000 ≤ off.val ∧ off.val / 256 = (off.val + bytes.length - 1) / 256)) →
       exec (.mailboxSlotWrite f off bytes) s = .next (s.updFn f (fun m => { m with mb := writeBytes m.mb off bytes }))) ∧
     (∀ (off : Fin 8192) (bytes : List Byte), s.reach f = true → off.val < 0x800 → s.slotRunning f (off.val / 64) = true →
       exec (.mailboxSlotWrite f off bytes) s = .next (s.logEvent 0x0B)) ∧
     (∀ slot : BitVec 5, s.intake f = true → s.firmware = true → (s.fn f).slotState slot.toNat = 1 → (s.req f slot.toNat).overruns = false →
       s.slotRunning f slot.toNat = false →
       exec (.mbDoorbellWrite f slot) s = .next (s.takeRequest f slot.toNat)) ∧
     (∀ slot : BitVec 5, s.intake f = true → (s.fn f).slotState slot.toNat ≠ 1 → exec (.mbDoorbellWrite f slot) s = .next (s.logEvent 0x0B)) ∧
     (∀ (x : Notice) (rest : List Notice), s.firmware = true → (s.fn f).noticeHold = x :: rest → (s.fn f).slotState (28 + (s.fn f).noticeNext) = 0 →
       exec (.noticePosted f) s =
         .next (if x.due then (s.updFn f (Fn.writeNotices 1)).irq f 0 1 else s.updFn f (Fn.writeNotices 1))) ∧
     (∀ (n : Fn) (x : Notice) (rest : List Notice), n.noticeHold = x :: rest → n.slotState (28 + n.noticeNext) = 0 →
       (Fn.writeNotices 1 n).noticeHold = rest ∧ (Fn.writeNotices 1 n).noticeNext = (n.noticeNext + 1) % 4) ∧
     (∀ (op : BitVec 32) (o : AsyncOp), s.firmware = true → (s.fn f).ops.find? (fun o => o.opId = op.toNat && o.ready && !o.done) = some o →
       let u := s.updFn f (fun n => { n with ops := n.ops.map (fun p => if p.opId = o.opId then { p with done := true } else p) })
       let t := u.postNoticeRaw f (s.almOf f) ⟨o.opcode, o.tag, o.status, leBytes 4 o.opId ++ o.resp, false⟩
         { type := 3, status := o.status, seq := o.opId, parent := o.tag * 65536 + o.opcode }
       exec (.asyncOpComplete f op) s = .next (match s.almOf f with
         | some p => if t.2 then t.1.wrapNotice p else t.1
         | none => t.1)) ∧
     (∀ (x : Notice) (rec : AlmRec), s.firmware = true → (s.fn f).noticeHold = [] → (s.fn f).slotState (28 + (s.fn f).noticeNext) = 0 →
       (s.postNoticeRaw f none x rec).1 =
         (s.updFn f (fun n => Fn.writeNotices 1 { n with noticeHold := [{ x with due := false }] })).irq f 0 1)) ∧
  (∀ (s : State) (f slot status : Nat) (resp : List Byte),
     let r := s.req f slot
     let n := max 1 ((16 + resp.length + 63) / 64)
     let t := s.respond r status resp false
     s.almOf f = none → ksorted (s.fn f).mb = true → resp.length ≤ 240 → slot + n ≤ 28 →
     readBytes (t.fn f).mb (64 * slot) (16 + resp.length) =
       mbHeader r.opcode r.version n r.tag status (3 + (if r.irq then 8 else 0)) ++ resp ∧
     t.mem = s.mem ∧ t.queues = s.queues ∧ t.cmds = s.cmds ∧ t.ctxs = s.ctxs ∧ t.parts = s.parts ∧ t.cores = s.cores ∧ t.tables = s.tables)

/-- R368 to R370: setting express doorbell bits marks bound slots with a legal length as busy; a busy slot is delivered into the next cell
of its channel on the core of its rank when a cell is free; one not delivered within its timeout ends with EXPRESS_TIMEOUT; EXPRESS_BIND
binds a channel; reading the results clears them. -/
def Obligations.ExpressMailbox : Prop :=
  ∀ (s : State) (f : FnId),
    (∀ k : Fin 16, s.intake f = true → (s.fn f).expBusy.testBit k = false → (kfind (s.fn f).chans ((s.fn f).expU k 0 1)).isSome = true →
      (s.fn f).expU k 2 2 ≠ 0 → (s.fn f).expU k 2 2 ≤ 248 →
      exec (.mbExpDoorbellWrite f (1#16 <<< k.val)) s = .next (s.updFn f (fun n => { n with
        expBusy := n.expBusy ||| 2 ^ k.val, expTime := kput n.expTime k s.refCount }))) ∧
    (∀ (k : Fin 16) (c : Channel) (key core : Nat), kfind (s.fn f).chans ((s.fn f).expU k 0 1) = some c →
      s.expressCore c.ctx c.rank = some (key, core) → (s.fn f).expBusy.testBit k = true →
      c.count - (kget {} ((s.core core).set c.ctx).tallies c.free).value < c.cells → s.since (kget 0 (s.fn f).expTime k) c.timeoutUs = false →
      exec (.expressDelivery f k) s = .next ((((s.writeScr core c.ctx (c.scratch + 256 * (c.count % c.cells))
        (readBytes (s.fn f).mb (0x1000 + 256 * k.val) 256) 0).tallyAdd core c.ctx c.deliver 1 6 none)).updFn f
          (fun n => { n.expEnd k 0 with chans := kput n.chans ((s.fn f).expU k 0 1) { c with count := c.count + 1 } }))) ∧
    (∀ (k : Fin 16) (c : Channel), kfind (s.fn f).chans ((s.fn f).expU k 0 1) = some c → (s.fn f).expBusy.testBit k = true →
      s.since (kget 0 (s.fn f).expTime k) c.timeoutUs = true → exec (.expressTimeout f k) s = .next (s.updFn f (fun n => n.expEnd k 3))) ∧
    (s.reach f = true → ∀ half, exec (.mbExpResultRead f half) s =
      .next (({ s with host := { s.host with reads := halfOf half (s.fn f).expResult :: s.host.reads } } : State).updFn f
        (fun n => { n with expResult := setHalf half n.expResult 0 }))) ∧
    setHalf 0 (s.fn f).expResult 0 = 0 ∧ setHalf 1 (s.fn f).expResult 0 = (s.fn f).expResult / 2 ^ 32 * 2 ^ 32 ∧
    setHalf 2 (s.fn f).expResult 0 = (s.fn f).expResult % 2 ^ 32 ∧
    (∀ slot : Fin 28, let r := s.req f slot
      s.posted f slot 0x0308 → r.u 0 1 < 16 → r.u 3 1 ≠ 0 → r.u 3 1 ≤ 64 → s.strangeCtx f (r.u 1 1) = false → (s.ctx (r.u 1 1)).phase ≠ 0 →
      (s.ctx (r.u 1 1)).phase ≠ 7 → r.u 2 1 < 128 → r.u 8 3 % 256 = 0 → r.u 8 3 + 256 * r.u 3 1 ≤ s.winSize (r.u 1 1) → r.u 12 4 = 0 →
      exec (.expressBind f slot) s = s.answers ((s.updFn f (fun n => n.unbind (fun k _ => k = r.u 0 1))).updFn f (fun n => { n with
        chans := kput n.chans (r.u 0 1) ⟨r.u 1 1, r.u 2 1, r.u 3 1, r.u 4 1, r.u 5 1, r.u 8 3, 100000, 0⟩ })) f slot stOk [])

/-! ### Partitions, contexts and the scheduler -/

/-- R391, R393, R403: the turn of a partition passes on, in context order with wrapping, where its holder has no ready head or has used its
slice; the new holder's pending SLICE takes effect; a holder with a ready head and time left keeps the turn. -/
def Obligations.TurnPassing : Prop :=
  ∀ (s : State) (p : PartId) (h : Nat), (s.part p).turn = some h →
    (∀ n rest, (h ∉ s.turnTakers p ∨ (s.ctx h).sliceUs * 100 ≤ s.chargeNow p) → turnAfter h (s.turnTakers p) = n :: rest →
      ∃ t, exec (.turnPass p) s = .next t ∧ (t.part p).turn = some n ∧ (t.part p).charge = 0 ∧ (t.part p).turnAt = s.refCount ∧
        (t.ctx n).sliceUs = (s.ctx n).nextSlice.getD (s.ctx n).sliceUs ∧ (t.ctx n).nextSlice = none ∧ t.cores = s.cores ∧
        t.cmds = s.cmds ∧ t.mem = s.mem ∧ (∀ x, x ≠ n → t.ctx x = s.ctx x) ∧ ∀ q, q ≠ p.val → t.part q = s.part q) ∧
    (h ∈ s.turnTakers p → s.chargeNow p < (s.ctx h).sliceUs * 100 → exec (.turnPass p) s = .next s) ∧
    (∀ x l, x ∈ turnAfter h l ↔ x ∈ l)

/-- R394: a command of n cores gets the first n available cores of the placement order (all of them where there are fewer), listed by
rising number, and no available core left out comes before one taken. -/
def Obligations.CorePlacement : Prop :=
  ∀ (s : State) (x n : Nat) (avail : List Nat),
    let l := s.choose x n avail
    l.length = min n avail.length ∧ (∀ c ∈ l, c ∈ avail) ∧ l.Pairwise (· ≤ ·) ∧
    ∀ c ∈ l, ∀ d ∈ avail, d ∉ l → placeKey (s.ctx x).place avail c ≤ placeKey (s.ctx x).place avail d

/-- R319, R320, R391, R392, R353: the ready STEP or JOB head that the scheduler chooses begins on the smaller of CORES_MAX and the available
cores once each of them has read and checked its image; a ready MARKER completes; a head whose fence is broken ends with FENCE_FAILED; a step
that awaits its replay begins again under ties away on cores of the partition as it stood at admission that are not barred to it (R31).
R22, R320, R323, R409: a command that begins has each of its cores run its rank from the first instruction of the image, with
cleared registers, and other cores are untouched. -/
def Obligations.CommandDispatch : Prop :=
  (∀ (s : State) (q : QueueId) (c : Cmd),
     (s.head? q = some c → s.fenceBroken c (c.u 16 8) = false → s.fenceBroken c (c.u 24 8) = false →
       (∀ (k : Nat) (h : List Byte) (b : Bool) (hs : List (List Byte × Bool)) (imgs : List PatternImage) (t0 t1 t2 : State),
         let u := s.passTurn c.part
         let avail := u.oneClass (u.availableCores c.part)
         let va := c.u 8 8
         let cores := t0.choose c.ctx (min (coreRange h).2 avail.length) avail
         u.nextHead c.part = some c → u.choose c.ctx 1 avail = [k] → (readHeader (c.who k) va).run u = (.ok (h, b), t0) →
         (coreRange h).1 ≤ avail.length → eachCore (fun k => readHeader (c.who k) va) cores t0 = (.ok hs, t1) →
         eachCore (fun k => readPattern (c.who k) va) cores t1 = (.ok imgs, t2) →
         let out := ((t2.endReads cores).beginOn c cores imgs u.reduced false).settle
         (c.kind = kindStep → exec (.step q) s = .next out) ∧ (c.kind = kindJob → exec (.job q) s = .next out)) ∧
       (c.kind = kindMarker → s.ready c = true → exec (.marker q) s = .next (s.endCmd c.key stOk))) ∧
     (s.head? q = some c → (s.fenceBroken c (c.u 16 8) || s.fenceBroken c (c.u 24 8)) = true →
       let out := s.endCmd c.key stFenceFailed
       (c.kind = kindStep → exec (.step q) s = .next out) ∧ (c.kind = kindJob → exec (.job q) s = .next out) ∧
       (c.kind = kindMarker → exec (.marker q) s = .next out)) ∧
     (∀ seq : BitVec 48, let key := q.val * 2 ^ 48 + seq.toNat
       let avail := s.oneClass ((s.availableCores c.part).filter (fun k => !c.badCores.testBit k && c.admitted.testBit k))
       let u := s.updCmd key (fun m => { m with enqs := m.enqs.map (fun e => { e with filled := false }) })
       s.cmd? key = some c → c.replayDue = true → c.phase = .running → (s.coresWanted c).1 ≤ avail.length → avail ≠ [] →
       exec (.stepReplay q seq) s = .next ((u.withdraw (fun a => a.isLocal && a.cmd = key) (fun _ => false) true).dispatch c avail true))) ∧
  (∀ (s : State) (c m : Cmd) (cores : List Nat) (imgs : List PatternImage) (ties : Bool),
     cores.Nodup → imgs.length = cores.length → s.cmd? c.key = some m →
     let t := s.beginOn c cores imgs ties false
     (∀ r k img, cores[r]? = some k → imgs[r]? = some img → (t.core k).cmd = some c.key ∧ (t.core k).ctx = c.ctx ∧ (t.core k).rank = r ∧ (t.core k).seq.pc = 0 ∧
       (t.core k).seq.regs = [] ∧ (t.core k).seq.code = img.code ∧ (t.core k).seq.active = true ∧ (t.core k).gathers = [] ∧
       ((t.core k).set c.ctx).pairs = [] ∧ ((t.core k).set c.ctx).tallies = ((s.core k).set c.ctx).tallies) ∧
     (∀ k, k ∉ cores → t.core k = s.core k) ∧ t.mem = s.mem ∧
     (∃ d, t.cmd? c.key = some d ∧ d.phase = .running ∧ d.cores = cores ∧ d.ties = ties ∧ d.startedAt = s.refCount ∧ d.cvt = 0 ∧
       d.admitted = (s.part m.part).mask) ∧
     (t.ctx c.ctx).phase = 3 ∧ (t.ctx c.ctx).place = bitMask cores)

/-- R385, R387, R401 to R403: CONTEXT_CREATE takes the lowest free context with the request's attributes, and makes it resident where there
is room, else stores its empty state in its save area; CONTEXT_SET gives a slice for the next turn; CONTEXT_QUERY reports; CONTEXT_DESTROY
tears the context down. -/
def Obligations.ContextOperations : Prop :=
  ∀ (s : State) (f : FnId) (slot : Fin 28),
    let r := s.req f slot
    let x := r.u 0 1
    (∀ n, s.posted f slot 0x0203 → r.foreign x = false → x < 16 → r.u 1 1 ≤ 1 → r.u 2 1 ≠ 0 → r.u 2 1 ≤ 64 → r.zeros 3 1 = true →
      50 ≤ r.u 4 4 → r.u 4 4 ≤ 10000 → r.u 8 8 < 2 ^ 38 → r.u 8 8 % 32768 = 0 → r.u 16 8 % 2 ^ 25 = 0 →
      s.saveMapped (r.u 8 8) (r.u 16 8) (128 * r.u 2 1 * 32768 + 65536) = true →
      s.absentCtx = some n →
      let v : Ctx := { phase := 5, part := x, job := r.u 1 1 = 1, window := r.u 2 1, sliceUs := r.u 4 4, ptRoot := r.u 8 8,
                       saveAddr := r.u 16 8, since := s.refCount }
      let t : State := { s with ctxs := kput s.ctxs n v, xlt := { s.xlt with ctxRoot := kput s.xlt.ctxRoot n (r.u 8 8) } }
      exec (.contextCreate f slot) s = s.answers (if t.roomFor x (r.u 2 1) then t.swapIn n 1 else t.saveEmpty n) f slot stOk (leBytes 1 n)) ∧
    (s.strangeCtx f x = false → r.zeros 1 3 = true → (s.ctx x).phase ≠ 0 →
      (s.posted f slot 0x0208 → 50 ≤ r.u 4 4 → r.u 4 4 ≤ 10000 →
        exec (.contextSet f slot) s = s.answers (s.updCtx x (fun v => { v with nextSlice := some (r.u 4 4) })) f slot stOk []) ∧
      (s.posted f slot 0x0205 → exec (.contextQuery f slot) s = s.answers s f slot stOk
        (leBytes 8 (s.ctxState x) ++ leBytes 16 (s.ctx x).place ++ leBytes 8 (s.ctx x).since ++
          leBytes 8 (if (s.part (s.ctx x).part).turn = some x then s.chargeNow (s.ctx x).part else 0))) ∧
      (s.posted f slot 0x0204 → (s.ctx x).phase ≠ 7 → (s.fn f).running < 64 →
        exec (.contextDestroy f slot) s = s.accepted f slot 0x0204 (fun t id =>
          (t.tear x stContextTornDown).updCtx x (fun v => { v with op := some (f.val, id) }))))

/-- R397, R398: CONTEXT_SUSPEND of a context with a running job is accepted; the job's cores are freed and its state is kept by rank once its
descriptors have ended; CONTEXT_RESUME is answered, and brings the job back once as many cores are available.
R399 to R401: the swapped context that has been ready longest becomes resident once there is room, after the victims have been swapped
out, or is torn down with SELVAGE_MISMATCH where its save area fails the check of R464; a context whose commands have all ended leaves
TEARING and is ABSENT. -/
def Obligations.ContextSuspension : Prop :=
  (∀ (s : State) (f : FnId) (slot : Fin 28),
     let r := s.req f slot
     let x := r.u 0 1
     (s.posted f slot 0x0206 → f.val = 0 → r.zeros 1 3 = true → (s.ctx x).phase = 3 → (s.jobOf x).isSome = true →
       (∀ y, (s.ctx y).suspending = false) → (s.fn f).running < 64 →
       exec (.contextSuspend f slot) s = s.accepted f slot 0x0206 (fun t id =>
         (t.updCtx x (fun v => { v with suspending := true, op := some (f.val, id) })).suspend x)) ∧
     (s.posted f slot 0x0207 → f.val = 0 → r.zeros 1 3 = true → (s.ctx x).phase = 6 → (∀ y, (s.ctx y).resuming = false) →
       ∀ bad, exec (.contextResume f slot bad) s = s.answers ((s.updCtx x (fun v => { v with resuming := true })).resume x bad) f slot stOk []) ∧
     (∀ (y : Nat) (c : Cmd), s.jobOf y = some c → (s.ctx y).suspending = true → s.cmdDrained c = true →
       (∀ f ∈ s.xlt.faults, ∀ a ∈ f.accesses, a.cmd ≠ c.key) →
       ((s.suspend y).ctx y).phase = 6 ∧ ((s.suspend y).ctx y).suspending = false ∧
       ∀ k ∈ s.coresOn c, (((s.suspend y).core k).cmd = none ∧ (s.suspend y).scr k y = s.scr k y)) ∧
     (∀ (c : Cmd) (k rank : Nat) (img : PatternImage) (sv : SavedCore),
       let u := (s.resumeCore c k rank img sv).core k
       u.cmd = some c.key ∧ u.rank = rank ∧ u.seq.pc = sv.pc ∧ u.seq.code = img.code ∧ u.cvt = sv.cvt ∧
         (u.set c.ctx).tallies = sv.tallies ∧ (u.set c.ctx).pairs = sv.pairs ∧ ∀ j, j ≠ k → (s.resumeCore c k rank img sv).core j = s.core j)) ∧
  (∀ (s : State) (x : CtxId),
     let v := s.ctx x
     (let waiting := (s.ctxsOf v.part).filter (fun y => (s.ctx y).phase = 5 && s.ctxReady y)
      let t := State.makeRoom 64 s v.part v.window
      (sortBy (fun y => (s.ctx y).readySince) waiting).head? = some x.val → t.roomFor v.part v.window = true →
       (∀ (u : State) (st : Nat), t.readSave x = (u, st) →
         (st = stOk → exec (.contextSwap x false) s = .next (u.swapIn x 2).settle) ∧
         (st ≠ stOk → exec (.contextSwap x false) s = .next (u.tear x st).settle)) ∧
       (v.saved = [] → (s.roomFor v.part v.window = true) → t.readSave x = (t, stOk)) ∧
       exec (.contextSwap x true) s =
         .next ((t.badBlock { event := 0, ctx := x, addr := v.saveAddr }).tear x stSelvageMismatch).settle) ∧
     (s.roomFor v.part v.window = true → State.makeRoom 64 s v.part v.window = s) ∧
     (v.phase = 7 → s.ctxBusy x = false →
       ∃ t, exec (.contextTeardown x) s = .next t ∧ t.ctx x = { part := v.part } ∧ t.mem = s.mem ∧ t.queues = s.queues ∧ t.cmds = s.cmds ∧
         (∀ y, y ≠ x.val → t.ctx y = s.ctx y) ∧ (t.part v.part).mask = (s.part v.part).mask ∧ (t.part v.part).turn ≠ some x.val))

/-- R400, R427: what a context's tallies and pairs hold on the cores of its partition, a swap-out followed by a swap-in brings back, on the
same cores. -/
def Obligations.SwapRoundTrip : Prop :=
  ∀ (s : State) (x c phase : Nat), c ∈ s.maskCores (s.ctx x).part →
    let t := (s.swapOut x).swapIn x phase
    ((t.core c).set x).tallies = ((s.core c).set x).tallies ∧ ((t.core c).set x).pairs = ((s.core c).set x).pairs ∧
    (t.ctx x).phase = phase ∧ (t.ctx x).resident = true ∧ ((s.swapOut x).ctx x).resident = false ∧ ((s.swapOut x).ctx x).phase = 5

/-- R383, R384, R402: PARTITION_SET with disjoint masks sets the target, an idle core whose partition differs moves from its old
partition's mask to its new one's, and PARTITION_QUERY reports both masks. -/
def Obligations.PartitionMoves : Prop :=
  (∀ (s : State) (f : FnId) (slot : Fin 28),
    let r := s.req f slot
    let n := r.u 0 1
    let es := r.masks
    let target := es.foldl (fun (m : KMap Partition) (e : Nat × Nat) => kmod {} m e.1 (fun (q : Partition) => { q with target := e.2 })) s.parts
    let p := r.u 0 1
    (s.posted f slot 0x0201 → f.val = 0 → 1 ≤ n → n ≤ 8 → r.zeros 1 7 = true → (∀ e ∈ es, e.1 < 16) →
      (∀ i, i < n → r.zeros (9 + 24 * i) 7 = true) → (es.map (·.1)).Nodup →
      disjoint (target.map (fun (e : Nat × Partition) => e.2.target)) = true → (s.fn f).running < 64 →
      exec (.partitionSet f slot) s = s.accepted f slot 0x0201 (fun t id =>
        ({ t with parts := target, moveOps := t.moveOps ++ [(f.val, id)] } : State).movesDone)) ∧
    (s.posted f slot 0x0202 → r.foreign p = false → p < 16 → r.zeros 1 3 = true →
      exec (.partitionQuery f slot) s = s.answers s f slot stOk (leBytes 16 (s.part p).mask ++ leBytes 16 (s.part p).target ++
        leBytes 1 (s.availableCores p).length ++
        leBytes 1 ((List.range 128).filter (fun c => (s.part p).mask.testBit c != (s.part p).target.testBit c)).length ++
        leBytes 2 (s.residents p).length ++ leBytes 2 (s.ctxsOf p).length ++ leBytes 1 ((s.part p).turn.getD 0)))) ∧
  (∀ (s : State) (c : CoreId) (a b : Nat), s.moving? c = true → (s.core c).cmd = none → a ≠ b →
    leastBelow 16 (fun p => (s.part p).mask.testBit c) = some a → leastBelow 16 (fun p => (s.part p).target.testBit c) = some b →
    ∃ t, exec (.coreMove c) s = .next t ∧ (t.part a).mask = (s.part a).mask - 2 ^ c.val ∧ (t.part b).mask = (s.part b).mask ||| 2 ^ c.val ∧
      (∀ p, (t.part p).target = (s.part p).target) ∧ (∀ p, p ≠ a → p ≠ b → (t.part p).mask = (s.part p).mask) ∧ t.mem = s.mem)

/-! ### Barriers and tables -/

/-- R423: completing rounds leaves ARRIVED below COUNT for good: at most two rounds complete at one arrival, the second of held
arrivals alone, and COUNT and the address stay. -/
def Obligations.BarrierRoundsSettle : Prop :=
  ∀ b : Barrier, 1 ≤ b.count →
    let c := (b.rounds 3).1
    c.arrived ≠ c.count ∧ c.count = b.count ∧ c.addr = b.addr ∧ c.part = b.part ∧ b.round ≤ c.round ∧ c.round ≤ b.round + 2 ∧
    c.entries.length = b.entries.length ∧ c.entries.map (·.pid) = b.entries.map (·.pid)

/-- R74, R84, R86 to R91, R131, R591: TABLE_CREATE lays an absent table out in the highest free units; TABLE_LOAD is accepted for a table
that is LOADING; TABLE_SEAL makes it serve; TABLE_DELETE makes it DELETING, and its memory and every cached row go once a fence has
passed and no step names it; TABLE_QUERY reports. -/
def Obligations.TableLife : Prop :=
  ∀ (s : State) (f : FnId) (slot : Fin 28), f.val = 0 →
    let r := s.req f slot
    let id := r.u 0 2
    (∀ (d : List Byte) (owners us : List Nat) (t u : State),
      let n := fieldAt d 0 2
      let v := u.cpDone
      let e : Table := { state := 1, desc := d, capacity := r.u 8 8 }
      let map := (owners.filter (· = v.pool.partId)).length * 8 * e.bucketRows
      let g : Table := { e with units := us, slotNext := map }
      let h : Table := { g with shard := g.layout v.pool.partId owners 0 0 }
      let w := v.zeroUnits h (r.u 8 8 / 2 ^ 25 + 1) 0 map
      let x : State := { w with tables := kput w.tables n h }
      s.posted f slot 0x0501 → (readCp (cpWho 0) (r.u 0 8) 64).run s = (.ok d, t) → descFault d = false → (t.cpDone.table n).state = 0 →
      (tryShardMap (fieldAt d 16 6)).run t.cpDone = (.ok (some owners), u) → r.u 8 8 % 2 ^ 25 = 0 → map ≤ r.u 8 8 →
      v.takeUnits (r.u 8 8 / 2 ^ 25) = some us →
      exec (.tableCreate f slot) s = s.answers x f slot stOk (leBytes 8 map ++ leBytes 8 (r.u 8 8 - map) ++ leBytes 8 x.firmLow)) ∧
    (let v := s.loads.foldl (fun s l => s.runLoad l) s
     let r := v.req f slot
     let t := v.table (r.u 0 2)
     v.posted f slot 0x0502 → t.state = 1 →
      (t.kind = 0 ∧ (fmtOfCode (r.u 2 1) = some .fp32 ∨ fmtOfCode (r.u 2 1) = some .bf16) ∨ t.kind ≠ 0 ∧ r.u 2 1 = t.u 5 1 % 16) →
      r.u 4 4 ≠ 0 → r.u 4 4 ≤ 16777216 → (v.fn f).running < 64 →
      exec (.tableLoad f slot) s = v.accepted f slot 0x0502 (fun t op =>
        let l : Load := ⟨f, op, r.payload⟩
        State.runLoad { t with loads := t.loads ++ [l] } l)) ∧
    (s.posted f slot 0x0503 → (s.table id).state = 1 →
      exec (.tableSeal f slot) s = s.answers ((s.updTable id (fun t => { t with state := 2 })).fitFirm 3) f slot stOk []) ∧
    (s.posted f slot 0x0504 → exec (.tableQuery f slot) s = s.answers s f slot stOk (leBytes 4 (s.table id).state ++
      leBytes 4 (if (s.table id).state = 0 then 0 else (s.table id).gen) ++ leBytes 8 (s.ownedRows id) ++ leBytes 8 (s.table id).used ++
      leBytes 8 (s.table id).capacity ++ leBytes 8 s.firmLow)) ∧
    (s.posted f slot 0x0505 → ((s.table id).state = 1 ∨ (s.table id).state = 2) →
      exec (.tableDelete f slot) s =
        .next (s.updTable id (fun t => { t with state := 3, delete := some (f.val, slot.val), fenced := false }))) ∧
    (∀ n : BitVec 16, (s.table n.toNat).state = 3 → (s.table n.toNat).fenced = true → s.namesTable n.toNat = false →
      s.posted f slot 0x0505 → (s.table n.toNat).delete = some (f.val, slot.val) → ksorted s.tables = true →
      ∃ t, exec (.tableFreed n) s = s.answers t f slot stOk [] ∧ (t.table n.toNat).state = 0 ∧ (∀ m, m ≠ n.toNat → t.table m = s.table m) ∧
        (∀ e ∈ t.slices, ∀ g ∈ e.2.tags, g.2.table ≠ n.toNat) ∧ (∀ e ∈ t.directory, ∀ d ∈ e.2, d.table ≠ n.toNat) ∧ t.mem = s.mem ∧
        t.fns = s.fns)

/-- R149, R173, R180, R181, R170: SHARD_QUERY answers a bucket's entry and REDIRECT_QUERY a directory entry; a valid SPLIT_SET or
SERVICE_SET takes effect at once where no step runs, and waits for the step boundary else; SPLIT_GET reports. -/
def Obligations.ShareAndShardOperations : Prop :=
  ∀ (s : State) (f : FnId) (slot : Fin 28),
    let r := s.req f slot
    let p := r.u 0 1
    let id := r.u 0 2
    (s.posted f slot 0x0601 → r.u 2 2 < 4096 → (s.table id).state = 2 →
      exec (.shardQuery f slot) s = s.answers s f slot stOk (leBytes 16 (s.shard id (r.u 2 2)))) ∧
    (s.posted f slot 0x0603 → r.foreign p = false → p < 16 → exec (.splitGet f slot) s =
      s.answers s f slot stOk (leBytes 1 (s.part p).splitRead ++ leBytes 1 (s.part p).splitWrite ++ leBytes 1 (s.part p).splitRemote)) ∧
    (f.val = 0 → s.posted f slot 0x0605 → (s.table id).state = 2 →
      (s.dirEntry id (r.u 8 8) = none → exec (.redirectQuery f slot) s = s.answers s f slot stOk (leBytes 16 0)) ∧
      (∀ d, s.dirEntry id (r.u 8 8) = some d → exec (.redirectQuery f slot) s = s.answers s f slot stOk
        (leBytes 1 1 ++ leBytes 1 (b2n d.forward) ++ leBytes 2 d.holder ++ leBytes 4 0 ++ leBytes 8 d.cutover))) ∧
    (f.val = 0 → s.posted f slot 0x0602 → p < 16 → r.u 1 1 ≠ 0 → r.u 2 1 ≠ 0 → r.u 3 1 ≠ 0 → r.u 1 1 + r.u 2 1 + r.u 3 1 = 100 →
      (f.val, slot.val) ∉ (s.part p).splitOps →
      (s.stepRuns p = false → ∃ t, exec (.splitSet f slot) s = s.answers t f slot stOk [] ∧ (t.part p).splitRead = r.u 1 1 ∧
        (t.part p).splitWrite = r.u 2 1 ∧ (t.part p).splitRemote = r.u 3 1 ∧ (t.part p).mask = (s.part p).mask ∧ t.mem = s.mem ∧
        ∀ q, q ≠ p → t.part q = s.part q) ∧
      (s.stepRuns p = true → ∃ t, exec (.splitSet f slot) s = .next t ∧ (t.part p).splitRead = (s.part p).splitRead ∧
        (t.part p).nextSplit = some (r.u 1 1, r.u 2 1, r.u 3 1) ∧ (f.val, slot.val) ∈ (t.part p).splitOps ∧ t.fns = s.fns ∧ t.mem = s.mem)) ∧
    (f.val = 0 → s.posted f slot 0x0604 → 5 ≤ r.u 0 1 → r.u 0 1 ≤ 50 → r.u 1 1 + r.u 2 1 = 100 → (f.val, slot.val) ∉ s.serviceOps →
      ((∀ q, q < 16 → s.stepRuns q = false) → ∃ t, exec (.serviceSet f slot) s = s.answers t f slot stOk [] ∧
        t.serviceShare = r.u 0 1 ∧ t.serviceRead = r.u 1 1 ∧ t.serviceWrite = r.u 2 1 ∧ t.mem = s.mem ∧
        ∀ q, q < 16 → (t.part q).service = r.u 0 1) ∧
      (∀ q, q < 16 → s.stepRuns q = true → ∃ t, exec (.serviceSet f slot) s = .next t ∧ t.serviceShare = s.serviceShare ∧
        t.nextService = some (r.u 0 1, r.u 1 1, r.u 2 1) ∧ q ∈ t.serviceLeft ∧ (t.part q).service = (s.part q).service ∧
        t.fns = s.fns))

/-! ### Updates, epochs, migration and re-tiering -/

/-- R193 to R199, R592, R593: an UPDATE command whose descriptor, row ids and values can be read has its entries accepted and sent; a DELTA
is staged once and acknowledged with 0, and is answered with 3 for an epoch that is past, 4 for a table that does not serve the entry,
2 and the holder for a row of another part, and 1 where the staging is full; an acknowledgement settles the entries of its message;
entries refused with STAGE_FULL are sent again after 1 µs. -/
def Obligations.UpdateCommands : Prop :=
  (∀ (s t : State) (q : QueueId) (c d : Cmd), (∀ e ∈ s.epochs.sent, e.tag ≠ none ∨ e.fullAt ≠ none) →
    (s.queueCmds q).find? (fun c => c.kind = kindUpdate && c.phase = .running && !c.updSent) = none →
    s.head? q = some c → c.kind = kindUpdate → s.fenceBroken c (c.u 16 8) = false → s.fenceBroken c (c.u 24 8) = false → s.ready c = true →
    let u := (s.updCmd c.key (fun c => { c with phase := .running, startedAt := s.refCount, ties := s.reduced })).settle
    u.cmd? c.key = some d → (updWork d).run u = (.ok (), t) →
    exec (.update q) s = .next ((({ t with cores := kdel t.cores (256 + d.key) } : State).updEnd d.key).pumpDeltas)) ∧
  (∀ (s : State) (h : MsgHdr) (es : List UpdEntry),
    let u := s.takeMsg (.delta h es)
    u.deltaWaits h = false →
    (h.epoch ≤ s.epochs.epoch → exec (.delta h es) s = .next (u.ackDelta h 3 0)) ∧
    (s.epochs.epoch < h.epoch → (∃ e ∈ es, (s.table e.table).state ≠ 2 ∨ (s.table e.table).gen ≠ e.gen ∨ (s.table e.table).rowCount ≤ e.row) →
      exec (.delta h es) s = .next (u.ackDelta h 4 0)) ∧
    (s.epochs.epoch < h.epoch → (∀ e ∈ es, (s.table e.table).state = 2 ∧ (s.table e.table).gen = e.gen ∧ e.row < (s.table e.table).rowCount) →
      (∀ e rest holder, es = e :: rest → u.deltaPlace e h.epoch = .error holder → u.deltaStray e = false →
        exec (.delta h es) s = .next (u.ackDelta h 2 holder)) ∧
      ((∀ e ∈ es, u.deltaPlace e h.epoch = .ok none) → s.epochs.migrations = [] →
        let g := (s.epochs.stage h.epoch).add es
        let held := (s.epochs.holds.filter (fun d => d.hdr.epoch = h.epoch)).flatMap (·.entries)
        (s.epochs.stageFits ((s.epochs.stage h.epoch).add (held ++ es)) = false → exec (.delta h es) s = .next (u.ackDelta h 1 0)) ∧
        (s.epochs.stageFits ((s.epochs.stage h.epoch).add (held ++ es)) = true → ∃ t : State, exec (.delta h es) s = .next (t.ackDelta h 0 0) ∧ t.epochs.stage h.epoch = g ∧ t.mem = s.mem ∧
          t.tables = s.tables ∧ t.epochs.epoch = s.epochs.epoch ∧ t.epochs.sent = s.epochs.sent)))) ∧
  (∀ (s : State) (h : MsgHdr) (o : OutSlot) (astatus holder : Nat),
    let u := s.takeMsg (.deltaAck h astatus holder)
    let k := h.srcCluster % 16
    h.forward = false → u.answered? h 4 = some o →
    exec (.deltaAck h astatus holder) s = .next ((u.freeOut k h.tagSlot).deltaAnswer
      (s.epochs.sent.filter (fun e => e.unit = k && e.tag = some (h.tagSlot * 128 + h.tagSeq))) astatus holder).pumpDeltas) ∧
  (∀ s : State, exec .stageFullResend s = .next (State.pumpDeltas (s.updEp (fun p => { p with
    sent := p.sent.map (fun e => if e.fullAt.any (fun t => t + 100 ≤ s.refCount) then { e with fullAt := none } else e) }))))

/-- R196: a (source part, sequence) pair is staged once: entries that arrive a second time change nothing. -/
def Obligations.StagedOnce : Prop :=
  ∀ (g : Staging) (es : List UpdEntry),
    (g.add es).add es = g.add es ∧ (g.add es).epoch = g.epoch ∧ (∀ e ∈ g.entries, e ∈ (g.add es).entries) ∧
    (∀ e ∈ es, (g.add es).knows e = true) ∧ (g.add es).entries.length ≤ g.entries.length + es.length

/-- R194, R195: an UPDATE accepts exactly the row ids below ROW_COUNT, each with the next sequence value, for the open epoch and the
bucket's owner; a row id beyond it is skipped and marks the command. -/
def Obligations.UpdateAcceptance : Prop :=
  ∀ (s : State) (c : Cmd) (d : List Byte) (ids : List Nat) (vals : List Byte),
    let t := s.table (fieldAt d 2 2)
    let u := s.updAccept c d ids vals
    let good := ids.filter (· < t.rowCount)
    ∃ new, u.epochs.sent = s.epochs.sent ++ new ∧ new.map (·.entry.row) = good ∧
      (∀ e ∈ new, e.epoch = s.epochs.openEpoch ∧ e.entry.table = fieldAt d 2 2 ∧ e.cmd = c.key ∧
        e.owner = shOwner (s.shard (fieldAt d 2 2) (bucketOf e.entry.row)) ∧ e.tag = none) ∧
      (s.epochs.srcSeq < 2 ^ 48 → u.epochs.srcSeq = (s.epochs.srcSeq + good.length) % 2 ^ 48) ∧ u.mem = s.mem ∧ u.tables = s.tables

/-- R186 to R192, R213, R218, R219: EPOCH_FENCE at the leader opens the fence of the next epoch and asks every member to close; each member's
FENCE_CLOSED is collected with its changes, each FENCE_APPLIED with its counts, and the fence moves on when all have answered; a request
that has waited for LIMIT is answered with TIMEOUT; EPOCH_CONFIG and EPOCH_QUERY set and report.
R188 to R190, R127, R128, R196: FENCE_CLOSE begins CLOSING, it ends when deltas are staged and old steps done, or when the grace time has
passed, FENCE_APPLY applies, and the end of the apply advances the local epoch in every slice. -/
def Obligations.Fences : Prop :=
  (∀ (s : State) (f : FnId) (slot : Fin 28),
     let r := s.req f slot
     let n := r.u 0 5
     (s.posted f slot 0x0506 → f.val = 0 → s.epochs.leader = s.pool.partId → s.epochs.fence = none → n = s.epochs.epoch + 1 →
       n < 2 ^ 40 - 1 → (s.fn f).running < 64 →
       exec (.epochFence f slot) s = s.accepted f slot 0x0506 (fun t id => State.fencePhase
         (t.updEp (fun p => { p with fence := some { epoch := n, phase := 1, phaseStart := s.refCount, ops := [(f.val, id, s.refCount)] } }))
         (.fenceClose n s.pool.partId))) ∧
     (s.posted f slot 0x0507 → exec (.epochQuery f slot) s = s.answers s f slot stOk (leBytes 5 s.epochs.epoch ++ leBytes 1 s.epochs.phase ++
       leBytes 2 s.epochs.leader ++ leBytes 4 (s.epochs.staging.map (fun g => (rowsOf g.entries).length)).sum ++ leBytes 4 s.epochs.deferred)) ∧
     (s.posted f slot 0x0508 → f.val = 0 → r.u 0 2 < poolSize s.pool → r.u 4 4 ≤ 1000000 → 16 ≤ r.u 8 1 → r.u 8 1 ≤ 24 → 32 ≤ r.u 12 4 →
       r.u 12 4 ≤ 8192 → r.u 12 4 % 32 = 0 → 1 ≤ r.u 16 4 → r.u 16 4 ≤ 60000 →
       exec (.epochConfig f slot) s = s.answers (s.updEp (fun p => { p with
         leader := r.u 0 2, graceUs := r.u 4 4, limitMs := r.u 16 4, nextRows := r.u 8 1, nextMib := r.u 12 4 })) f slot stOk []) ∧
     (∀ (x : Fence) (src : Nat) (cs : List ShardChange), s.epochs.fence = some x → x.phase = 1 → src ∉ x.closed →
       let u := s.takeFence (.fenceClosed x.epoch src cs) x.epoch
       let v := if s.tooFar x.epoch then u.logEvent 8 else u
       exec (.fenceClosed x.epoch src cs) s = .next (State.fenceAdvance
         ((v.ctrlDone src (fun m => match m with | .fenceClose n _ => n = x.epoch | _ => false)).updFence
           (fun f => { f with closed := f.closed ++ [src], changes := kput f.changes src cs })))) ∧
     (∀ (x : Fence) (src : Nat) (st : FenceStats), s.epochs.fence = some x → x.phase = 2 → src ∉ x.applied →
       let u := s.takeFence (.fenceApplied x.epoch src st) x.epoch
       let v := if s.tooFar x.epoch then u.logEvent 8 else u
       exec (.fenceApplied x.epoch src st) s = .next (State.fenceAdvance
         ((v.ctrlDone src (fun m => match m with | .fenceApply n _ _ => n = x.epoch | _ => false)).updFence
           (fun f => { f with applied := f.applied ++ [src], stats := f.stats.add st })))) ∧
     (∀ x : Fence, s.epochs.fence = some x →
       let old := fun (o : Nat × Nat × Nat) => decide (o.2.2 + 1000 * s.epochs.limitMs * 100 ≤ s.refCount)
       exec .fenceLimitExpiry s = .next ((x.ops.filter old).foldl (fun t o => t.opEnd (some (o.1, o.2.1)) stTimeout x.response)
         (s.updFence (fun f => { f with ops := f.ops.filter (fun o => !old o) })))) ∧
     (∀ x : Fence, s.epochs.fence = some x →
       (x.phase = 1 → (∀ m ∈ s.memberList, m ∈ x.closed) → s.fenceAdvance.epochs.fence = some { x with phase := 2, phaseStart := s.refCount }) ∧
       (x.phase = 1 → (∃ m ∈ s.memberList, m ∉ x.closed) → s.fenceAdvance = s) ∧
       (x.phase = 2 → (∃ m ∈ s.memberList, m ∉ x.applied) → s.fenceAdvance = s) ∧
       (x.phase = 2 → (∀ m ∈ s.memberList, m ∈ x.applied) → s.pool.leaveAsked = [] → s.fenceAdvance.epochs.fence = none))) ∧
  (∀ s : State,
     (∀ src : Nat, s.epochs.phase = 0 → (∀ e ∈ s.epochs.sent, e.tag ≠ none ∨ e.fullAt ≠ none) →
       ∃ t, exec (.fenceClose (s.epochs.epoch + 1) src) s = .next t ∧ t.epochs.phase = 1 ∧ t.epochs.closeAt = s.refCount ∧
         t.epochs.fenceSrc = src ∧ t.epochs.epoch = s.epochs.epoch ∧ t.epochs.openEpoch = s.epochs.epoch + 2 ∧ t.mem = s.mem ∧
         t.tables = s.tables ∧ ∀ e ∈ t.epochs.sent, e.fullAt ≠ none → e.epoch ≠ s.epochs.epoch + 1) ∧
     ((∀ e ∈ s.epochs.sent, e.tag ≠ none ∨ e.fullAt ≠ none) → s.epochs.phase = 1 → s.deltasStaged = true →
       (s.oldStepsDone = true → exec .closeConditionMet s = .next s.closeFence) ∧
       (s.epochs.closeAt + s.epochs.graceUs * 100 ≤ s.refCount → exec .graceExpiry s = .next s.closeFence)) ∧
     (∀ (src : Nat) (cs : List ShardChange), s.epochs.phase = 2 →
       let n := s.epochs.epoch + 1
       let u := (s.takeFence (.fenceApply n src cs) n).updEp (fun p => { p with phase := 3, fenceSrc := src, applying := cs, counts := {} })
       let v := ((List.range 16).foldl (fun t k => t.updSlice k (fun x => { x with applying := true })) u).applyDeltas n
       exec (.fenceApply n src cs) s = .next (v.switchBlocks n (fun a b => v.cutsAway a b none)) ∧ v.epochs.phase = 3 ∧
         v.epochs.epoch = s.epochs.epoch ∧ v.epochs.applying = cs) ∧
     (∀ src : Nat, ∀ cs : List ShardChange, ∀ n, n ≤ s.epochs.epoch →
       exec (.fenceApply n src cs) s = .next (((s.takeFence (.fenceApply n src cs) n).updEp (fun p => { p with fenceSrc := src })).poolSend src
         (.fenceApplied n s.pool.partId s.epochs.last))) ∧
     (let e := s.epochs
      e.phase = 3 → e.migrations = [] → e.passes = [] → e.copies = [] → e.snaps = [] → e.overflow = [] → e.applying = [] → e.sent = [] →
       (∀ h ∈ e.held, h.gone = 0) → e.nextRows = e.stageRows → (∀ k, k < 16 → (s.exch k).serving = []) →
       ∃ t, exec .fenceApplyDone s = .next t ∧ t.epochs.epoch = e.epoch + 1 ∧ t.epochs.phase = 0 ∧ t.mem = s.mem ∧
         (∀ k, k < 16 → (t.slice k).epoch = e.epoch + 1 ∧ (t.slice k).applying = false) ∧
         (∀ g ∈ t.epochs.staging, g.epoch ≠ e.epoch + 1) ∧ (∀ g ∈ e.staging, g.epoch ≠ e.epoch + 1 → g ∈ t.epochs.staging)))

/-- R209, R213, R214, R219: BUCKET_MIGRATE announces, ROW_MIGRATE writes the directory entry and begins to copy, or leaves the entry as it
is where the row has moved already (R558), MIGRATE_CANCEL withdraws, and MIGRATE_QUERY reports; T stores a copied row or keeps a logged
delta and acknowledges, asking once more for a copy that fails its check; A counts acknowledgements, and is READY, with the cut-over to be
reported, once nothing is outstanding. Whether T has room for a migration is open (log entry 8). -/
def Obligations.Migrations : Prop :=
  (∀ (s : State) (f : FnId) (slot : Fin 28), f.val = 0 →
    let r := s.req f slot
    let id := r.u 0 2
    (s.table id).state = 2 →
    (let m : Migration := { table := id, isRow := false, bucket := r.u 2 2, row := 0, target := r.u 4 2, state := 1 }
     let u : State := { s with freeCtr := s.freeCtr + 1 }
     s.posted f slot 0x0509 → r.u 2 2 < 4096 → s.migConflict id (r.u 2 2) (r.u 4 2) false 0 = false → Config.targetRoom s.freeCtr = true →
      exec (.bucketMigrate f slot) s = s.answers (State.report (u.updEp (fun p => { p with
        migrations := p.migrations.filter (fun x => !x.isFor id false (r.u 2 2) 0) ++ [m] })) (m.change s.pool.partId 1)) f slot stOk []) ∧
    (∀ t : State, let row := r.u 8 8
     let m : Migration := { table := id, isRow := true, bucket := bucketOf row, row := row, target := r.u 2 2, state := 2 }
     let u : State := { t with freeCtr := t.freeCtr + 1 }
     s.posted f slot 0x050A → r.u 4 1 < 2 → row < (s.table id).rowCount → s.migConflict id (bucketOf row) (r.u 2 2) true row = false → s.cancelling m = false →
      rmMoved (s.rowEntry id row) = false → s.addDir ⟨0, r.u 2 2, decide (r.u 4 1 = 1), id, row⟩ = some t → Config.targetRoom t.freeCtr = true →
      exec (.rowMigrate f slot) s = s.answers (State.beginCopy (u.updEp (fun p => { p with
        migrations := p.migrations.filter (fun x => !x.isFor id true (bucketOf row) row) ++ [m] })) m) f slot stOk []) ∧
    (∀ d : DirEntry, let row := r.u 8 8
     let m : Migration := { table := id, isRow := true, bucket := bucketOf row, row := row, target := r.u 2 2, state := 2,
                            via := some d.holder, forward := decide (r.u 4 1 = 1), askFrom := s.epochs.epoch + 2 }
     s.posted f slot 0x050A → r.u 4 1 < 2 → row < (s.table id).rowCount → s.migConflict id (bucketOf row) (r.u 2 2) true row = false → s.cancelling m = false →
      rmMoved (s.rowEntry id row) = true → s.dirEntry id row = some d → d.holder ≠ r.u 2 2 → Config.targetRoom s.freeCtr = true →
      exec (.rowMigrate f slot) s = s.answers (State.updEp { s with freeCtr := s.freeCtr + 1 } (fun p => { p with
        migrations := p.migrations.filter (fun x => !x.isFor id true (bucketOf row) row) ++ [m] })) f slot stOk []) ∧
    (s.posted f slot 0x050B → s.migReqBad r = false →
      (s.reqMig r = none → exec (.migrateQuery f slot) s = s.answers s f slot stOk (leBytes 24 0)) ∧
      (∀ m, s.reqMig r = some m → exec (.migrateQuery f slot) s =
        s.answers s f slot stOk (leBytes 1 (if m.isRow then max 2 m.state else m.state) ++ leBytes 7 0 ++ leBytes 5 m.cut ++ leBytes 3 0 ++ leBytes 8 m.copied))) ∧
    (∀ m, s.posted f slot 0x050C → s.migReqBad r = false → s.reqMig r = some m → (m.state = 2 ∨ m.state = 3) →
      s.cutSent m = false → s.epochs.logs = [] → m.isRow = false →
      ∃ t, exec (.migrateCancel f slot) s = s.answers t f slot stOk [] ∧ m.change s.pool.partId 3 ∈ t.epochs.changes ∧
        (∀ x ∈ t.epochs.migrations, x.isFor m.table m.isRow m.bucket m.row = false) ∧ t.mem = s.mem ∧ t.tables = s.tables)) ∧
  (∀ (s : State) (h : MsgHdr) (table bucket row : Nat) (reply : ReplyEntry) (c : CopyIn) (e : UpdEntry),
    (∀ t, let u := s.takeMsg (.migrateCopy h table bucket false row reply false)
      let good := !reply.badMeta && (s.table table).tagOk table row reply.tier reply.slot
      u.earlyChange table false bucket row h.epoch = none → u.copy? table false bucket row = some c → row ∉ c.rows → reply.estatus ≠ 2 →
      (reply.poison = false → good = false → row ∉ c.asked →
        exec (.migrateCopy h table bucket false row reply false) s = .next (State.poolSend
          ((u.rasCount 0x220 1).updCopy table false bucket row (fun c => { c with asked := c.asked ++ [row] })) h.srcPart
          (.migrateAck h table bucket false row false true))) ∧
      ((reply.poison = true ∨ good = true) → u.storeCopy table false row reply = some t →
      exec (.migrateCopy h table bucket false row reply false) s = .next (State.poolSend
        ((t.updCopy table false bucket row (fun c => { c with rows := c.rows ++ [row] })).catchUp table false bucket row h.epoch)
        h.srcPart (.migrateAck h table bucket false row false)))) ∧
    (let u := s.takeMsg (.migrateLog h table bucket false row e)
     let before := (c.log.filter (fun l => l.1 = h.epoch)).map (·.2)
     u.earlyChange table false bucket row h.epoch = none → u.copy? table false bucket row = some c → (∀ l ∈ c.log, l.1 = h.epoch → l.2.srcPart = e.srcPart → l.2.srcSeq ≠ e.srcSeq) →
      exec (.migrateLog h table bucket false row e) s = .next (State.poolSend
        ((u.updCopy table false bucket row (fun c => { c with log := c.log ++ [(h.epoch, e)] })).chargeStaging h.epoch (entryBytes before)
          (64 * e.units)) h.srcPart (.migrateAck h table bucket false row true)))) ∧
  (∀ (s : State) (h : MsgHdr) (m : Migration) (row : Nat),
    let u := s.takeMsg (.migrateAck h m.table m.bucket m.isRow row false)
    s.epochs.migrations.find? (fun x => x.table = m.table && x.isRow = m.isRow && x.bucket = m.bucket && x.out.contains (row, h.num)) = some m →
    exec (.migrateAck h m.table m.bucket m.isRow row false) s = .next (State.pumpMigs (u.updMig m (fun m => { m with
      out := m.out.erase (row, h.num), copied := if row = endMark then m.copied else m.copied + 1 }))) ∧
    (let v := s.takeMsg (.migrateAck h m.table m.bucket m.isRow row false true)
     exec (.migrateAck h m.table m.bucket m.isRow row false true) s = .next (v.copyAgain m row h.num))) ∧
  (∀ (s : State) (m : Migration), s.pumpMigs = s → m.isRow = false → s.mig? m.table false m.bucket 0 = some m → m.state = 2 → m.ended = true →
    m.out = [] → (∀ l ∈ s.epochs.logs, l.table ≠ m.table ∨ l.bucket ≠ m.bucket ∨ l.isRow = true) →
    exec (.migrationReady m.table false m.bucket) s =
      .next ((s.updMig m (fun m => { m with state := 3 })).report (m.change s.pool.partId 2)))

/-- R207, R208, R215 to R219: RETIER_PASS is accepted for a serving table and takes its first block, RETIER_QUERY reports, RETIER_CANCEL rolls
the block in hand back, and a block whose rows are all prepared is PREPARED; SKEW_WATCH starts or ends a watch, and SKEW_QUERY writes the
counts, and clears them where asked. The status of a cancelled pass's own answer is open (log entry 6). -/
def Obligations.RetieringAndSkew : Prop :=
  ∀ (s : State) (f : FnId) (slot : Fin 28), f.val = 0 →
    let r := s.req f slot
    (s.posted f slot 0x050F → r.u 4 2 < 4096 → r.u 2 2 ≤ r.u 4 2 → r.u 8 8 < 2 ^ 52 → (s.table (r.u 0 2)).state = 2 →
      (∀ p ∈ s.epochs.passes, p.table ≠ r.u 0 2) → (s.fn f).running < 64 →
      exec (.retierPass f slot) s = s.accepted f slot 0x050F (fun t id => State.nextBlock 4097 (t.updEp (fun q => { q with
        passes := q.passes ++ [{ passId := id, fn := f, table := r.u 0 2, first := r.u 2 2, last := r.u 4 2, map := r.u 8 8,
                                 bucket := r.u 2 2 }] })) id)) ∧
    (∀ p, s.pass? (r.u 0 4) = some p →
      (s.posted f slot 0x0510 → exec (.retierQuery f slot) s =
        s.answers s f slot stOk (leBytes 2 p.state ++ leBytes 2 p.bucket ++ leBytes 4 p.block ++ leBytes 8 p.retiered)) ∧
      (s.posted f slot 0x0511 → (s.rollBack p).freeCtr = s.freeCtr ∧ exec (.retierCancel f slot) s =
        s.answers (State.endPass { s.rollBack p with freeCtr := s.freeCtr + 1 } p (openStatus (Config.freeValue 1 s.freeCtr))) f slot stOk [])) ∧
    (∀ (id : BitVec 32) (p : RetierPass), s.pass? id.toNat = some p → p.state = 1 →
      exec (.retierBlockPrepared id) s = .next (State.updPass
        (p.targets.foldl (fun t x => t.prepareRow id.toNat p.table (rowOf p.bucket x.1) x.1 x.2) s) id.toNat (fun p => { p with state := 2 }))) ∧
    (s.posted f slot 0x050D → r.u 2 1 < 16 → (s.table (r.u 0 2)).state = 2 →
      (r.u 3 1 = 1 → exec (.skewWatch f slot) s = s.answers (s.updEp (fun p => { p with
        watches := kput p.watches (r.u 2 1) { table := r.u 0 2, cleared := s.refCount } })) f slot stOk []) ∧
      (r.u 3 1 = 0 → exec (.skewWatch f slot) s = s.answers (s.updEp (fun p => { p with watches := kdel p.watches (r.u 2 1) })) f slot stOk [])) ∧
    (∀ (w : Watch) (t : State),
      let bs := (List.range 4096).flatMap (fun b => let c := kget {} w.counts b; leBytes 4 c.lookups ++ leBytes 4 c.deltas) ++ hotBytes s.epochs.hot
      s.posted f slot 0x050E → r.u 0 1 < 16 → r.u 1 1 = 0 → r.u 8 8 < 2 ^ 52 → kfind s.epochs.watches (r.u 0 1) = some w →
      (writeCp (cpWho f) (f, slot) (r.u 8 8) bs).run s = (.ok (), t) →
      exec (.skewQuery f slot) s = .next (t.cpDone.respond (s.req f slot) stOk (leBytes 8 (t.refCount - w.cleared)) false))

/-! ### Membership and the fabric -/

/-- R291, R307, R309 to R313, R191: FABRIC_CONFIG takes the shape and ids and starts ports that face a neighbour; POOL_JOIN asks the leader,
every 100 µs until it is answered; the leader denies a request that does not match, grants one that does, and repeats its grant (R549); a
grant gives the epoch and the map; MEMBER_UP and MEMBER_DOWN change the map; a member that does not answer a fence phase within 10 ms is
declared departed; POOL_QUERY reports. A part that leaves asks the leader with MEMBER_DOWN of itself (log entry 11). -/
def Obligations.Membership : Prop :=
  ∀ (s : State) (f : FnId) (slot : Fin 28),
    let r := s.req f slot
    (f.val = 0 → s.posted f slot 0x0606 → 1 ≤ r.u 0 1 → r.u 0 1 ≤ 8 → 1 ≤ r.u 1 1 → r.u 1 1 ≤ 8 → 1 ≤ r.u 2 1 → r.u 2 1 ≤ 16 → r.u 3 1 < 8 →
      (bitAt (r.u 3 1) 0 = true → 3 ≤ r.u 0 1) → (bitAt (r.u 3 1) 1 = true → 3 ≤ r.u 1 1) → (bitAt (r.u 3 1) 2 = true → 3 ≤ r.u 2 1) →
      r.u 4 2 < r.u 0 1 * r.u 1 1 * r.u 2 1 → popCount 1024 s.pool.members < 2 →
      ∃ t, exec (.fabricConfig f slot) s = s.answers t f slot stOk [] ∧ t.pool.configured = true ∧ t.pool.dx = r.u 0 1 ∧ t.pool.dy = r.u 1 1 ∧
        t.pool.dz = r.u 2 1 ∧ t.pool.rings = r.u 3 1 ∧ t.pool.partId = r.u 4 2 ∧ t.pool.poolId = r.u 8 4 ∧ t.mem = s.mem ∧
        ∀ q, q < 6 → (t.port q).state = if t.cabled q && decide ((s.port q).state = 0) then 1 else (s.port q).state) ∧
    (f.val = 0 → s.posted f slot 0x060C → r.u 0 2 < poolSize s.pool → s.pool.join = none → (s.fn f).running < 64 →
      exec (.poolJoin f slot) s = s.accepted f slot 0x060C (fun t id => State.sendJoin (State.updEp
        { t with pool := { t.pool with join := some (f.val, id), joinLeader := r.u 0 2 } } (fun p => { p with leader := r.u 0 2 })))) ∧
    (s.pool.join.isSome = true → s.pool.joinAt + 10000 ≤ s.refCount → exec .joinReqResend s = .next s.sendJoin) ∧
    (f.val = 0 → s.posted f slot 0x060D → (r.u 0 1 = 1 ∨ r.u 0 1 = 0 ∧ s.ownsRows = false) → s.pool.join = none →
      (s.epochs.leader ≠ s.pool.partId → exec (.poolLeave f slot) s = s.answers
        (if s.member s.epochs.leader then s.ctrlSend s.epochs.leader (.memberDown s.pool.partId) else s) f slot stOk []) ∧
      (s.epochs.leader = s.pool.partId → s.epochs.fence = none →
        exec (.poolLeave f slot) s = s.answers (s.expel s.pool.partId) f slot stOk []) ∧
      (∀ x, s.epochs.leader = s.pool.partId → s.epochs.fence = some x → exec (.poolLeave f slot) s = s.answers
        { s with pool := { s.pool with leaveAsked := s.pool.leaveAsked.filter (· ≠ s.pool.partId) ++ [s.pool.partId] } } f slot stOk [])) ∧
    (s.posted f slot 0x060E → exec (.poolQuery f slot) s = s.answers s f slot stOk (leBytes 4 s.pool.poolId ++ leBytes 2 s.pool.partId ++
      leBytes 2 s.epochs.leader ++ leBytes 1 s.pool.dx ++ leBytes 1 s.pool.dy ++ leBytes 1 s.pool.dz ++ leBytes 1 s.pool.rings ++
      leBytes 4 0 ++ leBytes 128 s.pool.members)) ∧
    (∀ (id dx dy dz rings : Nat) (m : Fin 1024), s.epochs.leader = s.pool.partId →
      let u := s.takeMsg (.joinReq id dx dy dz rings m)
      (id ≠ s.pool.poolId → exec (.joinReq id dx dy dz m rings) s = .next (u.sendMsg m 0 (.joinDeny m 1))) ∧
      (id = s.pool.poolId → (dx ≠ s.pool.dx ∨ dy ≠ s.pool.dy ∨ dz ≠ s.pool.dz ∨ rings ≠ s.pool.rings) →
        exec (.joinReq id dx dy dz m rings) s = .next (u.sendMsg m 0 (.joinDeny m 2))) ∧
      (id = s.pool.poolId → dx = s.pool.dx → dy = s.pool.dy → dz = s.pool.dz → rings = s.pool.rings → s.member m = true →
        (kfind s.pool.grants m = none → exec (.joinReq id dx dy dz m rings) s = .next (u.sendMsg m 0 (.joinDeny m 3))) ∧
        (∀ epoch map, kfind s.pool.grants m = some (epoch, map) →
          exec (.joinReq id dx dy dz m rings) s = .next (u.sendMsg m 0 (.joinGrant epoch map)))) ∧
      (id = s.pool.poolId → dx = s.pool.dx → dy = s.pool.dy → dz = s.pool.dz → rings = s.pool.rings → s.member m = false → s.epochs.fence = none →
        (∀ l ∈ s.pool.leftIds, l.1 = m.val → l.2 ≤ s.epochs.epoch) →
        let g := kput s.pool.grants m (s.epochs.epoch, s.pool.members + 2 ^ m.val)
        let v : State := { u with pool := { u.pool with
          members := s.pool.members + 2 ^ m.val, grants := g, leftIds := s.pool.leftIds.filter (fun l => l.1 ≠ m.val) } }
        exec (.joinReq id dx dy dz m rings) s =
          .next ((v.sendMsg m 0 (.joinGrant s.epochs.epoch (s.pool.members + 2 ^ m.val))).broadcast (.memberUp m) false))) ∧
    (∀ (epoch members : Nat) (op : Nat × Nat), s.pool.join = some op →
      ∃ t, exec (.joinGrant epoch members) s = .next t ∧ t.epochs.epoch = epoch ∧ t.epochs.phase = 0 ∧ t.pool.members = members ∧
        t.pool.joined = true ∧ t.pool.join = none ∧ (∀ k, k < 16 → (t.slice k).epoch = epoch) ∧ t.mem = s.mem ∧ t.tables = s.tables) ∧
    (∀ (m : Fin 1024) (check : Nat) (op : Nat × Nat), s.pool.join = some op → m.val = s.pool.partId →
      let u := s.takeMsg (.joinDeny m check)
      exec (.joinDeny m check) s = .next (State.opEnd { u with pool := { u.pool with join := none } } (some op) stJoinRefused [])) ∧
    (∀ m : Fin 1024, ∃ t, exec (.memberUp m) s = .next t ∧ t.member m = true ∧ (∀ n, n ≠ m.val → t.member n = s.member n) ∧ t.mem = s.mem) ∧
    (∀ m : Fin 1024, let u := s.takeMsg (.memberDown m)
      ((s.epochs.leader ≠ s.pool.partId ∨ m.val = s.pool.partId) → exec (.memberDown m) s = .next (u.fenceDrop m)) ∧
      (s.epochs.leader = s.pool.partId → m.val ≠ s.pool.partId → s.member m = true → exec (.memberDown m) s = .next (u.leaveBetween m)) ∧
      (m.val ≠ s.pool.partId → (s.removeMember m).member m = false ∧ (m.val, s.nextClose) ∈ (s.removeMember m).pool.leftIds)) ∧
    (∀ (m : Fin 1024) (x : Fence), s.epochs.fence = some x → m.val ≠ s.pool.partId → s.member m = true →
      m.val ∉ (if x.phase = 1 then x.closed else x.applied) → x.phaseStart + 1000000 ≤ s.refCount →
      exec (.departureTimeout m) s = .next (s.declareDeparted m))

/-- R292, R304 to R306, R312, R313: a port goes from TRAINING through EQUALISING to IDENTIFY and, where the identity block matches, to
ACTIVE with full credits and sequence 0; it is fenced where the block does not match or training takes 20 ms; a lost lane or a limit on
corrected symbols fences it; a planned fence drains first, for 30 µs at most; PORT_FENCE, PORT_UNFENCE and PORT_QUERY act on one port. -/
def Obligations.PortStates : Prop :=
  ∀ (s : State) (p : PortId),
    ((s.port p).state = 1 → exec (.trainLock p) s = .next (s.updPort p (fun t => { t with state := 2 }))) ∧
    ((s.port p).state = 2 → exec (.equaliseDone p) s = .next (s.updPort p (fun t => { t with state := 3, idSent := some (s.idBlock p) }))) ∧
    (((s.port p).state = 1 ∨ (s.port p).state = 2) → (s.port p).trainAt + 2000000 ≤ s.refCount →
      exec (.trainTimeout p) s = .next (s.portFenced p 4 stLinkFenced)) ∧
    (∀ (part : Nat) (full : Bool) (fab : Image), (s.port p).state = 3 →
      let o := s.pool
      let v := s.dropLeft p
      (neighbour o o.partId (p.val / 2) (p.val % 2 = 0) = some part → (s.port p).fenceOps = [] → (s.port p).upOps = [] →
        (v.pool.partId, p.val) ∉ v.pool.fenced → v.service.retrain = [] → v.service.rollouts = [] →
        exec (.identityBlock p o.poolId part (oppositePort p) o.dx o.dy o.dz o.rings full fab) s =
          .next (v.updPort p (fun t => { t.activate (full && v.fullService) with peerFab := fab }))) ∧
      (∀ id port dx dy dz rings, (id ≠ o.poolId ∨ dx ≠ o.dx ∨ dy ≠ o.dy ∨ dz ≠ o.dz ∨ rings ≠ o.rings ∨ port ≠ oppositePort p ∨
          neighbour o o.partId (p.val / 2) (p.val % 2 = 0) ≠ some part) →
        exec (.identityBlock p id part port dx dy dz rings full fab) s = .next (s.portFenced p 5 stMiscabled))) ∧
    (s.portUp p = true → exec (.laneLost p) s = .next (s.fencePort p 1)) ∧
    (let u := s.updPort p (fun t => t.ceRoll s.refCount s.pool.ceLimit)
     s.portUp p = true → s.pool.ceLimit ≠ 0 → 10 ≤ (u.port p).ceOver → exec (.degraded p) s = .next (u.fencePort p 6)) ∧
    ((s.port p).state = 5 → (s.port p).queue = [] → (s.port p).cur = [] → (s.port p).retry = [] → (s.port p).stompDue = [] →
      exec (.portDrainComplete p) s = .next ((s.stompRx p none).portFenced p 7 stOk)) ∧
    ((s.port p).state = 5 → (s.port p).drainAt + 3000 ≤ s.refCount → exec (.portDrainTimeout p) s = .next (s.fencePort p 7)) ∧
    ((s.port p).awaitDown = true → (s.port p).fencedAt + 2000 ≤ s.refCount → exec (.linkDownTimeout p) s = .next (s.dropLeft p)) ∧
    (∀ cause status, s.service.retrain = [] → s.service.rollouts = [] →
      let t := s.portFenced p cause status
      (t.port p).cause = cause ∧ (t.port p).fences = satAdd 16 (s.port p).fences 1 ∧ (t.port p).fenceOps = [] ∧
        t.mem = s.mem ∧ (∀ q, q ≠ p.val → t.port q = s.port q) ∧ t.ras.events.length = s.ras.events.length + 1 ∧
        ((s.port p).runs = false ∨ (s.port p).upOps = [] → (t.port p).state = 6 ∧ (t.port p).upOps = []) ∧
        ((s.port p).runs = true → (s.port p).upOps ≠ [] → (t.port p).state = 1 ∧ (t.port p).upOps = (s.port p).upOps)) ∧
    (∀ (f : FnId) (slot : Fin 28),
      let r := s.req f slot
      let q := r.u 0 1
      q < 6 →
      (s.posted f slot 0x0607 → exec (.portQuery f slot) s = s.answers s f slot stOk (leBytes 1 (s.port q).state ++ leBytes 1 (s.port q).cause ++
        leBytes 1 (b2n (s.port q).full) ++ leBytes 5 0 ++ leBytes 8 (kget 0 (s.port q).counters 0x18) ++
        leBytes 8 (kget 0 (s.port q).counters 0x20))) ∧
      (f.val = 0 → s.posted f slot 0x0608 → (s.fn f).running < 64 →
        let wait := fun (t : State) (id : Nat) => t.updPort q (fun p => { p with fenceOps := p.fenceOps ++ [(f.val, id)] })
        ((s.port q).state = 4 → exec (.portFence f slot) s = s.accepted f slot 0x0608 (fun t id => (wait t id).planFence q)) ∧
        ((s.port q).state = 5 → exec (.portFence f slot) s = s.accepted f slot 0x0608 wait) ∧
        ((s.port q).state ≠ 4 → (s.port q).state ≠ 5 →
          exec (.portFence f slot) s = s.accepted f slot 0x0608 (fun t id => t.opEnd (some (f.val, id)) stOk []))) ∧
      (f.val = 0 → s.posted f slot 0x0609 → s.cabled q = true → (s.fn f).running < 64 →
        let wait := fun (t : State) (id : Nat) => t.updPort q (fun p => { p with upOps := p.upOps ++ [(f.val, id)] })
        ((s.port q).state = 4 → exec (.portUnfence f slot) s = s.accepted f slot 0x0609 (fun t id => t.opEnd (some (f.val, id)) stOk [])) ∧
        (((s.port q).state = 6 ∨ (s.port q).state = 0) →
          exec (.portUnfence f slot) s = s.accepted f slot 0x0609 (fun t id => (wait t id).train q)) ∧
        ((s.port q).state ≠ 4 → (s.port q).state ≠ 6 → (s.port q).state ≠ 0 →
          exec (.portUnfence f slot) s = s.accepted f slot 0x0609 wait)))

/-- R161, R162, R294, R295, R298, R300, R304, R305, R307, R311: a flit that cannot be corrected or is out of sequence is discarded and asked
for again, the eighth in a row fences the port; the expected flit is taken with its acknowledgement and credits; a complete packet for this
part is delivered, and one for another part goes on where the next output has room; a LINK_DOWN or LINK_UP notice changes the routes; a
write that was perhaps performed and whose packet was dropped fails its command; unanswered control requests go out again. A message header
and a lookup entry are read back from their bytes. -/
def Obligations.FlitsAndPackets : Prop :=
  (∀ (s : State) (p : PortId) (fl : Flit), s.portUp p = true →
    let v := (s.decodeFlit fl).1
    let bad := (s.decodeFlit fl).2
    let t := v.port p
    let next := (t.rxSeq + 1) % 1024
    let u := v.updPort p (fun t =>
      let t := t.ceRoll v.refCount v.pool.ceLimit
      { t with counters := bump t.counters 0x18 fl.corrected, ceCount := t.ceCount + fl.corrected })
    ((bad = true ∨ fl.type = 3 ∨ fl.seq ≠ next) → t.discards < 7 → t.discardAt.length < 4096 →
      exec (.flitReceive p fl) s = .next (u.updPort p (fun x => Port.send { x with
        nakDue := true, discards := if fl.seq = next then t.discards + 1 else t.discards,
        discardAt := v.refCount :: t.discardAt.filter (fun d => v.refCount ≤ d + 100000), counters := bump x.counters 0x20 1 }))) ∧
    ((bad = true ∨ fl.type = 3) → fl.seq = next → 7 ≤ t.discards → ∃ w : State, exec (.flitReceive p fl) s = .next (w.fencePort p 2) ∧
      (w.port p).discards = t.discards + 1 ∧ (∀ q, q ≠ p.val → w.port q = s.port q)) ∧
    (bad = false → fl.type < 3 → fl.seq = next → fl.nak = false → fl.stomp = false → t.queue = [] → t.cur = [] →
      ∃ w, exec (.flitReceive p fl) s = .next w ∧ (w.port p).rxSeq = (if fl.type = 1 then fl.seq else t.rxSeq) ∧
        (w.port p).ackTold = (w.port p).rxSeq ∧ (w.port p).nakDue = false ∧ (w.port p).discards = 0 ∧
        kget 0 (w.port p).credits fl.creditVc = min 1024 (kget 0 t.credits fl.creditVc + fl.credits) ∧ w.mem = s.mem ∧
        (w.port p).txAcked = (t.acked fl.ack).txAcked ∧ (fl.packet.isSome = true → ∀ q, q ≠ p.val → w.port q = s.port q))) ∧
  (∀ (s : State) (p : PortId) (vc : Fin 8) (r : RxPacket) (rs : List RxPacket),
    kget [] (s.port p).rx vc.val = r :: rs → r.out = none → r.drop = false → r.packet.dest < poolSize s.pool → r.packet.hops < 64 →
    let k := r.packet
    (routeDim s.pool s.pool.partId k.dest = none → k.length ≤ r.units →
      exec (.packetForward p vc) s = .next ((s.updPort p (fun t => t.forwardHead vc.val none)).deliver k)) ∧
    (∀ d o k', routeDim s.pool s.pool.partId k.dest = some d → s.route k d (decide (d ≠ p.val / 2)) = some (o, k') →
      (s.port o).canBegin k' = true →
      let v := s.updPort p (fun t => t.forwardHead vc.val (some (o, k')))
      let w := if k'.reversed && !k.reversed then
          v.updPort (portOf d (k.dir d)) (fun t => { t with counters := bump t.counters 0x30 1 })
        else v
      exec (.packetForward p vc) s = .next (w.enqueuePort o { packet := k', avail := min r.units k.length }))) ∧
  (∀ (s : State) (m : Fin 1024) (q : PortId) (cause lastSeq : Nat),
    let rest := s.pool.fenced.filter (fun l => l ≠ (m.val, q.val))
    (s.module.powered = true → s.portAcross m q = none → s.epochs.leader ≠ s.pool.partId → ∃ t, exec (.linkDown m q cause lastSeq) s = .next t ∧
      t.pool.fenced = rest ++ [(m.val, q.val)] ∧ t.ports = s.ports ∧ t.mem = s.mem) ∧
    (∃ t, exec (.linkUp m q cause lastSeq) s = .next t ∧ t.pool.fenced = rest ∧ t.ports = s.ports ∧ t.mem = s.mem)) ∧
  (∀ (s : State) (route : BitVec 128) (kind : BitVec 8) (hdr : BitVec 120) (o : OutSlot),
    let head := dropHead route kind hdr
    let u := s.takeMsg (.dropped true head)
    let h := headHdr head
    headKind head = 0x05 → u.answered? h 2 = some o → o.core < 128 →
    exec (.dropped true route kind hdr) s = .next ((u.freeOut (h.srcCluster % 16) h.tagSlot).failCmd o.cmd o.core stLinkFenced)) ∧
  (∀ (h : MsgHdr) (kind count : Nat), h.srcPart < 1024 → h.srcCluster < 16 → h.tagSlot < 512 → h.tagSeq < 128 → h.seg < 256 → h.epoch < 2 ^ 40 →
    MsgHdr.ofBytes (h.bytes kind count) = h) ∧
  (∀ e : LookupEntry, e.table < 2 ^ 16 → e.row < 2 ^ 40 → e.gen < 2 ^ 32 → LookupEntry.ofWire e.wire = e) ∧
  (∀ s : State, exec .ctrlResend s = .next ((s.pool.ctrl.filter (fun c => decide (c.last + 10000 ≤ s.refCount))).foldl
    (fun t c => t.ctrlSend c.dest c.msg) s))

/-! ### Translation -/

/-- R450, R451, R454, R457: XLT_SET gives a context or a function context a new root and withdraws its cached translations, XLT_INVALIDATE
withdraws those of a range, each answered at once where nothing is in flight; an ATS invalidation of the host withdraws its pages; a drain
that has not ended after 30 µs is abandoned, and the context that holds it is torn down. R443 to R449, R454, R457: FAULT_RING_SET gives the
function's ring; a batch is written once it holds 256 records or is 20 µs old and there is room; FAULT_RESOLVE closes a fault, or ends its
commands; a page-request response ends its group and adds the page; PAGE_MIGRATE of a page that may move is accepted; XLT_QUERY answers;
XLT_FAULT_HEAD advances; XLT_STAT reads and clears DROPPED_NOTICES. -/
def Obligations.Translations : Prop :=
  (∀ (s : State) (f : FnId) (slot : Fin 28), f.val = 0 → s.drainOf f slot = none → s.link.pendingInv = [] →
    (∀ e ∈ s.exchanges, e.2.slots = []) → (∀ e ∈ s.cores, e.2.wqueue = []) →
    let r := s.req f slot
    let x := r.u 1 1
    let root := r.u 8 8
    (s.posted f slot 0x0401 → r.u 0 1 = 0 → (s.ctx x).phase ≠ 0 → bitAt (r.u 2 1) 0 = true → bitAt (r.u 2 1) 1 = false →
      root % 32768 = 0 → root < 2 ^ 38 →
      ∃ t, exec (.xltSet f slot) s = s.answers t f slot stOk (leBytes 4 0) ∧ kfind t.xlt.ctxRoot x = some root ∧ (t.ctx x).ptRoot = root ∧
        (∀ e ∈ t.xlt.cached, e.meets false x 0 (2 ^ 52 - 1) = false) ∧ t.xlt.fnRoot = s.xlt.fnRoot ∧ t.mem = s.mem ∧
        ∀ y, y ≠ x → t.ctx y = s.ctx y) ∧
    (s.posted f slot 0x0401 → r.u 0 1 = 1 → x ≤ 16 → bitAt (r.u 2 1) 0 = true → root % 32768 = 0 → root < 2 ^ 38 → ksorted s.xlt.fnRoot = true →
      ∃ t, exec (.xltSet f slot) s = s.answers t f slot stOk (leBytes 4 0) ∧ kget 0 t.xlt.fnRoot x = root ∧ t.xlt.ctxRoot = s.xlt.ctxRoot ∧
        (∀ e ∈ t.xlt.cached, e.meets true x 0 (2 ^ 52 - 1) = false) ∧ t.ctxs = s.ctxs ∧ t.mem = s.mem) ∧
    (s.posted f slot 0x0402 → r.u 0 1 ≤ 1 → (r.u 0 1 = 1 → x ≤ 16) → (r.u 0 1 = 0 → (s.ctx x).phase ≠ 0) → r.u 8 8 ≤ r.u 16 8 →
      r.u 16 8 < 2 ^ 52 →
      ∃ t, exec (.xltInvalidate f slot) s = s.answers t f slot stOk (leBytes 4 0) ∧ t.mem = s.mem ∧ t.ctxs = s.ctxs ∧
        (∀ e ∈ t.xlt.cached, e.meets (decide (r.u 0 1 = 1)) x (r.u 8 8) (r.u 16 8) = false) ∧
        (∀ e ∈ s.xlt.cached, e.meets (decide (r.u 0 1 = 1)) x (r.u 8 8) (r.u 16 8) = false → e ∈ t.xlt.cached))) ∧
  (∀ (s : State) (f : FnId) (pasid : Option (BitVec 20)) (va size : Nat),
    ∃ t, exec (.atsInvalidateRequest f pasid va size) s = .next t ∧ t.host.atsDone = s.host.atsDone + 1 ∧ t.mem = s.mem ∧ t.ctxs = s.ctxs ∧
      (∀ h ∈ t.host.pages, h ∈ s.host.pages ∧ ¬ (h.fn = f.val ∧ h.pasid = pasid.map BitVec.toNat ∧ h.va < va + size ∧ va < h.va + h.size))) ∧
  (∀ (s : State) (d : XDrain), s.xlt.moves = [] → s.xlt.drains = [d] → d.start + 3000 ≤ s.refCount →
    s.drained d.isFn d.ctx d.first d.last d.start = false →
    ∃ t, exec .xltDrainTimeout s = .next t ∧
      (d.isFn = false → (s.ctx d.ctx).phase ≠ 0 → (s.ctx d.ctx).phase ≠ 7 → (t.ctx d.ctx).phase = 7 ∧ (t.ctx d.ctx).tearStatus = stTranslationRevoked)) ∧
  (∀ (s : State) (f : FnId) (slot : Fin 28),
    let r := s.req f slot
    (s.posted f slot 0x0405 → (r.u 0 1 = 0 ∨ 8 ≤ r.u 0 1 ∧ r.u 0 1 ≤ 16) → r.u 8 8 % 4096 = 0 → r.u 8 8 < 2 ^ 52 →
      ∀ (t : State) (st : Nat), (if r.u 0 1 = 0 then (s, stOk) else s.namedThere f (r.u 8 8) (64 * 2 ^ r.u 0 1)) = (t, st) →
      (st = stOk → exec (.faultRingSet f slot) s = s.answers { t with xlt := { t.xlt with
        rings := kput t.xlt.rings f { log2 := r.u 0 1, addr := r.u 8 8 } } } f slot stOk []) ∧
      (st ≠ stOk → exec (.faultRingSet f slot) s = s.answers t f slot st [])) ∧
    (s.posted f slot 0x0403 → f.val = 0 → (∃ g ∈ s.xlt.faults, g.id = r.u 0 4) →
      (r.u 4 1 = 0 → exec (.faultResolve f slot) s = s.answers (s.closeFaults (fun g => g.id = r.u 0 4)) f slot stOk []) ∧
      (r.u 4 1 = 1 → exec (.faultResolve f slot) s = s.answers (s.failFault (r.u 0 4)) f slot stOk [])) ∧
    (let x := r.u 0 1
     let va := r.u 8 8
     s.posted f slot 0x0406 → s.strangeCtx f x = false → (s.ctx x).phase ≠ 0 → va < 2 ^ 52 →
      (apertureBase ≤ va → exec (.xltQuery f slot) s = s.answers s f slot stOk (leBytes 8 0 ++ leBytes 1 3 ++ leBytes 1 0 ++ leBytes 6 0 ++
        leBytes 8 (s.pool.partId * devSize + windowBacking + x * 2 ^ 20 + (va - apertureBase)))) ∧
      (∀ t e, va < apertureBase → s.walk false x va = (t, .ok e) → e.host = none →
        exec (.xltQuery f slot) s = .next (t.respond r stOk
          (leBytes 8 (s.lastEntry va 2 ((s.rootOf false x).getD 0)).1 ++ leBytes 1 (s.lastEntry va 2 ((s.rootOf false x).getD 0)).2.2 ++
            leBytes 1 0 ++ leBytes 6 0 ++ leBytes 8 (bitsOf e.entry 47 8 * 256 + (va - e.va))) false))) ∧
    (let x := r.u 0 1
     let l := s.lastEntry (r.u 8 8) 2 ((s.rootOf false x).getD 0)
     let size := 2 ^ levelShift l.2.2
     let page := r.u 8 8 / size * size
     s.posted f slot 0x0404 → f.val = 0 → s.xlt.moves = [] → r.u 1 1 = 1 → r.u 8 8 < 2 ^ 52 → r.u 4 4 = 0 → (s.ctx x).phase ≠ 0 →
      s.migratable 1 l.1 l.2.2 = true → (∀ b, s.walkFrom (r.u 8 8) 2 ((s.rootOf false x).getD 0) ≠ .poison b) →
      s.pinned x page size l.1 = false → s.moving x (r.u 8 8) = none → (s.fn f).running < 64 →
      exec (.pageMigrate f slot) s = s.accepted f slot 0x0404 (fun t op =>
        { t with xlt := { t.xlt with moves := t.xlt.moves ++ [⟨f, op, x, 1, 0, r.u 8 8, page, size, r.u 16 8, l.2.1, none⟩] } }))) ∧
  (∀ (s : State) (x : CtxId) (page : Nat) (h : HostPage) (ls : List Nat), (x.val, page) ∈ s.xlt.priGroups →
    ∃ t, exec (.priResponse x page (some h) ls) s = .next t ∧ t.xlt.priGroups = s.xlt.priGroups.erase (x.val, page) ∧
      (x.val, page) ∈ t.xlt.priFailed ∧ t.mem = s.mem ∧
      t.host.pages = { h with fn := (s.requester false x).1, pasid := (s.requester false x).2 } :: s.host.pages) ∧
  (∀ (s : State) (f : FnId) (v : BitVec 64), s.reach f = true →
    (let g := s.faultRing f
     let head := v.toNat % 2 ^ 32
     ((head + 2 ^ 32 - g.head) % 2 ^ 32 ≤ g.unread →
      exec (.xltFaultHeadWrite f v) s = .next { s with xlt := { s.xlt with rings := kput s.xlt.rings f { g with head := head } } }) ∧
     (g.unread < (head + 2 ^ 32 - g.head) % 2 ^ 32 → exec (.xltFaultHeadWrite f v) s = .next (s.logEvent 0x0B))) ∧
    (f.val = 0 → ∀ half, ∃ t, exec (.xltStatRead f half) s = .next t ∧ t.host.reads = halfOf half s.xltStat :: s.host.reads ∧
      t.xlt.dropped = (if half = 1 then s.xlt.dropped else 0) ∧ t.mem = s.mem)) ∧
  (∀ s t : State, (256 ≤ s.xlt.batch.length ∨ (s.xlt.batch ≠ [] ∧ s.xlt.batchStart + 2000 ≤ s.refCount)) →
    let rs := (s.xlt.batch.take 256).map (fun r => (r, s.faultRecBytes r))
    let u : State := { s with xlt := { s.xlt with batch := s.xlt.batch.drop 256, batchStart := s.refCount } }
    ((s.faultRing 0).log2 = 0 ∨ (s.faultRing 0).room rs.length = true) → (∀ p, p < 16 → (s.faultRing (1 + p)).log2 = 0) →
    (u.batchTo 0 rs = (t, true) → (∀ p, p < 16 → (t.faultRing (1 + p)).log2 = 0) → exec .faultBatchFlush s = .next t) ∧
    (u.batchTo 0 rs = (t, false) →
      let v := (rs.filter (fun r => decide (r.1.kind = 1))).foldl (fun t r => t.loseFault r.1.faultId) t
      (∀ p, p < 16 → (v.faultRing (1 + p)).log2 = 0) → exec .faultBatchFlush s = .next v))

/-! ### Integrity, error records and Vigil -/

/-- R485 to R491, R545: the oldest event becomes the log's next record, or is counted into the next record of its event and unit within
10 s of the last; CPER_RING_SET, CPER_READ and the ring's HEAD act on the log; RAS_QUERY and CORE_QUERY report.
R463, R466, R468, R469, R490, R491: a block that mismatched is read again, and is reported as corrected where it now passes, else
poisoned and reported; the scrubber reads a codeword; SELVAGE_SEAL of a mapped range is accepted; SELVAGE_CHECK answers the result of the
range and the address of the first block that does not pass. -/
def Obligations.ErrorRecords : Prop :=
  (∀ (s : State) (e : RasEvent) (rest : List RasEvent), s.ras.events = e :: rest → s.firmware = true →
    let key := e.event * 256 + e.unit
    let u : State := { s with ras := { s.ras with events := rest } }
    (kfind s.ras.supp key = none → exec .cperRecord s = .next (State.writeCper { u with ras := { u.ras with
      supp := kput u.ras.supp key ⟨s.refCount, 0, 0⟩ } } e 1)) ∧
    (∀ p, kfind s.ras.supp key = some p → s.refCount < p.last + 100000000 → ∃ t, exec .cperRecord s = .next t ∧ t.mem = s.mem ∧
      t.ras.events = rest ∧ (∃ q, kfind t.ras.supp key = some q ∧ q.count = p.count + 1 ∧ q.last = p.last) ∧ t.ras.nextSeq = s.ras.nextSeq) ∧
    (∀ p, kfind s.ras.supp key = some p → p.last + 100000000 ≤ s.refCount → e.event ≠ 0x0030 → exec .cperRecord s = .next
      (State.writeCper { u with ras := { u.ras with supp := kput u.ras.supp key ⟨s.refCount, 0, 0⟩ } } e (p.count + 1)))) ∧
  (∀ (s : State) (f : FnId) (slot : Fin 28), f.val = 0 →
    let r := s.req f slot
    (s.posted f slot 0x0707 → (r.u 0 1 = 0 ∨ 4 ≤ r.u 0 1 ∧ r.u 0 1 ≤ 12) → r.u 8 8 % 4096 = 0 → r.u 8 8 < 2 ^ 52 →
      exec (.cperRingSet f slot) s = s.answers { s with ras := { s.ras with
        ringLog2 := r.u 0 1, ringAddr := r.u 8 8, copied := 0, head := 0, nextCopy := s.ras.nextSeq } } f slot stOk []) ∧
    (∀ t, s.posted f slot 0x0708 → s.ras.oldest ≤ r.u 0 8 → r.u 0 8 < s.ras.nextSeq → r.u 8 8 < 2 ^ 52 →
      (writeCp (cpWho f) (f, slot) (r.u 8 8) (s.cperAt (r.u 0 8))).run s = (.ok (), t) →
      exec (.cperRead f slot) s = .next (t.cpDone.respond r stOk (leBytes 8 t.ras.oldest ++ leBytes 8 t.ras.nextSeq) false)) ∧
    (s.posted f slot 0x0701 →
      let n := fun (off : Nat) => leBytes 8 (kget 0 s.ras.counters off)
      exec (.rasQuery f slot) s = s.answers s f slot stOk (n 0x200 ++ n 0x208 ++ n 0x220 ++ n 0x228 ++ n 0x230 ++ n 0x238 ++
        leBytes 16 (bitMask ((List.range 128).filter s.fenced)))) ∧
    (s.posted f slot 0x0702 → r.u 0 1 < 128 →
      let c := r.u 0 1
      exec (.coreQuery f slot) s = s.answers s f slot stOk (leBytes 1 (s.coreState c) ++ leBytes 1 (s.rasOf c).lastClass ++
        leBytes 2 (s.recent c).length ++ leBytes 4 0 ++ leBytes 8 ((s.rasOf c).lastTest.getD 0) ++ leBytes 8 (s.dueAt c) ++
        leBytes 8 (s.rasOf c).samples ++ leBytes 8 (s.rasOf c).skipped))) ∧
  (∀ (s : State) (v : BitVec 64), s.link.up = true → (v.toNat % 2 ^ 32 + 2 ^ 32 - s.ras.head) % 2 ^ 32 ≤ s.ras.unread →
    exec (.rasCperHeadWrite 0 v) s = .next (State.copyCper 4096 { s with ras := { s.ras with head := v.toNat % 2 ^ 32 } })) ∧
  (∀ (s : State) (r : Reread) (rest : List Reread), s.rereads = r :: rest → r.isRow = false → r.asked = false → r.far = false →
    let u := ({ s with rereads := rest } : State).touch r.addr r.size
    (u.checkBlock r.addr r.size r.blockId = 0 → ∃ e, exec .selvageReread s = .next (u.raise e) ∧ e.event = 0x0010 ∧ e.severity = 2 ∧
      e.addr = u.pool.partId * devSize + r.addr ∧ e.blockId = r.blockId ∧ e.status = stSelvageMismatch) ∧
    (u.checkBlock r.addr r.size r.blockId ≠ 0 → ∃ e, exec .selvageReread s = .next ((u.poisonRange r.addr r.size).raise e) ∧
      e.event = 0x0011 ∧ e.severity = 0 ∧ e.addr = u.pool.partId * devSize + r.addr ∧ e.blockId = r.blockId ∧ e.status = stSelvageMismatch)) ∧
  (∀ (s t : State) (r : Reread) (rest : List Reread), s.rereads = r :: rest → r.isRow = false → r.asked = false → r.far = true →
    (rereadFar r).run s = (.ok (), t) → exec .selvageReread s = .next { t with rereads := t.rereads.erase r }) ∧
  (∀ (s : State) (cw : BitVec 32) (errs : Nat),
    exec (.patrolScrub cw errs) s = .next ((s.placeErrs (64 * cw.toNat) errs).readCodeword cw.toNat)) ∧
  (∀ (s : State) (f : FnId) (slot : Fin 28),
    let r := s.req f slot
    let x := r.u 0 1
    let size := 2 ^ r.u 1 1
    s.strangeCtx f x = false → (s.ctx x).phase ≠ 0 → 6 ≤ r.u 1 1 → r.u 1 1 ≤ 16 → r.u 8 8 % size = 0 → r.u 16 8 % size = 0 →
    r.u 8 8 + r.u 16 8 ≤ 2 ^ 52 →
    (s.posted f slot 0x0709 → s.ras.seals = [] → s.sealPages x (r.u 8 8) (r.u 16 8) = 0 → (s.fn f).running < 64 →
      exec (.selvageSeal f slot) s = s.accepted f slot 0x0709 (fun t id => { t with ras := { t.ras with seals := t.ras.seals ++
        [{ fn := f, opId := id, ctx := x, first := r.u 8 8, next := r.u 8 8, last := r.u 8 8 + r.u 16 8, size := size, blockId := r.u 24 8 }] } })) ∧
    (∀ (t : State) (res va : Nat), s.posted f slot 0x070A →
      (checkRange { ctx := x } (r.u 8 8) size (r.u 24 8) (r.u 8 8) (r.u 16 8 / size)).run s = (.ok (res, va), t) →
      exec (.selvageCheck f slot) s = .next (t.cpDone.respond r stOk (leBytes 1 res ++ leBytes 7 0 ++ leBytes 8 va) false)))

/-- R485, R487, R545: a record takes the next LOG_SEQ, the log then holds the record's header and section at that record's place, and
nothing else of device memory changes. -/
def Obligations.ErrorLog : Prop :=
  ∀ (s : State) (e : RasEvent) (count : Nat), s.ras.ringLog2 = 0 → s.link.snoop = [] → s.link.pendingInv = [] → ksorted s.mem.bytes = true →
    let n := s.ras.nextSeq
    let t := s.writeCper e count
    t.ras.nextSeq = n + 1 ∧ t.cperAt n = cperHeader e.severity (s.pool.partId * 2 ^ 54 + n) ++ e.vendor s.pool.partId count s.cpVersion ∧
    (∀ a, (a < cperSlot n ∨ cperSlot n + 512 ≤ a) → t.devByte a = s.devByte a) ∧ (cperHeader e.severity n).length = 200 ∧
    (e.vendor s.pool.partId count s.cpVersion).length = 128

/-- R474 to R476, R490: CORE_FENCE is accepted and reported; a core whose fence is decided is FENCED, with its work stopped, its windows lost,
and its requests answered; CORE_UNFENCE of a fenced core has it wait for a full test.
R471 to R473, R482, R484: after a capture the repeat waits for a neighbour; a repeat that differs again, or whose results differ, makes the
core permanent and to be fenced, one that agrees makes it transient and returns it; with no neighbour within 10 ms a full test takes the
repeat's place; a shadow sample that agrees frees its capture, and one that does not quarantines the core. The residues of a repeat are
open values (log entry 6). -/
def Obligations.CoreFencing : Prop :=
  (∀ (s : State) (f : FnId) (slot : Fin 28),
     let r := s.req f slot
     let c := r.u 0 1
     (f.val = 0 → s.posted f slot 0x0703 → c < 128 → s.fenced c = false → (s.fn f).running < 64 →
       (r.u 1 1 = 0 → exec (.coreFence f slot) s = s.accepted f slot 0x0703 (fun t id =>
         ((t.raise (t.coreEvent c 0x0024 3 0 0 0x0D)).decideFence c 0).updRas c (fun k => { k with fenceOps := k.fenceOps ++ [(f.val, id)] }))) ∧
       (r.u 1 1 = 1 → exec (.coreFence f slot) s = s.accepted f slot 0x0703 (fun t id =>
         (t.raise (t.coreEvent c 0x0024 3 0 0 0x0D)).updRas c (fun k => { k with fenceWait := k.fenceWait ++ [(f.val, id)] })))) ∧
     (f.val = 0 → s.posted f slot 0x0704 → c < 128 → s.fenced c = true → (s.rasOf c).unfence = none → (s.fn f).running < 64 →
       exec (.coreUnfence f slot) s = s.accepted f slot 0x0704 (fun t id =>
         (t.updRas c (fun k => { k with unfence := some (f.val, id) })).holdForTest c)) ∧
     (∀ d : CoreId, (s.rasOf d).state ≠ 4 → ((s.rasOf d).fenceStart.isSome = true ∨ ((s.rasOf d).fenceWait ≠ [] ∧ (s.core d).cmd = none)) →
       let t := s.fenceCore d
       exec (.coreFenced d) s = .next t ∧ (t.rasOf d).state = 4 ∧ (t.core d).cmd = none ∧ (t.core d).scratch = [] ∧ (∀ e ∈ (t.core d).sync, e.2.waiters = []) ∧
         (t.rasOf d).fenceOps = [] ∧ (t.rasOf d).fenceWait = [] ∧ ∀ p, (t.part p).mask = (s.part p).mask)) ∧
  (∀ (s : State) (c : CoreId) (g : Classify), s.firmware = true → s.ras.classify = [g] → g.core = c.val →
    (g.copied = false → g.capture ≠ none → ∃ t : State, exec (.captureDone c) s = .next t.seekNeighbours ∧
      t.ras.classify = [{ g with copied := true, start := s.refCount }] ∧ t.cores = s.cores ∧ t.mem = s.mem) ∧
    (g.copied = false → g.capture = none → s.ras.waiting = [] → ∃ t, exec (.captureDone c) s = .next t ∧ t.ras.classify = [] ∧
      t.ras.waiting = [c.val] ∧ t.cores = s.cores ∧ t.mem = s.mem) ∧
    (g.copied = true → g.neighbour = none → g.start + 1000000 ≤ s.refCount →
      exec (.neighbourTimeout c) s = .next (s.classifyByTest g)) ∧
    (∀ n peer eq, g.neighbour = some n → exec (.classifyRepeatDone c true peer eq) s =
        .next ((s.rasCount (if g.lockstep then 0x230 else 0x228) 1).permanent g) ∧
      exec (.classifyRepeatDone c false false true) s = .next (s.transient g) ∧
      exec (.classifyRepeatDone c false false false) s = .next (s.permanent g) ∧ ((s.permanent g).rasOf c).fenceStart.isSome = true ∧
      ((s.rasOf c).isDue = false → ((s.transient g).rasOf c).state = 0 ∧ ((s.transient g).rasOf c).lastClass = 1))) ∧
  (∀ (s : State) (c : CoreId) (h : Nat × Nat × Nat), s.ras.shadows.find? (fun h => h.1 = c.val) = some h →
    (∃ t, exec (.shadowCompare c true) s = .next t ∧ t.ras.shadows = s.ras.shadows.erase h ∧ t.coreRas = s.coreRas ∧ t.cores = s.cores) ∧
    (∀ p, kfind s.ras.captures h.2.1 = some p → ((s.rasOf c).state = 0 ∨ (s.rasOf c).state = 3) →
      ((s.core c).cmd = none → ∃ t, exec (.shadowCompare c false) s = .next t ∧ (t.rasOf c).state = 1 ∧ t.ras.shadows = s.ras.shadows.erase h ∧
        t.ras.events.length = s.ras.events.length + 1 ∧ t.cores = s.cores) ∧
      (∀ q, (s.core c).cmd = some q → ∃ u : State, (u.rasOf c).state = 1 ∧ u.ras.shadows = s.ras.shadows.erase h ∧ u.cores = s.cores ∧
        u.ras.events = s.ras.events ∧
        (q = p.cmd → exec (.shadowCompare c false) s = .next (u.failCore c stResidueMismatch)) ∧
        (q ≠ p.cmd → ∃ e : RasEvent, exec (.shadowCompare c false) s = .next ((u.failCore c stResidueMismatch).raise e) ∧ e.event = 0x0041 ∧
          e.severity = 0))))

/-- R473, R474, R477 to R484: VIGIL_CONFIG and VIGIL_WINDOW set the limits; an idle core past its period is due, the next due core is taken
into VIGIL, and one deferred too long is OVERDUE; a phase in which the digests agree passes, one in which they differ goes to a third
core, and a core that differs again fails; a test that takes 100 ms is abandoned. Seeds are open values (log entry 6), and which cores
Vigil takes as partners is firmware's (log entry 8). -/
def Obligations.VigilTests : Prop :=
  (∀ (s : State) (f : FnId) (slot : Fin 28), f.val = 0 →
    let r := s.req f slot
    (s.posted f slot 0x0705 → r.u 0 1 ≤ 1 → r.u 1 1 ≤ 8 → r.u 4 4 ≠ 0 → r.u 4 4 ≤ 168 → 60 ≤ r.u 8 4 → r.u 8 4 ≤ 86400 → r.u 12 4 ≤ 10000 →
      exec (.vigilConfig f slot) s = s.answers { s with ras := { s.ras with
        vigilEnable := decide (r.u 0 1 = 1), maxHeld := r.u 1 1, periodH := r.u 4 4, deferralS := r.u 8 4, paceQuietMs := r.u 12 4 } } f slot stOk []) ∧
    (s.posted f slot 0x0706 → r.u 0 1 < 16 → r.u 1 1 ≤ 16 → r.u 4 4 ≠ 0 → r.u 4 4 ≤ 86400 →
      exec (.vigilWindow f slot) s = s.answers { s with ras := { s.ras with
        windows := kput s.ras.windows (r.u 0 1) (r.u 1 1, s.refCount + r.u 4 4 * 100000000) } } f slot stOk [])) ∧
  (∀ (s : State) (p : PartId) (h t : Nat), kfind s.ras.windows p = some (h, t) → t ≤ s.refCount →
    exec (.vigilWindowExpiry p) s = .next { s with ras := { s.ras with windows := kdel s.ras.windows p } }) ∧
  (∀ (s : State) (c : CoreId),
    let r := s.rasOf c
    (s.fullService = true → r.isDue = false → (r.state = 0 ∨ r.state = 1 ∨ r.state = 3) → s.dueAt c ≤ s.refCount →
      exec (.vigilDue c) s = .next (s.updRas c (fun r => { r with isDue := true, dueSince := s.dueAt c }))) ∧
    (s.fullService = true → s.firmware = true → s.ras.vigilEnable = true → s.nextTaken = some c.val →
      exec (.vigilTake c) s = .next (s.takeCore c) ∧ ((s.takeCore c).rasOf c).state = 2 ∧ (∀ d, d ≠ c.val → (s.takeCore c).rasOf d = s.rasOf d)) ∧
    (r.state = 0 → r.isDue = true → s.ras.vigilEnable = true → r.dueSince + s.ras.deferralS * 100000000 ≤ s.refCount →
      ∃ t, exec (.vigilOverdue c) s = .next t ∧ (t.rasOf c).state = 3 ∧ t.ras.events.length = s.ras.events.length + 1 ∧ t.cores = s.cores)) ∧
  (∀ (s : State) (c : CoreId) (t : VigilTest) (a b d : BitVec 32), s.ras.tests.find? (fun t => t.coreA = c.val) = some t →
    (t.third = none → a = b → exec (.vigilPhaseDone c a b d) s = .next (s.phasePassed t)) ∧
    (∀ e, t.third = none → a ≠ b → s.thirdCore t = some e → (s.rasOf e).state = 2 → exec (.vigilPhaseDone c a b d) s =
      .next (State.setTest { s with ras := { s.ras with waiting := s.ras.waiting.filter (· ≠ e) } } { t with third := some e })) ∧
    (∀ e, t.third = some e → t.retry = none → a = b → b = d → exec (.vigilPhaseDone c a b d) s = .next (s.phasePassed t)) ∧
    (∀ e, t.third = some e → t.retry = none → a = d → a ≠ b → exec (.vigilPhaseDone c a b d) s =
      .next (s.seed.1.setTest { t with retry := some t.coreB, seed := s.seed.2 })) ∧
    (∀ e, t.third = some e → t.retry = some t.coreA → t.coreA ≠ e → a ≠ d → exec (.vigilPhaseDone c a b d) s =
      .next (s.failTest t t.coreA d.toNat a.toNat))) ∧
  (∀ (s : State) (c : CoreId) (t : VigilTest), s.ras.tests.find? (fun t => t.coreA = c.val || t.coreB = c.val) = some t →
    t.start + 10000000 < s.refCount → exec (.vigilTestAbandoned c) s = .next (t.cores.foldl State.backToWaiting
      { s with ras := { s.ras with tests := s.ras.tests.filter (fun u => u.coreA ≠ t.coreA) } }))

/-! ### Power and heat -/

/-- R497 to R508, R514, R515, R517: a power sample enters the last millisecond's, takes a waiting POWER_SET, and decides the full stall, in which
every core with a weight gets full duty; no core's duty passes the cap; telemetry, efficiency, energy and droops are taken as they are
read; the control operations set and report. The readings are the command's operands (log entry 10).
R496, R505 to R513, R585, R587: a droop stretches a cluster's clock until it has recovered; a higher point is taken once the half's voltage
has it; a reading is kept, and a row of a higher temperature governs at once; a trip that has lasted 1 ms writes its record and opens
the input, which PRESENT does too; all state of the part is lost then, and the latch stays until it is released. Which sensor of a
trip is over, where the readings were not given by sensor, is open (log entry 6). -/
def Obligations.PowerAndHeat : Prop :=
  (∀ (s : State) (mw : Nat) (act rails : List Nat), s.module.powered = true →
    let n := s.power.next.getD (s.power.limit, s.power.margin, s.power.gain, s.power.dmax)
    let p : Power := { s.power with limit := n.1, margin := n.2.1, samples := (s.power.railPower mw rails * 10000 / max 1 s.power.eta :: s.power.samples).take 1000 }
    let stall := if s.power.stall then decide ((p.effective - p.marginW) * p.samples.length < p.samples.sum)
                 else decide ((2 * p.effective - p.marginW) * p.samples.length ≤ 2 * p.samples.sum)
    ∃ t, exec (.powerSample mw act rails) s = .next t ∧ t.power.samples = p.samples ∧ t.power.limit = n.1 ∧ t.power.margin = n.2.1 ∧
      t.power.gain = n.2.2.1 ∧ t.power.dmax = n.2.2.2 ∧ t.power.next = none ∧ t.power.stall = stall ∧ t.mem = s.mem ∧ t.cores = s.cores ∧
      (stall = true → ∀ c, c < 128 → s.weightOf c ≠ 0 → kget 0 t.power.duty c = 100)) ∧
  (∀ (fuel n den cap : Nat) (l : List (Nat × Nat)), 0 < den → ∀ e ∈ spreadDuty fuel n den cap l, e.2 ≤ cap ∧ e.1 ∈ l.map (·.1)) ∧
  (∀ (s : State) (mv ma rail input : Nat), s.module.powered = true →
    (40000 ≤ mv → mv ≤ 60000 → ∃ t, exec (.telemetryFrame true mv ma false) s = .next t ∧ t.power.vin = mv ∧ t.power.iin = ma ∧
      t.power.lastFrame = s.refCount ∧ t.power.tlmLost = false ∧ t.power.excursion = false ∧ t.ras = s.ras) ∧
    (s.power.tlmLost = false → s.power.lastFrame + 10000 ≤ s.refCount → ∃ t, exec .telemetryLost s = .next t ∧ t.power.tlmLost = true ∧
      t.power.eta = 8800 ∧ t.cores = s.cores) ∧
    (∀ rails : List Nat, s.power.tlmLost = false → input ≠ 0 → exec (.efficiencyUpdate rail input rails) s = .next { s with power := { s.power with
      eta := max 8000 (min 9600 ((if rails.isEmpty then rail else rails.sum) * 10000 / input)) } }) ∧
    ((mv < 36000 ∨ 64000 < mv) → exec (.inputLockout mv) s =
      .next { s.powerOff with module := { s.powerOff.module with latch := true, trip := true } }) ∧
    (∀ cores service shares, ∃ t, exec (.energyAttribution cores service input shares) s = .next t ∧ t.power.inputEnergy = s.power.inputEnergy + input ∧
      t.power.serviceEnergy = s.power.serviceEnergy + service ∧ t.mem = s.mem ∧ t.cores = s.cores)) ∧
  (∀ (s : State) (f : FnId) (slot : Fin 28),
    let r := s.req f slot
    let p := s.power
    (s.posted f slot 0x0801 → exec (.powerQuery f slot) s = s.answers s f slot stOk (leBytes 2 (p.window / 1000) ++
      leBytes 2 (p.effective / 1000) ++ leBytes 2 (p.vin / 100) ++ leBytes 2 (p.iin / 100) ++ leBytes 1 s.dutyMax ++ leBytes 1 (b2n p.stall) ++
      leBytes 2 0 ++ leBytes 4 p.eta)) ∧
    (f.val = 0 → s.posted f slot 0x0802 → 600 ≤ r.u 0 2 → r.u 0 2 ≤ 1500 → 1 ≤ r.u 2 1 → r.u 2 1 ≤ 10 → 1 ≤ r.u 3 1 → r.u 3 1 ≤ 32 →
      25 ≤ r.u 4 1 → r.u 4 1 ≤ 90 → exec (.powerSet f slot) s =
        s.answers { s with power := { p with next := some (r.u 0 2, r.u 2 1, r.u 3 1, r.u 4 1) } } f slot stOk []) ∧
    (f.val = 0 → s.posted f slot 0x0803 → r.u 0 1 < 16 → r.u 1 1 < 16 → exec (.paceWeightSet f slot) s =
      s.answers (s.updPart (r.u 0 1) (fun q => { q with weight := r.u 1 1 })) f slot stOk []) ∧
    (s.posted f slot 0x0804 → exec (.thermalQuery f slot) s = s.answers s f slot stOk s.thermalBytes) ∧
    (f.val = 0 → s.posted f slot 0x0805 → 80 ≤ r.u 0 1 → r.u 0 1 ≤ 90 → 90 ≤ r.u 1 1 → r.u 1 1 ≤ 100 → exec (.thermalSet f slot) s =
      s.answers { s with power := { p with dramDerate := r.u 0 1, logicDerate := r.u 1 1 } } f slot stOk []) ∧
    (s.posted f slot 0x0806 → s.strangeCtx f (r.u 0 1) = false → (s.ctx (r.u 0 1)).phase ≠ 0 → exec (.energyQuery f slot) s =
      s.answers s f slot stOk (leBytes 8 (s.ctx (r.u 0 1)).energy))) ∧
  (∀ (s : State) (k : ClusterId), s.module.powered = true →
    let c := s.clusterPower k
    (c.stretchAt = none → ∃ t, exec (.droop k) s = .next t ∧ (t.clusterPower k).stretchAt = some s.refCount ∧ t.cores = s.cores ∧
      (∀ j, j ≠ k.val → t.clusterPower j = s.clusterPower j)) ∧
    (∀ b, c.stretchAt = some b → 3200 ≤ (s.refCount - b) * s.clockOf k → ∃ t, exec (.droopRecovery k) s = .next t ∧
      (t.clusterPower k).stretchAt = none ∧ t.mem = s.mem ∧ t.cores = s.cores) ∧
    (∀ (lg dr : Int) (sensors layers : List Int), let logic := hottest lg sensors
      let dram := hottest dr layers
      ∃ t, exec (.thermalReading k lg dr sensors layers) s = .next t ∧ (t.clusterPower k).logicTemp = logic ∧ (t.clusterPower k).dramTemp = dram ∧ t.mem = s.mem ∧ t.cores = s.cores ∧
      (c.row ≤ (s.power.rowOf logic dram).1 → (t.clusterPower k).row = (s.power.rowOf logic dram).1) ∧
      ((t.clusterPower k).row = 3 → (t.clusterPower k).thermalDuty = 100)) ∧
    (let n := c.tripSensor (Config.freeValue 6 s.freeCtr)
     ∀ b, c.overSince = some b → b + 100000 ≤ s.refCount → ∃ t, exec (.thermalTrip k) s = .next t ∧ t.module.latch = true ∧
      t.module.trip = true ∧ t.module.powered = false ∧ t.module.inputOpen = true ∧ t.mem = {} ∧ t.cores = [] ∧ t.ctxs = [] ∧
      t.service.images = s.service.images ∧
      t.module.tripRec = some ⟨k, n, if 4 ≤ n then c.dramTemp else c.logicTemp, s.refCount, s.cpVersion⟩) ∧
    (∃ t, exec .presentOpen s = .next t ∧ t.module.powered = false ∧ t.module.trip = true ∧ t.module.present = false ∧ t.mem = {} ∧
      t.cores = [] ∧ t.service.images = s.service.images)) ∧
  (∀ (s : State) (half : Fin 2), ∃ t, exec (.pointVoltageReached half) s = .next t ∧ t.mem = s.mem ∧ t.cores = s.cores ∧
    ∀ i, i < 8 → (t.clusterPower (8 * half.val + i)).point =
      (s.clusterPower (8 * half.val + i)).wantPoint.getD (s.clusterPower (8 * half.val + i)).point) ∧
  (∀ s : State, s.module.latch = true →
    exec .hotSwapLatchRelease s = .next { s with module := { s.module with latch := false, trip := false } })

/-! ### Images, bring-up and the host link -/

/-- R550 to R557, R563, R564: IMAGE_STAGE and IMAGE_ACTIVATE are accepted where nothing stands against them, an untested pairing is refused
with its conflict, IMAGE_COMMIT commits what runs, IMAGE_QUERY reports; a CP swap hands off and opens the new image, or goes back after
25 µs; a microcode rollout takes cores in order and ends each with its self-test; a port takes its FAB image in order; RECAL runs
a group's 400 slices. -/
def Obligations.Images : Prop :=
  (∀ (s : State) (f : FnId) (slot : Fin 28), f.val = 0 →
    let r := s.req f slot
    let k := r.u 0 1
    1 ≤ k → k ≤ 4 →
    (∀ n, s.posted f slot 0x0901 → s.service.staging = [] → r.zeros 1 7 = true → 256 ≤ r.u 16 4 → r.u 16 4 ≤ 16777920 →
      r.u 8 8 + r.u 16 4 ≤ 2 ^ 52 → s.activating k = false → s.stageSlot k = some n → (s.fn f).running < 64 →
      exec (.imageStage f slot) s = s.accepted f slot 0x0901 (fun t id =>
        let g : StageOp := { fn := f, opId := id, kind := k, addr := r.u 8 8, length := r.u 16 4, slot := n }
        State.runStage { t with service := { t.service with staging := t.service.staging ++ [g] } } g)) ∧
    (∀ n, s.posted f slot 0x0902 → r.u 1 1 < 4 → r.u 2 1 ≤ 8 → s.activating k = false → s.freshSlot k = some n →
      (k = 3 → bitAt (r.u 1 1) 1 = true) →
      (∀ c, s.pairing (s.image k n) k n = some c → s.service.debugFuse = false → exec (.imageActivate f slot) s =
        s.answers (s.recordRefused k) f slot stVersionRefused (leBytes 1 c.1 ++ leBytes 1 c.2.1 ++ leBytes 2 0 ++ leBytes 4 c.2.2)) ∧
      (s.pairing (s.image k n) k n = none → (s.fn f).running < 64 →
        (k = 1 → exec (.imageActivate f slot) s = s.accepted f slot 0x0902 (fun t id =>
          { t with service := { t.service with swap := some { fn := f, opId := id, slot := n } } })) ∧
        ((k = 2 ∨ k = 3) → exec (.imageActivate f slot) s = s.accepted f slot 0x0902 (fun t id =>
          { t with service := { t.service with rollouts := t.service.rollouts ++
            [{ fn := f, opId := id, kind := k, slot := n, max := max 1 (r.u 2 1), left := List.range (if k = 2 then 128 else 6) }] } })) ∧
        (k = 4 → exec (.imageActivate f slot) s = s.accepted f slot 0x0902 (fun t id =>
          (State.activated { t with service := { t.service with pwrPending := true } } 4).opEnd (some (f.val, id)) stOk [])))) ∧
    (∀ n, s.posted f slot 0x0903 → s.runSlots k = [n] → exec (.imageCommit f slot) s = s.answers { s with service := { s.service with
      committed := kput s.service.committed k n, minSvn := kmod 0 s.service.minSvn k (fun m => max m (s.image k n).svn),
      forcedSet := s.service.forced && !s.setTested ((r.u 0 1, n) :: ([1, 2, 3, 4].filter (· ≠ r.u 0 1)).map (fun j =>
        (j, kget 0 s.service.running j))) } } f slot stOk []) ∧
    (s.posted f slot 0x0904 → exec (.imageQuery f slot) s =
      s.answers s f slot stOk (s.slotBytes k 0 ++ s.slotBytes k 1 ++ leBytes 2 (if k = 2 then s.coresUpdated else 0)))) ∧
  (∀ (s : State) (f : FnId) (slot : Fin 28), f.val = 0 → s.posted f slot 0x0905 → s.service.recal = none → (s.req f slot).u 0 1 < 16 →
    (s.fn f).running < 64 → exec (.recal f slot) s = s.accepted f slot 0x0905 (fun t id =>
      { t with service := { t.service with recal := some { group := (s.req f slot).u 0 1, slices := 0, op := some (f.val, id) } } })) ∧
  (∀ (s : State) (g : Fin 16) (c : Recal), s.service.recal = some c → c.group = g.val → (s.clusterPower g).row ≠ 3 → s.firmware = true →
    (c.slices + 1 < 400 →
      exec (.recalSlice g) s = .next { s with service := { s.service with recal := some { c with slices := c.slices + 1 } } }) ∧
    (400 ≤ c.slices + 1 → ∃ t : State, exec (.recalSlice g) s = .next (t.opEnd c.op stOk []) ∧ t.service.recal = none ∧
      kget 0 t.service.groupCalAt g = s.refCount ∧ kget 0 t.service.groupTemp g = (s.clusterPower g).dramTemp ∧ t.mem = s.mem)) ∧
  (∀ (s : State) (w : CpSwap), s.service.swap = some w →
    (w.swapAt = none → s.firmware = true → exec .cpSwapPoint s =
      .next { s with service := { s.service with swap := some { w with swapAt := some s.refCount } } }) ∧
    (∀ t, w.swapAt = some t → s.service.state ≠ 3 →
      (s.refCount < t + 2500 → exec .cpSwapPoint s = .next (State.takePosted (State.resumeWhenFull ((State.activated { s with service :=
        { s.service with swap := none, running := kput s.service.running 1 w.slot } } 1).opEnd (some (w.fn, w.opId)) stOk [])))) ∧
      (t + 2500 ≤ s.refCount → exec .cpSwapTimeout s = .next (State.takePosted (State.raise
        (State.opEnd { s with service := { s.service with swap := none } } (some (w.fn, w.opId)) stUpdateFailed [])
        { event := 0x0204, severity := 0, unit := 0x0D }))))) ∧
  (∀ (s : State) (c : CoreId) (r : Rollout), s.service.rollouts.find? (fun r => r.kind = 2) = some r → s.firmware = true →
    (c.val ∉ r.taken → r.left.head? = some c.val → (s.core c).cmd = none → s.borrowed c = false → (s.rasOf c).state = 0 →
      s.partOf c = none → ∀ pass, exec (.microcodeCoreUpdate c pass) s =
        .next (s.setRollout { r with left := r.left.tail, taken := r.taken ++ [c.val] })) ∧
    (c.val ∈ r.taken →
      (let q : Rollout := { r with taken := r.taken.filter (· ≠ c.val) }
       let t : State := { s with service := { s.service with seqSlot := kput s.service.seqSlot c r.slot } }
       exec (.microcodeCoreUpdate c true) s = .next (((t.setRollout q).publish).seqDone q).settle) ∧
      (let q : Rollout := { r with taken := r.taken.filter (· ≠ c.val), left := [], failed := true }
       exec (.microcodeCoreUpdate c false) s = .next (((s.setRollout q).raise (s.coreEvent c 0x0208 0 0 0 1)).seqDone q).settle))) ∧
  (∀ (s : State) (p : PortId) (r : Rollout), s.service.rollouts.find? (fun r => r.kind = 3) = some r → s.firmware = true →
    r.left.head? = some p.val → r.taken = [] →
    ((s.port p).state = 4 → exec (.fabPortUpdate p) s = .next ((s.setRollout { r with taken := [p.val] }).planFence p)) ∧
    ((s.port p).state = 0 ∨ (s.port p).state = 6 → exec (.fabPortUpdate p) s = .next (State.portUpdated
      { s with service := { s.service with fabSlot := kput s.service.fabSlot p r.slot } } r p)))

/-- R542 to R549, R562, R563, R567, R584: power-on boots, or is held by PERST# until its release; clusters are calibrated pair by pair, and full
service begins once all are; a full reset, by command or by PERST#, clears all but what R547 keeps; a CP restart keeps the part's state and
firmware goes on; CAP_READ, PART_IDENTITY, PART_QUERY and PART_RESET answer. -/
def Obligations.BringUpAndReset : Prop :=
  (∀ s : State,
    (s.module.powered = false → s.module.latch = false → s.module.perst = true → ∃ t, exec .powerOn s = .next t ∧ t.module.powered = true ∧
      t.module.heldAt10 = true ∧ t.service.state = 0 ∧ t.mem = {} ∧ t.cores = [] ∧ t.refCount = 0) ∧
    (s.module.powered = false → s.module.latch = false → s.module.perst = false → ∃ t : State, exec .powerOn s = .next t.boot ∧
      t.module.powered = true ∧ t.mem = {} ∧ t.cores = [] ∧ t.ctxs = [] ∧ t.service.images = s.service.images ∧ t.ras.nextSeq = 1) ∧
    (s.module.powered = true → s.module.perst = false → exec .fullReset s = .next s.clearAll.boot) ∧
    (s.module.powered = true → s.module.perst = false → s.module.heldAt10 = false → ∃ t, exec .perstAssert s = .next t ∧
      t.module.perst = true ∧ t.module.heldAt10 = true ∧ t.service.state = 0 ∧ t.cores = [] ∧ t.refCount = s.refCount ∧ t.power = s.power) ∧
    (s.module.heldAt10 = true → exec .perstRelease s =
      .next (State.boot { s with module := { s.module with perst := false, heldAt10 := false } })) ∧
    (s.clearAll.ctxs = [] ∧ s.clearAll.parts = [] ∧ s.clearAll.tables = [] ∧ s.clearAll.ras.nextSeq = s.ras.nextSeq ∧
      s.clearAll.power = s.power ∧ s.clearAll.refCount = s.refCount ∧ s.clearAll.service.images = s.service.images ∧
      s.clearAll.epochs.srcSeq = s.epochs.srcSeq ∧
      ∀ e ∈ s.clearAll.mem.bytes, inCapture e.1 = true) ∧
    ((s.service.state = 1 ∨ s.service.state = 2) → ∃ t, exec .cpWatchdog s = .next t ∧ t.service.state = 3 ∧
      t.service.resume = s.service.state ∧ t.cores = s.cores ∧ t.mem = s.mem ∧ t.cmds = s.cmds) ∧
    (s.service.state = 3 → s.service.restartOp = none →
      let u : State := { s with service := { s.service with state := s.service.resume, restart := none, restartOp := none } }
      let v := u.resumeFirmware.raise { event := 0x0203, severity := 0, unit := 0x0D }
      exec .cpRestart s = .next ((List.range 17).foldl State.postAllHeld v).takePosted.settle) ∧
    (∀ b b8 : Fin 5, s.service.state = 1 → s.service.pair < 8 → ∃ t, exec (.clusterPairCalibrated b b8) s = .next t ∧
      t.service.pair = s.service.pair + 1 ∧ t.service.clustersCal = 2 * (s.service.pair + 1) ∧
      (t.clusterPower s.service.pair).best = min 3 b.val ∧ (t.clusterPower (s.service.pair + 8)).best = min 3 b8.val ∧ t.mem = s.mem) ∧
    (s.service.state = 1 → s.service.pair = 8 → (∀ k, k < 16 → (s.clusterPower k).row < 2) →
      (s.service.resumeDue = true → ∃ t : State, exec (.fullServiceEntry 0 0) s = .next t.resumeOps.settle ∧ t.service.state = 2 ∧
        t.service.resumeDue = false ∧ t.epochs = s.epochs ∧ t.mem = s.mem) ∧
      (s.service.resumeDue = false → ∃ t, exec (.fullServiceEntry 0 0) s = .next t ∧
      t.service.state = 2 ∧ t.ras.vigilBase = s.refCount ∧ (∀ k, k < 16 → (t.clusterPower k).point = (s.clusterPower k).best) ∧ t.mem = s.mem))) ∧
  (∀ (s : State) (f : FnId) (slot : Fin 28),
    let r := s.req f slot
    (s.posted f slot 0x0101 →
      let vs := (List.range 28).map (fun i => s.capValue (r.u 0 2 + i))
      exec (.capRead f slot) s = s.answers s f slot stOk (leBytes 4 (bitMask ((List.range 28).filter (fun i => (nthD none vs i).isSome))) ++
        leBytes 4 0 ++ vs.flatMap (fun v => leBytes 8 (v.getD 0)))) ∧
    (s.posted f slot 0x0102 → exec (.partIdentity f slot) s = s.answers s f slot stOk (leBytes 8 Config.serial ++ productName ++
      leBytes 1 0x11 ++ leBytes 1 (b2n s.service.debugFuse + 2 * b2n s.service.forced) ++ leBytes 2 0 ++ leBytes 4 (s.runVersion 1 min) ++
      leBytes 4 (s.runVersion 2 min) ++ leBytes 4 (s.runVersion 2 max) ++ leBytes 4 (s.runVersion 3 min) ++ leBytes 4 (s.runVersion 4 min) ++
      leBytes 64 (Config.digest 1 []))) ∧
    (s.posted f slot 0x0103 → s.service.recal = none → exec (.partQuery f slot) s = s.answers s f slot stOk (leBytes 1 s.service.state ++
      leBytes 1 s.service.clustersCal ++ leBytes 1 s.service.groupsCal ++ leBytes 1 0 ++ leBytes 4 s.ownedBuckets ++
      leBytes 4 (s.epochs.held.filter (fun h => h.active)).length ++ leBytes 1 0xFF)) ∧
    (f.val = 0 → s.posted f slot 0x0104 →
      (r.u 0 1 = 0 → exec (.partReset f slot) s = .next (s.beginRestart (some (f.val, slot.val)))) ∧
      (r.u 0 1 = 1 → exec (.partReset f slot) s = .next s.fullReset)))

/-- R521, R522, R529 to R539, R541, R461, R467, R469: HOST_LINK_UP brings the link up as trained; a self-reset and an FLR tear the
host-facing contexts down, drain for 1 ms at most, and reset the host interface or the function; unmasking sends recorded messages; a
committed decoder maps host accesses, a host write is read back, an access to an unmapped address is answered as unsupported, and a
back-invalidation's answer lets the writes that wait for it through. -/
def Obligations.HostLinkOperations : Prop :=
  (∀ (s : State) (speed : Fin 8) (width : Fin 5) (flit : Bool) (bm me : BitVec 17) (pages : List HostPage) (ls : List Nat), s.module.powered = true →
    s.module.perst = false → speed.val ≠ 0 → s.link.resetAt = none → ∃ t, exec (.hostLinkUp speed width flit bm me pages ls) s = .next t ∧
      t.link.up = true ∧ t.link.speed = speed.val ∧ t.link.width = width.val ∧ t.link.cxlMem = cxlRuns speed width flit ∧
      t.host.pages = pages ∧ t.mem = s.mem ∧
      ∀ f, f < 17 → (t.fn f).busMaster = bm.getLsbD f ∧ (t.fn f).msixEnable = me.getLsbD f) ∧
  (∀ (s : State) (cause : Fin 5), s.module.powered = true → s.link.resetAt = none →
    let fns := s.fns.map (fun (e : Nat × Fn) => (e.1, { e.2 with expBusy := 0 }))
    let l := { s.link with up := false, resetAt := some s.refCount, ifReset := false, selfResets := min 0xFFFF (s.link.selfResets + 1),
                           lastCause := cause.val + 1 }
    let u : State := { s with fns := fns, link := l }
    exec (.selfReset cause) s = .next (u.loseContexts none).endDrains.settle) ∧
  (∀ (s : State) (p : PartId), s.link.up = true → kfind s.link.flrs p = none →
    let u : State := { s with link := { s.link with flrs := kput s.link.flrs p s.refCount } }
    exec (.flrVf p) s = .next ((u.loseContexts (some p.val)).resetFn (1 + p)).endDrains.settle) ∧
  (∀ (s : State) (t : Nat), s.link.resetAt = some t → t + 100000 ≤ s.refCount → s.link.flrs = [] → s.link.ifReset = false →
    (s.drainLimit none).link.ifReset = false → (s.drainLimit none).hostReset.link.flrs = [] →
    exec .selfResetDrainLimit s = .next (s.drainLimit none).hostReset.endDrains.settle) ∧
  (∀ s : State, s.hostReset.link.up = false ∧ s.hostReset.link.hdm = [] ∧ s.hostReset.link.snoop = [] ∧ s.hostReset.link.pendingInv = [] ∧
    s.hostReset.host.pages = [] ∧ ∀ f, f < 17 → (s.hostReset.fn f).mb = [] ∧ (s.hostReset.fn f).msixTable = [] ∧ (s.hostReset.fn f).nextOp = (s.fn f).nextOp) ∧
  (∀ (s : State) (f : FnId), s.reach f = true →
    exec (.msixUnmask f none) s = .next ((s.updFn f (fun n => { n with msixEnable := true })).sendPending f) ∧
    ∀ v : BitVec 11, v.toNat < vectors f → exec (.msixUnmask f (some v)) s = .next ((s.updFn f (fun n => { n with
      msixTable := kmod {} n.msixTable v.toNat (fun e => { e with masked := false }) })).sendPending f)) ∧
  (∀ (s : State) (i : Fin 2) (base size hpa : Nat), s.link.up = true →
    (base % 2 ^ 28 = 0 → size % 2 ^ 28 = 0 → base + size ≤ hdmEnd → exec (.hdmDecoderCommit i base size hpa) s =
      .next { s with link := { s.link with hdm := kput s.link.hdm i ⟨base, size, hpa, true, false⟩ } }) ∧
    ((base % 2 ^ 28 ≠ 0 ∨ size % 2 ^ 28 ≠ 0 ∨ hdmEnd < base + size) → exec (.hdmDecoderCommit i base size hpa) s =
      .next { s with link := { s.link with hdm := kput s.link.hdm i ⟨base, size, hpa, false, true⟩ } })) ∧
  (∀ (s : State) (hpa a : Nat) (bytes : List Byte) (mask : BitVec 64), s.link.cxlMem = true → s.hdmAddr hpa = some a → bytes.length = 64 →
    ksorted s.mem.bytes = true → ksorted s.mem.symErr = true → ksorted s.mem.info = true →
    ∃ t, exec (.cxlMemWrite hpa bytes mask) s = .next t ∧ t.link.hdm = s.link.hdm ∧ t.link.cxlMem = true ∧ t.cores = s.cores ∧
      (∀ x, x / 64 ≠ a / 64 → kget 0 t.mem.bytes x = kget 0 s.mem.bytes x) ∧
      (∀ i, i < 64 → kget 0 t.mem.bytes (64 * (a / 64) + i) =
        if mask.getLsbD i then nthD 0 bytes i else kget 0 s.mem.bytes (64 * (a / 64) + i)) ∧
      (mask = BitVec.allOnes 64 → ∃ u, exec (.cxlMemRead hpa 0 false) t = .next u ∧ u.host.lines = (bytes, false) :: t.host.lines ∧
        u.mem = t.mem)) ∧
  (∀ (s : State) (hpa a errs : Nat) (keep : Bool), s.link.cxlMem = true → s.hdmAddr hpa = some a →
    let w := a / 64
    let u := (s.placeErrs (64 * w) errs).readCodeword w
    (keep = true → (∀ b ∈ s.link.pendingInv, b.line ≠ w)) → ∃ t, exec (.cxlMemRead hpa errs keep) s = .next t ∧
      t.host.lines = (readBytes u.mem.bytes (64 * w) 64, (kget {} u.mem.info w).poison) :: s.host.lines ∧ t.mem = u.mem ∧ t.cores = s.cores ∧
      (keep = true → w ∈ t.link.snoop)) ∧
  (∀ (s : State) (hpa errs : Nat) (keep : Bool) (bytes : List Byte) (mask : BitVec 64), s.link.cxlMem = true → s.hdmAddr hpa = none →
    let t : State := { s with host := { s.host with unsupported := hpa :: s.host.unsupported } }
    exec (.cxlMemRead hpa errs keep) s = .next t ∧ exec (.cxlMemWrite hpa bytes mask) s = .next t) ∧
  (∀ (s : State) (line : Nat) (b : BackInv), s.link.pendingInv = [b] → b.line = line →
    exec (.backInvalidateResponse line none) s =
      .next ((b.land { s with link := { s.link with pendingInv := [] } }).ackLanded [b]))

/-! ### Registers, the management port and attestation -/

/-- R11, R64, R65, R109, R110, R141, R143, R183, R256, R344, R429, R569 to R581: the write-1-to-clear, clearing, latching and selecting
registers act as their rules say through the physical function, a locked debug window and a read-only or absent register as R571 and R578
say. -/
def Obligations.RegisterOperations : Prop :=
  ∀ s : State, s.link.up = true →
    (∀ (f : FnId) (v : BitVec 64), s.reach f = true → ∃ t, exec (.feIrqCauseWrite f v) s = .next t ∧
      (∀ i, (t.fn f).irqCause.testBit i = ((s.fn f).irqCause.testBit i && !v.toNat.testBit i)) ∧ t.mem = s.mem ∧ t.cores = s.cores) ∧
    (∀ v : BitVec 64, s.ras.debugLock = false →
      exec (.feDebugLockWrite 0 v) s = .next { s with ras := { s.ras with debugLock := v.getLsbD 0 } }) ∧
    (∀ v : BitVec 64, s.ras.debugLock = true → exec (.feDebugLockWrite 0 v) s = .next (s.logEvent 0x0B)) ∧
    (∀ (f : FnId) (c : CoreId) (v : BitVec 64), s.reach f = true → (f.val ≠ 0 ∨ s.ras.debugLock = true) →
      exec (.cdwCvtFlagsWrite f c v) s = .next (s.logEvent 0x0B) ∧ exec (.cdwMxResidueWrite f c v) s = .next (s.logEvent 0x0B) ∧
      exec (.cdwSeqFaultWrite f c v) s = .next (s.logEvent 0x0B)) ∧
    (s.ras.debugLock = false → ∀ (c : CoreId) (k : ClusterId) (v : BitVec 64),
      exec (.cdwCvtFlagsWrite 0 c v) s = .next (s.updCore c (fun u => { u with cvt := u.cvt - (u.cvt &&& (v.toNat &&& 0x7E)) })) ∧
      exec (.cdwMxResidueWrite 0 c v) s = .next (s.updCore c (fun u =>
        { u with mx := { u.mx with residue := u.mx.residue - (u.mx.residue &&& (v.toNat &&& 1)) } })) ∧
      exec (.cdwSeqFaultWrite 0 c v) s = .next (s.updCore c (fun u => { u with seqFault := u.seqFault - (u.seqFault &&& (v.toNat &&& 1)) })) ∧
      (∃ t, exec (.cdwBobCtlWrite 0 k v) s = .next t ∧ (t.slice k).enable = v.getLsbD 0 ∧ (t.slice k).prefEn = v.getLsbD 1 ∧
        (t.slice k).prefRemote = v.getLsbD 2 ∧ (t.slice k).agePeriod = bitsOf v.toNat 19 16 ∧ (t.slice k).prefMax = bitsOf v.toNat 31 24 ∧
        ((s.slice k).enable = true → v.getLsbD 0 = false → (t.slice k).tags = []) ∧ t.mem = s.mem ∧ (∀ j, j ≠ k.val → t.slice j = s.slice j)) ∧
      exec (.cdwBobTagSelWrite 0 k v) s = .next (s.updFn 0 (fun n => { n with bobSel := kput n.bobSel k (v.toNat % 65536) })) ∧
      exec (.cdwExuCtlWrite 0 k v 0) s = .next (s.updExch k (fun x =>
        { x with replyTimeout := bitsOf v.toNat 47 32, batchMax := bitsOf v.toNat 22 16, batchAge := bitsOf v.toNat 7 0 })) ∧
      ((s.exch k).batchMax < 128 → (s.exch k).batchAge < 256 → (s.exch k).replyTimeout < 65536 →
        exec (.cdwExuCtlWrite 0 k v 1) s = .next (s.updExch k (fun x =>
          { x with batchMax := bitsOf v.toNat 22 16, batchAge := bitsOf v.toNat 7 0 })) ∧
        exec (.cdwExuCtlWrite 0 k v 2) s = .next (s.updExch k (fun x => { x with replyTimeout := bitsOf v.toNat 47 32 })))) ∧
    (∀ (c : CoreId) (k : ClusterId) (half : Fin 3),
      (∃ t, exec (.cdwGatherOorRead 0 c half) s = .next t ∧ t.host.reads = halfOf half (s.core c).oor :: s.host.reads ∧
        (t.core c).oor = (if half = 2 then (s.core c).oor else 0) ∧ t.mem = s.mem) ∧
      (∃ t, exec (.cdwMxResidueRead 0 c half) s = .next t ∧ t.host.reads = halfOf half (s.core c).mx.residue :: s.host.reads ∧
        bitsOf (t.core c).mx.residue 47 32 = (if half = 1 then bitsOf (s.core c).mx.residue 47 32 else 0) ∧ t.mem = s.mem ∧ ∀ j, j ≠ c.val → t.core j = s.core j) ∧
      (let tag := (s.slice k).tagBits (kget 0 (s.fn 0).bobSel k)
       ∃ t, exec (.cdwBobTagLoRead 0 k half) s = .next t ∧ t.host.reads = halfOf half (tag % 2 ^ 64) :: s.host.reads ∧ kget 0 (t.fn 0).bobLatch k = tag ∧
         t.slices = s.slices) ∧
      (let v := s.syncRead 0 c (kget 0 (s.fn 0).syncSel c)
       ∃ t, exec (.cdwSyncValRead 0 c half) s = .next t ∧ t.host.reads = halfOf half v.1 :: s.host.reads ∧ kget (0, 0, 0) (t.fn 0).syncLatch c = v ∧
         t.cores = s.cores)) ∧
    (∀ (f : FnId) (c : CoreId) (v : BitVec 64), s.reach f = true → s.windowOf f c = true → exec (.cdwSyncSelWrite f c v) s =
      .next (s.updFn f (fun n => { n with syncSel := kput n.syncSel c (bitsOf v.toNat 23 16 * 65536 + bitsOf v.toNat 8 0) }))) ∧
    (∀ (f : FnId) (off : BitVec 25) (v : BitVec 64), s.reach f = true → off.toNat % 8 = 0 →
      (0x800000 ≤ off.toNat → off.toNat < 0x880000 →
        exec (.registerWrite f off v) s = .next (s.msixWrite f (off.toNat - 0x800000) v.toNat)) ∧
      ((off.toNat < 0x100000 ∨ 0x900000 ≤ off.toNat) → regListed off.toNat = false →
        exec (.registerWrite f off v) s = .next (s.logEvent 0x0B)) ∧
      (off.toNat < 0x20 → exec (.registerWrite f off v) s = .next s))

/-- R588: the management port answers identity, power and temperatures from its power-on on, and returns the records of the log one by one from
its own pointer, which CPER_RESET puts before the oldest; in a CP restart it answers with a NACK.
R559 to R561: version, capabilities and algorithms are negotiated in that order, a request before its stage gets an ERROR; certificates,
challenges and measurements are answered afterwards, with a signature over the transcript. The values of digests, signatures and nonces
are open (log entries 6 and 14). -/
def Obligations.ManagementAndAttestation : Prop :=
  (∀ s : State, s.module.powered = true →
     (s.service.state ≠ 3 →
       exec .mgmtIdentity s = .next (s.mgmtAnswer (leBytes 8 (s.identity 0) ++ leBytes 8 s.serviceStat ++ leBytes 8 Config.serial ++ leBytes 1 0x11)) ∧
       exec .mgmtPower s = .next (s.mgmtAnswer (leBytes 8 s.pwrStat)) ∧ exec .mgmtThermal s = .next (s.mgmtAnswer s.thermalBytes)) ∧
     (s.service.state = 3 → exec .mgmtIdentity s = .next (s.mgmtAnswer []) ∧ exec .mgmtCperNext s = .next (s.mgmtAnswer [])) ∧
     (s.service.state ≠ 3 → s.service.state ≠ 0 →
       (let n := max (s.module.mgmtPtr + 1) s.ras.oldest
        n < s.ras.nextSeq → ∃ t, exec .mgmtCperNext s = .next t ∧ t.module.mgmtOut = s.cperAt n :: s.module.mgmtOut ∧ t.module.mgmtPtr = n ∧
          t.mem = s.mem ∧ t.ras = s.ras) ∧
       exec .mgmtCperReset s = .next { s with module := { s.module with mgmtPtr := s.ras.oldest - 1 } })) ∧
  (∀ s : State, s.link.up = true → s.firmware = true →
     let v := s.spdm.version
     (∃ t, exec .getVersion s = .next t ∧ t.spdm.stage = 1 ∧ t.spdm.transcript = [0x84] ++ nats (t.spdm.out.headD []) ∧
       t.spdm.out = spdmMsg 0x10 0x04 0 0 (leBytes 1 0 ++ leBytes 1 2 ++ leBytes 2 0x1200 ++ leBytes 2 0x1300) :: s.spdm.out ∧ t.mem = s.mem) ∧
     (∀ ver : BitVec 8, 1 ≤ s.spdm.stage → (ver = 0x12 ∨ ver = 0x13) → ∃ t, exec (.getCapabilities ver) s = .next t ∧ t.spdm.stage = 2 ∧
       t.spdm.version = ver.toNat ∧ t.spdm.out = spdmMsg ver.toNat 0x61 0 0 (leBytes 4 0 ++ leBytes 4 0x36) :: s.spdm.out) ∧
     (∀ ver : BitVec 8, 1 ≤ s.spdm.stage → ver ≠ 0x12 → ver ≠ 0x13 → exec (.getCapabilities ver) s = .next (s.spdmError 0x41)) ∧
     (∀ ver : BitVec 8, 2 ≤ s.spdm.stage → ver.toNat = v → ∃ t, exec (.negotiateAlgorithms ver true true) s = .next t ∧ t.spdm.stage = 3 ∧
       t.spdm.out = spdmMsg v 0x63 0 0 (leBytes 4 0x200 ++ leBytes 4 0x4) :: s.spdm.out) ∧
     (s.spdm.stage < 3 → exec .getDigests s = .next (s.spdmError 0x04)) ∧
     (3 ≤ s.spdm.stage →
       exec .getDigests s = .next (s.spdmSend [0x81] (spdmMsg v 0x01 0 1 s.chainDigest)) ∧
       (∀ off len : BitVec 16,
         let d := s.service.debugFuse
         let m := min len.toNat (Config.certLength d - off.toNat)
         off.toNat < Config.certLength d → exec (.getCertificate 0 off len) s = .next (s.spdmSend [0x82, off.toNat, len.toNat]
           (spdmMsg v 0x02 0 0 (leBytes 2 m ++ leBytes 2 (Config.certLength d - off.toNat - m) ++
             (List.range m).map (fun i => BitVec.ofNat 8 (Config.certByte d (off.toNat + i))))))) ∧
       (∀ nonce : BitVec 256, exec (.challenge 0 nonce) s = .next (s.nonce.1.spdmSigned [0x83, 0, nonce.toNat]
         (spdmMsg v 0x03 0 1 (s.chainDigest ++ s.nonce.2)))) ∧
       (∀ (i : BitVec 8) (nonce : BitVec 256), 1 ≤ i.toNat → i.toNat ≤ 7 →
         let b := s.measureBlock i.toNat
         let m := spdmMsg v 0x60 0 0 (leBytes 1 1 ++ leBytes 3 b.length ++ b ++ s.nonce.2)
         exec (.getMeasurements i nonce false) s = .next (s.nonce.1.spdmSend [0xE0, i.toNat, nonce.toNat] m) ∧
         exec (.getMeasurements i nonce true) s = .next (s.nonce.1.spdmSigned [0xE0, i.toNat, nonce.toNat] m))))

/-! ### The whole block -/

/-- A step with a command at the front of the queue is that command's effect on the state with the rest of the queue. -/
def Obligations.StepRunsFrontCommand : Prop :=
  ∀ (s : State) (c : Instr) (rest : List Instr), s.pending = c :: rest → step s = exec c { s with pending := rest }

/-- The model's choice (log entries 1 and 13). On an empty queue a module with power counts one reference tick, adds to the token buckets of
the exchange units and DRAM schedulers, counts TOKEN_WAIT where a batch waits, and changes nothing else; one without power does nothing
(R36, R172, R185). -/
def Obligations.IdleTick : Prop :=
  ∀ s : State, s.pending = [] →
    (s.module.powered = false → step s = .next s) ∧
    (s.module.powered = true → ∃ m d, step s = .next { s with refCount := (s.refCount + 1) % 2 ^ 64, exchanges := m, dram := d } ∧
      ∀ k, k < 16 →
        let x := kget {} m k
        let y := s.exch k
        { x with tokens := y.tokens, frac := y.frac, counters := y.counters } = y ∧ kget 0 x.tokens (bucketKey 16 0) ≤ 8192 ∧
        kget 0 (kget {} d k).tokens (bucketKey 16 0) ≤ 8192 ∧ (∀ o, o ≠ 0x178 → kget 0 x.counters o = kget 0 y.counters o) ∧
        (y.closed = [] → y.round = [] → x.counters = y.counters))

/-- R36, R141, R183, R195, R303, R381, R541, R578: a module without power holds nothing: no core belongs to a partition, every access entry
refuses, the counters that power-on clears are 0, and the registers with a stated reset value hold it. -/
def Obligations.ResetValues : Prop :=
  State.reset.module.powered = false ∧ State.reset.pending = [] ∧ State.reset.refCount = 0 ∧ State.reset.epochs.srcSeq = 0 ∧
  State.reset.link.selfResets = 0 ∧ State.reset.link.lastCause = 0 ∧ State.reset.link.up = false ∧ State.reset.ras.debugLock = false ∧
  (∀ p, (State.reset.part p).mask = 0) ∧ (∀ x, (State.reset.ctx x).phase = 0) ∧ (∀ t, (State.reset.table t).state = 0) ∧
  (∀ g, kget 0 State.reset.pool.acl g = 0) ∧ (∀ p, (State.reset.port p).state = 0) ∧
  (∀ k, (State.reset.slice k).ctl = 0x20040107 ∧ (State.reset.exch k).ctl = 0x3200400014) ∧
  (∀ f, (State.reset.fn f).irqCause = 0 ∧ (State.reset.fn f).mb = [])

/-- The model's choice (log entries 3, 4 and 32): the state after reset keeps device memory in canonical form, with nothing waiting. -/
def Obligations.ResetKeeps : Prop :=
  ∀ k, State.Keeps State.reset.service.keyDigest 0 false k 0 [] State.reset

/-- R550, R563: whatever command runs, and on every tick: device memory keeps its canonical form, no key, revocation or debug fuse
changes, no minimum security version falls, and no command is added to those that wait. -/
def Obligations.EveryStepKeeps : Prop :=
  ∀ (keys : KMap Nat) (revoked : Nat) (debug : Bool) (kind svn : Nat) (queue : List Instr) (s t : State),
    State.Keeps keys revoked debug kind svn queue s → step s = .next t → State.Keeps keys revoked debug kind svn queue t

/-- The spec stops the machine at no command: every command of every state answers a next state. R529: a host access to memory that no
committed decoder maps is among them; it is answered as unsupported and reaches nothing of the part. -/
def Obligations.EveryCommandAnswers : Prop :=
  (∀ (c : Instr) (s : State), ∃ t, exec c s = .next t) ∧
  ∀ (s : State) (hpa errs : Nat) (keep : Bool) (bytes : List Byte) (mask : BitVec 64), s.link.cxlMem = true → s.hdmAddr hpa = none →
    ∃ t, exec (.cxlMemRead hpa errs keep) s = .next t ∧ exec (.cxlMemWrite hpa bytes mask) s = .next t ∧
      t.host.unsupported = hpa :: s.host.unsupported ∧ { t with host := s.host } = s
end

