-- ==== Sys2Proof/Laws/Maps.lean ====
section
/-! SUPPORT. Laws of finite maps and of little-endian bytes: what is read after a write, and that the canonical form is kept. -/

namespace Sys2Proof

variable {α : Type}

@[simp] theorem kfind_nil (k : Nat) : kfind ([] : KMap α) k = none := rfl

/-- A read after a write at any key. -/
theorem kfind_kput (m : KMap α) (k k' : Nat) (v : α) : kfind (kput m k v) k' = if k' = k then some v else kfind m k' := by
  induction m with
  | nil => simp [kput, kfind]
  | cons e m ih =>
    obtain ⟨a, b⟩ := e
    simp only [kput]
    split
    · simp only [kfind]
    · split
      · subst_vars
        simp only [kfind]
        split <;> simp_all
      · simp only [kfind, ih]
        split
        · rw [if_neg]; omega
        · rfl

@[simp] theorem kfind_kput_self (m : KMap α) (k : Nat) (v : α) : kfind (kput m k v) k = some v := by simp [kfind_kput]

theorem kfind_kput_ne (m : KMap α) {k k' : Nat} (v : α) (h : k' ≠ k) : kfind (kput m k v) k' = kfind m k' := by
  simp [kfind_kput, h]

@[simp] theorem kget_kput_self (d : α) (m : KMap α) (k : Nat) (v : α) : kget d (kput m k v) k = v := by simp [kget]

theorem kget_kput_ne (d : α) (m : KMap α) {k k' : Nat} (v : α) (h : k' ≠ k) : kget d (kput m k v) k' = kget d m k' := by
  simp [kget, kfind_kput, h]

@[simp] theorem kget_kmod_self (d : α) (m : KMap α) (k : Nat) (f : α → α) : kget d (kmod d m k f) k = f (kget d m k) := by
  simp [kmod]

theorem kget_kmod_ne (d : α) (m : KMap α) {k k' : Nat} (f : α → α) (h : k' ≠ k) : kget d (kmod d m k f) k' = kget d m k' := by
  simp [kmod, kget_kput_ne, h]

/-- The second of two writes to one key stands. -/
theorem kput_kput (m : KMap α) (k : Nat) (v w : α) : kput (kput m k v) k w = kput m k w := by
  induction m with
  | nil => simp [kput]
  | cons e m ih =>
    obtain ⟨a, b⟩ := e
    simp only [kput]
    split
    · simp [kput]
    · split
      · simp [kput]
      · simp [kput, *]

/-! ### The canonical form -/

/-- The first key is above a bound. -/
def kabove (b : Nat) : KMap α → Prop
  | [] => True
  | (k, _) :: _ => b < k

theorem ksorted_cons (k : Nat) (v : α) (m : KMap α) : ksorted ((k, v) :: m) = true ↔ kabove k m ∧ ksorted m = true := by
  cases m with
  | nil => simp [ksorted, kabove]
  | cons e m => obtain ⟨a, b⟩ := e; simp [ksorted, kabove]

theorem kabove_kput {b k : Nat} {v : α} {m : KMap α} (h : kabove b m) (hk : b < k) : kabove b (kput m k v) := by
  cases m with
  | nil => simpa [kput, kabove] using hk
  | cons e m =>
    obtain ⟨a, c⟩ := e
    simp only [kput]
    split
    · simpa [kabove] using hk
    · split
      · simpa [kabove] using hk
      · simpa [kabove] using h

theorem ksorted_kput {m : KMap α} (h : ksorted m = true) (k : Nat) (v : α) : ksorted (kput m k v) = true := by
  induction m with
  | nil => simp [kput, ksorted]
  | cons e m ih =>
    obtain ⟨a, c⟩ := e
    rw [ksorted_cons] at h
    simp only [kput]
    split
    · rename_i hlt
      rw [ksorted_cons, ksorted_cons]
      exact ⟨hlt, h⟩
    · split
      · subst_vars
        rw [ksorted_cons]; exact h
      · rw [ksorted_cons]
        exact ⟨kabove_kput h.1 (by omega), ih h.2⟩

theorem kabove_mono {b c : Nat} {m : KMap α} (h : kabove c m) (hb : b < c) : kabove b m := by
  cases m with
  | nil => trivial
  | cons e m => obtain ⟨a, d⟩ := e; simp only [kabove] at *; omega

theorem kabove_kdel {b k : Nat} {m : KMap α} (h : kabove b m) (hs : ksorted m = true) : kabove b (kdel m k) := by
  cases m with
  | nil => trivial
  | cons e m =>
    obtain ⟨a, c⟩ := e
    rw [ksorted_cons] at hs
    simp only [kdel]
    split
    · exact kabove_mono hs.1 h
    · exact h

theorem ksorted_kdel {m : KMap α} (h : ksorted m = true) (k : Nat) : ksorted (kdel m k) = true := by
  induction m with
  | nil => rfl
  | cons e m ih =>
    obtain ⟨a, c⟩ := e
    rw [ksorted_cons] at h
    simp only [kdel]
    split
    · exact h.2
    · rw [ksorted_cons]
      exact ⟨kabove_kdel h.1 h.2, ih h.2⟩

theorem kput_all {p : Nat × α → Bool} {m : KMap α} (h : m.all p = true) {k : Nat} {v : α} (hv : p (k, v) = true) :
    (kput m k v).all p = true := by
  induction m with
  | nil => simpa [kput] using hv
  | cons e m ih =>
    obtain ⟨a, c⟩ := e
    simp only [List.all_cons, Bool.and_eq_true] at h
    simp only [kput]
    split
    · simp [hv, h.1, h.2]
    · split
      · simp [hv, h.2]
      · simp [h.1, ih h.2]

theorem kdel_all {p : Nat × α → Bool} {m : KMap α} (h : m.all p = true) (k : Nat) : (kdel m k).all p = true := by
  induction m with
  | nil => rfl
  | cons e m ih =>
    obtain ⟨a, c⟩ := e
    simp only [List.all_cons, Bool.and_eq_true] at h
    simp only [kdel]
    split
    · exact h.2
    · simp [h.1, ih h.2]

variable [DecidableEq α]

/-- Writing in canonical form keeps it. -/
theorem kwf_kset {d : α} {m : KMap α} (h : kwf d m = true) (k : Nat) (v : α) : kwf d (kset d m k v) = true := by
  simp only [kwf, Bool.and_eq_true] at *
  simp only [kset]
  split
  · exact ⟨ksorted_kdel h.1 k, kdel_all h.2 k⟩
  · exact ⟨ksorted_kput h.1 k v, kput_all h.2 (by simpa using ‹_›)⟩

theorem kwf_kput {d : α} {m : KMap α} (h : kwf d m = true) (k : Nat) {v : α} (hv : v ≠ d) : kwf d (kput m k v) = true := by
  have := kwf_kset h k v
  simpa [kset, hv] using this

theorem kwf_kdel {d : α} {m : KMap α} (h : kwf d m = true) (k : Nat) : kwf d (kdel m k) = true := by
  have := kwf_kset h k d
  simpa [kset] using this

/-- Writing bytes keeps the canonical form. -/
theorem kwf_writeBytes {m : KMap Byte} (h : kwf 0 m = true) (a : Nat) (bs : List Byte) : kwf 0 (writeBytes m a bs) = true := by
  induction bs generalizing m a with
  | nil => exact h
  | cons b bs ih => exact ih (kwf_kset h a b) (a + 1)

omit [DecidableEq α] in
/-- A key below a rising map's keys is not listed. -/
theorem kfind_above {k : Nat} {m : KMap α} (h : kabove k m) (hs : ksorted m = true) : kfind m k = none := by
  induction m with
  | nil => rfl
  | cons e m ih =>
    obtain ⟨a, c⟩ := e
    rw [ksorted_cons] at hs
    simp only [kabove] at h
    simp only [kfind]
    rw [if_neg (by omega)]
    exact ih (kabove_mono hs.1 h) hs.2

omit [DecidableEq α] in
theorem kfind_kdel {m : KMap α} (hs : ksorted m = true) (k k' : Nat) : kfind (kdel m k) k' = if k' = k then none else kfind m k' := by
  induction m with
  | nil => simp [kdel]
  | cons e m ih =>
    obtain ⟨a, c⟩ := e
    rw [ksorted_cons] at hs
    simp only [kdel]
    split
    · subst_vars
      simp only [kfind]
      split
      · subst_vars; exact kfind_above hs.1 hs.2
      · rfl
    · simp only [kfind, ih hs.2]
      split
      · rw [if_neg]; omega
      · rfl

/-- A read after a canonical write. -/
theorem kget_kset {d : α} {m : KMap α} (hs : ksorted m = true) (k k' : Nat) (v : α) :
    kget d (kset d m k v) k' = if k' = k then v else kget d m k' := by
  simp only [kset, kget]
  split
  · subst_vars
    rw [kfind_kdel hs]
    split <;> simp_all
  · rw [kfind_kput]
    split <;> simp_all

theorem ksorted_kset {d : α} {m : KMap α} (h : ksorted m = true) (k : Nat) (v : α) : ksorted (kset d m k v) = true := by
  simp only [kset]
  split
  · exact ksorted_kdel h k
  · exact ksorted_kput h k v

/-- A byte read after bytes were written. -/
theorem kget_writeBytes {m : KMap Byte} (hs : ksorted m = true) (a : Nat) (bs : List Byte) (x : Nat) :
    kget 0 (writeBytes m a bs) x = if a ≤ x ∧ x < a + bs.length then bs.getD (x - a) 0 else kget 0 m x := by
  induction bs generalizing m a with
  | nil => rw [if_neg (by simp only [List.length_nil]; omega)]; rfl
  | cons b bs ih =>
    rw [writeBytes, ih (ksorted_kset hs a b), kget_kset hs]
    by_cases hx : x = a
    · subst hx
      rw [if_neg (by omega), if_pos (by simp)]
      simp
    · by_cases hr : a + 1 ≤ x ∧ x < a + 1 + bs.length
      · rw [if_pos hr, if_pos (by simp only [List.length_cons]; omega)]
        have : x - a = (x - (a + 1)) + 1 := by omega
        rw [this]; simp
      · rw [if_neg hr, if_neg hx, if_neg (by simp only [List.length_cons]; omega)]

end Sys2Proof
end

