-- ==== Sys2Proof/Laws/Memory.lean ====
section
/-! SUPPORT. Every operation on device memory keeps its canonical form, and reset memory has it. -/

namespace Sys2Proof.Machine

open Sys2Proof

variable {α : Type}

theorem kabove_filter {b : Nat} {m : KMap α} (h : kabove b m) (hs : ksorted m = true) (p : Nat × α → Bool) :
    kabove b (m.filter p) := by
  induction m with
  | nil => trivial
  | cons e m ih =>
    obtain ⟨a, c⟩ := e
    rw [ksorted_cons] at hs
    simp only [List.filter]
    split
    · exact h
    · exact ih (kabove_mono hs.1 h) hs.2

theorem ksorted_filter {m : KMap α} (h : ksorted m = true) (p : Nat × α → Bool) : ksorted (m.filter p) = true := by
  induction m with
  | nil => rfl
  | cons e m ih =>
    obtain ⟨a, c⟩ := e
    rw [ksorted_cons] at h
    simp only [List.filter]
    split
    · rw [ksorted_cons]
      exact ⟨kabove_filter h.1 h.2 p, ih h.2⟩
    · exact ih h.2

/-- A part of a canonical map is canonical. -/
theorem kwf_filter [DecidableEq α] {d : α} {m : KMap α} (h : kwf d m = true) (p : Nat × α → Bool) : kwf d (m.filter p) = true := by
  simp only [kwf, Bool.and_eq_true, List.all_eq_true] at *
  exact ⟨ksorted_filter h.1 p, fun e he => h.2 e (List.mem_filter.mp he).1⟩

/-- A change made step by step keeps what every step keeps. -/
theorem foldl_keeps {β γ : Type} {p : β → Prop} {f : β → γ → β} (hf : ∀ b c, p b → p (f b c)) (l : List γ) {b : β} (h : p b) :
    p (l.foldl f b) := by
  induction l generalizing b with
  | nil => exact h
  | cons c l ih => exact ih (hf b c h)

theorem Memory.wf_iff (m : DevMem) : Memory.wf m = true ↔ kwf 0 m.bytes = true ∧ kwf {} m.info = true ∧ kwf 0 m.symErr = true := by
  simp [Memory.wf, and_assoc]

theorem DevMem.setMeta_wf {m : DevMem} (h : Memory.wf m = true) (w : Nat) (i : CwMeta) : Memory.wf (m.setMeta w i) = true := by
  rw [Memory.wf_iff] at *
  exact ⟨h.1, kwf_kset h.2.1 w i, h.2.2⟩

theorem State.storeDev_wf {s : State} (h : Memory.wf s.mem = true) (a : Nat) (bs : List Byte) (f : Nat → CwMeta → CwMeta) :
    Memory.wf (s.storeDev a bs f).mem = true := by
  rw [Memory.wf_iff] at *
  refine ⟨kwf_writeBytes h.1 a bs, foldl_keeps (p := fun m => kwf ({} : CwMeta) m = true) (fun m w hm => kwf_kset hm w _) _ h.2.1,
    foldl_keeps (p := fun m => kwf 0 m = true) (fun m w hm => ?_) _ h.2.2⟩
  split
  · exact kwf_kdel hm w
  · exact hm

theorem State.writeLine_wf {s : State} (h : Memory.wf s.mem = true) (a : Nat) (bs : List Byte) (f : Nat → CwMeta → CwMeta) (w : Nat)
    (via : Option (Bool × Nat × Nat) := none) : Memory.wf (s.writeLine a bs f w via).mem = true := by
  simp only [State.writeLine]
  split
  · exact h
  · exact State.storeDev_wf h _ _ _

theorem State.writeDev_wf {s : State} (h : Memory.wf s.mem = true) (a : Nat) (bs : List Byte) (f : Nat → CwMeta → CwMeta)
    (via : Option (Bool × Nat × Nat) := none) : Memory.wf (s.writeDev a bs f via).mem = true := by
  simp only [State.writeDev]
  split
  · exact foldl_keeps (p := fun t : State => Memory.wf t.mem = true) (fun _ w ht => State.writeLine_wf ht a bs f w via) _ h
  · exact State.storeDev_wf h a bs f

/-- A write to device memory changes it and the lines that wait for the host, and nothing else. -/
theorem State.writeDev_eq (s : State) (a : Nat) (bs : List Byte) (f : Nat → CwMeta → CwMeta) (via : Option (Bool × Nat × Nat) := none) :
    ∃ m l, s.writeDev a bs f via = { s with mem := m, link := l } := by
  simp only [State.writeDev]
  split
  · refine foldl_keeps (p := fun t : State => ∃ m l, t = { s with mem := m, link := l }) (fun t w ht => ?_) _ ⟨s.mem, s.link, rfl⟩
    obtain ⟨m, l, rfl⟩ := ht
    unfold State.writeLine
    split
    · exact ⟨_, _, rfl⟩
    · exact ⟨_, _, rfl⟩
  · exact ⟨_, _, rfl⟩

theorem State.writePlain_wf {s : State} (h : Memory.wf s.mem = true) (a : Nat) (bs : List Byte) (via : Option (Bool × Nat × Nat) := none) :
    Memory.wf (s.writePlain a bs via).mem = true := State.writeDev_wf h a bs _ via

theorem State.writeBlock_wf {s : State} (h : Memory.wf s.mem = true) (a : Nat) (bs : List Byte) (id : Nat) (ties : Bool) :
    Memory.wf (s.writeBlock a bs id ties).mem = true := State.writeDev_wf h a bs _

theorem State.poisonRange_wf {s : State} (h : Memory.wf s.mem = true) (a n : Nat) : Memory.wf (s.poisonRange a n).mem = true := by
  rw [Memory.wf_iff] at *
  exact ⟨h.1, foldl_keeps (p := fun m => kwf ({} : CwMeta) m = true) (fun m w hm => kwf_kset hm w _) _ h.2.1, h.2.2⟩

@[simp] theorem State.corrected_mem (s : State) (w : Nat) : (s.corrected w).mem = s.mem := by
  simp only [State.corrected, State.raise]
  split <;> rfl

@[simp] theorem State.countCorrected_mem (s : State) (w : Nat) : (s.countCorrected w).mem = s.mem := by
  rw [State.countCorrected, State.corrected_mem]; rfl

theorem State.readCodeword_wf {s : State} (h : Memory.wf s.mem = true) (w : Nat) : Memory.wf (s.readCodeword w).mem = true := by
  have hc : Memory.wf { s.mem with symErr := kdel s.mem.symErr w } = true := by
    rw [Memory.wf_iff] at *
    exact ⟨h.1, h.2.1, kwf_kdel h.2.2 w⟩
  simp only [State.readCodeword]
  split
  · exact h
  · split
    · rw [State.countCorrected_mem]; exact hc
    · split
      · exact DevMem.setMeta_wf hc w _
      · have hm : ∀ bs i, Memory.wf (({ s.mem with symErr := kdel s.mem.symErr w, bytes := writeBytes s.mem.bytes (64 * w) bs } : DevMem).setMeta
            w i) = true := fun bs i => DevMem.setMeta_wf (by
          rw [Memory.wf_iff] at *
          exact ⟨kwf_writeBytes hc.1 _ _, hc.2⟩) w i
        split
        · rw [State.countCorrected_mem]; exact hm _ _
        · exact hm _ _

theorem State.touch_wf {s : State} (h : Memory.wf s.mem = true) (a n : Nat) : Memory.wf (s.touch a n).mem = true :=
  foldl_keeps (p := fun t : State => Memory.wf t.mem = true) (fun _ w ht => State.readCodeword_wf ht w) _ h

theorem State.placeErrs_wf {s : State} (h : Memory.wf s.mem = true) (a n : Nat) : Memory.wf (s.placeErrs a n).mem = true := by
  simp only [State.placeErrs]
  split
  · exact h
  · rw [Memory.wf_iff] at *
    exact ⟨h.1, h.2.1, kwf_kput h.2.2 _ (by assumption)⟩

theorem State.zeroRange_wf {s : State} (h : Memory.wf s.mem = true) (a n : Nat) : Memory.wf (s.zeroRange a n).mem = true := by
  rw [State.zeroRange]
  refine foldl_keeps (p := fun t : State => Memory.wf t.mem = true) (fun _ _ ht => by exact ht) _ ?_
  rw [Memory.wf_iff] at *
  exact ⟨kwf_filter h.1 _, kwf_filter h.2.1 _, kwf_filter h.2.2 _⟩

theorem State.zeroUnits_wf {s : State} (h : Memory.wf s.mem = true) (t : Table) (n v len : Nat) :
    Memory.wf (s.zeroUnits t n v len).mem = true := by
  induction n generalizing s v len with
  | zero => exact h
  | succ n ih =>
    simp only [State.zeroUnits]
    split
    · exact h
    · exact ih (State.zeroRange_wf h _ _) _ _

/-- A full reset keeps the capture area only, and the canonical form. -/
theorem State.clearAll_wf {s : State} (h : Memory.wf s.mem = true) : Memory.wf s.clearAll.mem = true := by
  rw [Memory.wf_iff] at *
  exact ⟨kwf_filter h.1 _, kwf_filter h.2.1 _, kwf_filter h.2.2 _⟩

/-- Device memory after reset is canonical: nothing is listed. -/
theorem State.reset_wf : Memory.wf State.reset.mem = true := by decide

/-- A store is read back, and leaves every other byte as it was. -/
theorem State.storeDev_byte {s : State} (h : Memory.wf s.mem = true) (a : Nat) (bs : List Byte) (f : Nat → CwMeta → CwMeta) (x : Nat) :
    kget 0 (s.storeDev a bs f).mem.bytes x = if a ≤ x ∧ x < a + bs.length then bs.getD (x - a) 0 else kget 0 s.mem.bytes x := by
  rw [Memory.wf_iff] at h
  have hs : ksorted s.mem.bytes = true := by
    have := h.1; simp only [kwf, Bool.and_eq_true] at this; exact this.1
  exact kget_writeBytes hs a bs x

end Sys2Proof.Machine
end

