-- ==== Sys2Proof/Laws/Messages.lean ====
section
/-! SUPPORT. What the shared operations that send, take and charge for messages can change: one lemma for each. -/

namespace Sys2Proof.Machine

open Sys2Proof

variable {s t : State}

/-- Charging the DRAM schedulers changes nothing but them (R147, R170). -/
theorem State.dramCharge_eq (s : State) (key a n : Nat) : ∃ d, s.dramCharge key a n = { s with dram := d } := ⟨_, rfl⟩

@[simp] theorem State.dramCharge_mem (s : State) (key a n : Nat) : (s.dramCharge key a n).mem = s.mem := rfl

/-- Charging bytes of the update staging changes the DRAM schedulers alone (R171, R199). -/
theorem State.chargeStaging_eq (s : State) (epoch x n : Nat) : ∃ d, s.chargeStaging epoch x n = { s with dram := d } := by
  unfold State.chargeStaging
  refine foldl_keeps (p := fun t : State => ∃ d, t = { s with dram := d }) (fun t i ht => ?_) _ ⟨s.dram, rfl⟩
  obtain ⟨d, rfl⟩ := ht
  exact ⟨_, rfl⟩

@[simp] theorem State.chargeStaging_mem (s : State) (epoch x n : Nat) : (s.chargeStaging epoch x n).mem = s.mem := by
  obtain ⟨d, e⟩ := s.chargeStaging_eq epoch x n
  rw [e]

/-- An event without a code of its own changes the RAS record alone (log entry 17). -/
theorem State.logEvent_eq (s : State) (unit : Nat) : ∃ r, s.logEvent unit = { s with ras := r } := ⟨_, rfl⟩

/-- A delivered packet joins the inbox, or is discarded with an event. -/
theorem State.deliver_eq (s : State) (k : Packet) :
    ∃ inbox r, s.deliver k = { s with pool := { s.pool with inbox := inbox }, ras := r } := by
  unfold State.deliver
  split
  · exact ⟨s.pool.inbox, _, rfl⟩
  · exact ⟨_, s.ras, rfl⟩

/-- Sending a packet out of this part changes ports alone. -/
theorem State.routeOut_eq {k : Packet} {d : Nat} {turned : Bool} (h : s.routeOut k d turned = some t) : ∃ p, t = { s with ports := p } := by
  unfold State.routeOut at h
  split at h
  · cases h
  · split at h <;> exact ⟨_, (Option.some.inj h).symm⟩

/-- Sending a message changes ports, the inbox, the list of what was sent, and the RAS record, and nothing else. -/
theorem State.sendMsg_eq (s : State) (dest partition : Nat) (m : Msg) :
    ∃ p inbox tx r, s.sendMsg dest partition m = { s with ports := p, pool := { s.pool with inbox := inbox, tx := tx }, ras := r } := by
  have same : ∃ p inbox tx r, s = { s with ports := p, pool := { s.pool with inbox := inbox, tx := tx }, ras := r } :=
    ⟨s.ports, s.pool.inbox, s.pool.tx, s.ras, rfl⟩
  unfold State.sendMsg State.send?
  split
  · obtain ⟨i, r, h⟩ := s.deliver_eq { dest := dest, src := dest, length := unitsOf m.bytes, cls := m.cls, partition := partition, msg := m }
    exact ⟨s.ports, i, s.pool.tx, r, h⟩
  · split
    · exact same
    · split
      · exact same
      · cases h : s.routeOut _ _ false with
        | none => exact same
        | some t =>
          obtain ⟨p, rfl⟩ := State.routeOut_eq h
          exact ⟨p, s.pool.inbox, _, s.ras, rfl⟩

@[simp] theorem State.sendMsg_mem (s : State) (dest partition : Nat) (m : Msg) : (s.sendMsg dest partition m).mem = s.mem := by
  obtain ⟨_, _, _, _, h⟩ := s.sendMsg_eq dest partition m
  rw [h]

/-- An answer of pool service is sent, with its bytes charged, or joins the messages that wait at the unit (R171, R172). -/
theorem State.serviceSend_eq (s : State) (k dest : Nat) (m : Msg) : ∃ p inbox tx r x o,
    s.serviceSend k dest m = { s with ports := p, pool := { s.pool with inbox := inbox, tx := tx }, ras := r, exchanges := x, outbox := o } := by
  unfold State.serviceSend
  dsimp only
  split
  · obtain ⟨p, i, tx, r, h⟩ := s.sendMsg_eq dest 0 m
    exact ⟨p, i, tx, r, s.exchanges, s.outbox, h⟩
  · split
    · obtain ⟨p, i, tx, r, h⟩ := (s.updExch k (fun x => x.charge (bucketKey 16 0) (16 + m.bytes))).sendMsg_eq dest 0 m
      exact ⟨p, i, tx, r, _, s.outbox, h⟩
    · exact ⟨s.ports, s.pool.inbox, s.pool.tx, s.ras, s.exchanges, _, rfl⟩

@[simp] theorem State.serviceSend_mem (s : State) (k dest : Nat) (m : Msg) : (s.serviceSend k dest m).mem = s.mem := by
  obtain ⟨_, _, _, _, _, _, h⟩ := s.serviceSend_eq k dest m
  rw [h]

/-- Taking a message out of the inbox changes nothing else. -/
theorem State.takeMsg_eq (s : State) (m : Msg) : ∃ inbox, s.takeMsg m = { s with pool := { s.pool with inbox := inbox } } := by
  unfold State.takeMsg
  split
  · exact ⟨s.pool.inbox, rfl⟩
  · exact ⟨_, rfl⟩

@[simp] theorem State.takeMsg_mem (s : State) (m : Msg) : (s.takeMsg m).mem = s.mem := by
  obtain ⟨_, h⟩ := s.takeMsg_eq m
  rw [h]

/-- Decoding a flit draws a free value at most. -/
theorem State.decodeFlit_eq (s : State) (fl : Flit) : ∃ n, (s.decodeFlit fl).1 = { s with freeCtr := n } := by
  unfold State.decodeFlit
  split
  · exact ⟨s.freeCtr, rfl⟩
  · split
    · exact ⟨s.freeCtr + 1, rfl⟩
    · exact ⟨s.freeCtr, rfl⟩

end Sys2Proof.Machine
end

