-- ==== Sys2Proof/Laws/State.lean ====
section
/-! SUPPORT. What each update of one part of the state leaves alone, and what is read back after it. -/

namespace Sys2Proof.Machine

open Sys2Proof

/-! ### `State.updCore` -/

@[simp] theorem State.updCore_core_self (s : State) (i : Nat) (g : Core → Core) : (s.updCore i g).core i = g (s.core i) := by
  simp [State.updCore, State.core]

theorem State.updCore_core_ne (s : State) {i j : Nat} (g : Core → Core) (h : j ≠ i) : (s.updCore i g).core j = s.core j := by
  simp [State.updCore, State.core, kget_kmod_ne, h]

@[simp] theorem State.updCore_pending (s : State) (i : Nat) (g : Core → Core) : (s.updCore i g).pending = s.pending := rfl
@[simp] theorem State.updCore_freeCtr (s : State) (i : Nat) (g : Core → Core) : (s.updCore i g).freeCtr = s.freeCtr := rfl
@[simp] theorem State.updCore_refCount (s : State) (i : Nat) (g : Core → Core) : (s.updCore i g).refCount = s.refCount := rfl
@[simp] theorem State.updCore_module (s : State) (i : Nat) (g : Core → Core) : (s.updCore i g).module = s.module := rfl
@[simp] theorem State.updCore_service (s : State) (i : Nat) (g : Core → Core) : (s.updCore i g).service = s.service := rfl
@[simp] theorem State.updCore_power (s : State) (i : Nat) (g : Core → Core) : (s.updCore i g).power = s.power := rfl
@[simp] theorem State.updCore_link (s : State) (i : Nat) (g : Core → Core) : (s.updCore i g).link = s.link := rfl
@[simp] theorem State.updCore_spdm (s : State) (i : Nat) (g : Core → Core) : (s.updCore i g).spdm = s.spdm := rfl
@[simp] theorem State.updCore_mem (s : State) (i : Nat) (g : Core → Core) : (s.updCore i g).mem = s.mem := rfl
@[simp] theorem State.updCore_host (s : State) (i : Nat) (g : Core → Core) : (s.updCore i g).host = s.host := rfl
@[simp] theorem State.updCore_xlt (s : State) (i : Nat) (g : Core → Core) : (s.updCore i g).xlt = s.xlt := rfl
@[simp] theorem State.updCore_ras (s : State) (i : Nat) (g : Core → Core) : (s.updCore i g).ras = s.ras := rfl
@[simp] theorem State.updCore_coreRas (s : State) (i : Nat) (g : Core → Core) : (s.updCore i g).coreRas = s.coreRas := rfl
@[simp] theorem State.updCore_fns (s : State) (i : Nat) (g : Core → Core) : (s.updCore i g).fns = s.fns := rfl
@[simp] theorem State.updCore_queues (s : State) (i : Nat) (g : Core → Core) : (s.updCore i g).queues = s.queues := rfl
@[simp] theorem State.updCore_cmds (s : State) (i : Nat) (g : Core → Core) : (s.updCore i g).cmds = s.cmds := rfl
@[simp] theorem State.updCore_ctxs (s : State) (i : Nat) (g : Core → Core) : (s.updCore i g).ctxs = s.ctxs := rfl
@[simp] theorem State.updCore_parts (s : State) (i : Nat) (g : Core → Core) : (s.updCore i g).parts = s.parts := rfl
@[simp] theorem State.updCore_serviceShare (s : State) (i : Nat) (g : Core → Core) : (s.updCore i g).serviceShare = s.serviceShare := rfl
@[simp] theorem State.updCore_serviceRead (s : State) (i : Nat) (g : Core → Core) : (s.updCore i g).serviceRead = s.serviceRead := rfl
@[simp] theorem State.updCore_serviceWrite (s : State) (i : Nat) (g : Core → Core) : (s.updCore i g).serviceWrite = s.serviceWrite := rfl
@[simp] theorem State.updCore_nextService (s : State) (i : Nat) (g : Core → Core) : (s.updCore i g).nextService = s.nextService := rfl
@[simp] theorem State.updCore_serviceLeft (s : State) (i : Nat) (g : Core → Core) : (s.updCore i g).serviceLeft = s.serviceLeft := rfl
@[simp] theorem State.updCore_serviceOps (s : State) (i : Nat) (g : Core → Core) : (s.updCore i g).serviceOps = s.serviceOps := rfl
@[simp] theorem State.updCore_moveOps (s : State) (i : Nat) (g : Core → Core) : (s.updCore i g).moveOps = s.moveOps := rfl
@[simp] theorem State.updCore_slices (s : State) (i : Nat) (g : Core → Core) : (s.updCore i g).slices = s.slices := rfl
@[simp] theorem State.updCore_exchanges (s : State) (i : Nat) (g : Core → Core) : (s.updCore i g).exchanges = s.exchanges := rfl
@[simp] theorem State.updCore_outbox (s : State) (i : Nat) (g : Core → Core) : (s.updCore i g).outbox = s.outbox := rfl
@[simp] theorem State.updCore_dram (s : State) (i : Nat) (g : Core → Core) : (s.updCore i g).dram = s.dram := rfl
@[simp] theorem State.updCore_flows (s : State) (i : Nat) (g : Core → Core) : (s.updCore i g).flows = s.flows := rfl
@[simp] theorem State.updCore_prefetch (s : State) (i : Nat) (g : Core → Core) : (s.updCore i g).prefetch = s.prefetch := rfl
@[simp] theorem State.updCore_tables (s : State) (i : Nat) (g : Core → Core) : (s.updCore i g).tables = s.tables := rfl
@[simp] theorem State.updCore_firmUnits (s : State) (i : Nat) (g : Core → Core) : (s.updCore i g).firmUnits = s.firmUnits := rfl
@[simp] theorem State.updCore_loads (s : State) (i : Nat) (g : Core → Core) : (s.updCore i g).loads = s.loads := rfl
@[simp] theorem State.updCore_directory (s : State) (i : Nat) (g : Core → Core) : (s.updCore i g).directory = s.directory := rfl
@[simp] theorem State.updCore_epochs (s : State) (i : Nat) (g : Core → Core) : (s.updCore i g).epochs = s.epochs := rfl
@[simp] theorem State.updCore_barriers (s : State) (i : Nat) (g : Core → Core) : (s.updCore i g).barriers = s.barriers := rfl
@[simp] theorem State.updCore_arrivals (s : State) (i : Nat) (g : Core → Core) : (s.updCore i g).arrivals = s.arrivals := rfl
@[simp] theorem State.updCore_rereads (s : State) (i : Nat) (g : Core → Core) : (s.updCore i g).rereads = s.rereads := rfl
@[simp] theorem State.updCore_ports (s : State) (i : Nat) (g : Core → Core) : (s.updCore i g).ports = s.ports := rfl
@[simp] theorem State.updCore_pool (s : State) (i : Nat) (g : Core → Core) : (s.updCore i g).pool = s.pool := rfl
@[simp] theorem State.updCore_cpWrite (s : State) (i : Nat) (g : Core → Core) : (s.updCore i g).cpWrite = s.cpWrite := rfl

@[simp] theorem State.updCore_rasOf (s : State) (i j : Nat) (g : Core → Core) : (s.updCore i g).rasOf j = s.rasOf j := rfl
@[simp] theorem State.updCore_fn (s : State) (i j : Nat) (g : Core → Core) : (s.updCore i g).fn j = s.fn j := rfl
@[simp] theorem State.updCore_queue (s : State) (i j : Nat) (g : Core → Core) : (s.updCore i g).queue j = s.queue j := rfl
@[simp] theorem State.updCore_ctx (s : State) (i j : Nat) (g : Core → Core) : (s.updCore i g).ctx j = s.ctx j := rfl
@[simp] theorem State.updCore_part (s : State) (i j : Nat) (g : Core → Core) : (s.updCore i g).part j = s.part j := rfl
@[simp] theorem State.updCore_slice (s : State) (i j : Nat) (g : Core → Core) : (s.updCore i g).slice j = s.slice j := rfl
@[simp] theorem State.updCore_exch (s : State) (i j : Nat) (g : Core → Core) : (s.updCore i g).exch j = s.exch j := rfl
@[simp] theorem State.updCore_table (s : State) (i j : Nat) (g : Core → Core) : (s.updCore i g).table j = s.table j := rfl
@[simp] theorem State.updCore_port (s : State) (i j : Nat) (g : Core → Core) : (s.updCore i g).port j = s.port j := rfl
@[simp] theorem State.updCore_clusterPower (s : State) (i j : Nat) (g : Core → Core) : (s.updCore i g).clusterPower j = s.clusterPower j := rfl

/-! ### `State.updRas` -/

@[simp] theorem State.updRas_rasOf_self (s : State) (i : Nat) (g : CoreRas → CoreRas) : (s.updRas i g).rasOf i = g (s.rasOf i) := by
  simp [State.updRas, State.rasOf]

theorem State.updRas_rasOf_ne (s : State) {i j : Nat} (g : CoreRas → CoreRas) (h : j ≠ i) : (s.updRas i g).rasOf j = s.rasOf j := by
  simp [State.updRas, State.rasOf, kget_kmod_ne, h]

@[simp] theorem State.updRas_pending (s : State) (i : Nat) (g : CoreRas → CoreRas) : (s.updRas i g).pending = s.pending := rfl
@[simp] theorem State.updRas_freeCtr (s : State) (i : Nat) (g : CoreRas → CoreRas) : (s.updRas i g).freeCtr = s.freeCtr := rfl
@[simp] theorem State.updRas_refCount (s : State) (i : Nat) (g : CoreRas → CoreRas) : (s.updRas i g).refCount = s.refCount := rfl
@[simp] theorem State.updRas_module (s : State) (i : Nat) (g : CoreRas → CoreRas) : (s.updRas i g).module = s.module := rfl
@[simp] theorem State.updRas_service (s : State) (i : Nat) (g : CoreRas → CoreRas) : (s.updRas i g).service = s.service := rfl
@[simp] theorem State.updRas_power (s : State) (i : Nat) (g : CoreRas → CoreRas) : (s.updRas i g).power = s.power := rfl
@[simp] theorem State.updRas_link (s : State) (i : Nat) (g : CoreRas → CoreRas) : (s.updRas i g).link = s.link := rfl
@[simp] theorem State.updRas_spdm (s : State) (i : Nat) (g : CoreRas → CoreRas) : (s.updRas i g).spdm = s.spdm := rfl
@[simp] theorem State.updRas_mem (s : State) (i : Nat) (g : CoreRas → CoreRas) : (s.updRas i g).mem = s.mem := rfl
@[simp] theorem State.updRas_host (s : State) (i : Nat) (g : CoreRas → CoreRas) : (s.updRas i g).host = s.host := rfl
@[simp] theorem State.updRas_xlt (s : State) (i : Nat) (g : CoreRas → CoreRas) : (s.updRas i g).xlt = s.xlt := rfl
@[simp] theorem State.updRas_ras (s : State) (i : Nat) (g : CoreRas → CoreRas) : (s.updRas i g).ras = s.ras := rfl
@[simp] theorem State.updRas_fns (s : State) (i : Nat) (g : CoreRas → CoreRas) : (s.updRas i g).fns = s.fns := rfl
@[simp] theorem State.updRas_queues (s : State) (i : Nat) (g : CoreRas → CoreRas) : (s.updRas i g).queues = s.queues := rfl
@[simp] theorem State.updRas_cmds (s : State) (i : Nat) (g : CoreRas → CoreRas) : (s.updRas i g).cmds = s.cmds := rfl
@[simp] theorem State.updRas_ctxs (s : State) (i : Nat) (g : CoreRas → CoreRas) : (s.updRas i g).ctxs = s.ctxs := rfl
@[simp] theorem State.updRas_parts (s : State) (i : Nat) (g : CoreRas → CoreRas) : (s.updRas i g).parts = s.parts := rfl
@[simp] theorem State.updRas_serviceShare (s : State) (i : Nat) (g : CoreRas → CoreRas) : (s.updRas i g).serviceShare = s.serviceShare := rfl
@[simp] theorem State.updRas_serviceRead (s : State) (i : Nat) (g : CoreRas → CoreRas) : (s.updRas i g).serviceRead = s.serviceRead := rfl
@[simp] theorem State.updRas_serviceWrite (s : State) (i : Nat) (g : CoreRas → CoreRas) : (s.updRas i g).serviceWrite = s.serviceWrite := rfl
@[simp] theorem State.updRas_nextService (s : State) (i : Nat) (g : CoreRas → CoreRas) : (s.updRas i g).nextService = s.nextService := rfl
@[simp] theorem State.updRas_serviceLeft (s : State) (i : Nat) (g : CoreRas → CoreRas) : (s.updRas i g).serviceLeft = s.serviceLeft := rfl
@[simp] theorem State.updRas_serviceOps (s : State) (i : Nat) (g : CoreRas → CoreRas) : (s.updRas i g).serviceOps = s.serviceOps := rfl
@[simp] theorem State.updRas_moveOps (s : State) (i : Nat) (g : CoreRas → CoreRas) : (s.updRas i g).moveOps = s.moveOps := rfl
@[simp] theorem State.updRas_cores (s : State) (i : Nat) (g : CoreRas → CoreRas) : (s.updRas i g).cores = s.cores := rfl
@[simp] theorem State.updRas_slices (s : State) (i : Nat) (g : CoreRas → CoreRas) : (s.updRas i g).slices = s.slices := rfl
@[simp] theorem State.updRas_exchanges (s : State) (i : Nat) (g : CoreRas → CoreRas) : (s.updRas i g).exchanges = s.exchanges := rfl
@[simp] theorem State.updRas_outbox (s : State) (i : Nat) (g : CoreRas → CoreRas) : (s.updRas i g).outbox = s.outbox := rfl
@[simp] theorem State.updRas_dram (s : State) (i : Nat) (g : CoreRas → CoreRas) : (s.updRas i g).dram = s.dram := rfl
@[simp] theorem State.updRas_flows (s : State) (i : Nat) (g : CoreRas → CoreRas) : (s.updRas i g).flows = s.flows := rfl
@[simp] theorem State.updRas_prefetch (s : State) (i : Nat) (g : CoreRas → CoreRas) : (s.updRas i g).prefetch = s.prefetch := rfl
@[simp] theorem State.updRas_tables (s : State) (i : Nat) (g : CoreRas → CoreRas) : (s.updRas i g).tables = s.tables := rfl
@[simp] theorem State.updRas_firmUnits (s : State) (i : Nat) (g : CoreRas → CoreRas) : (s.updRas i g).firmUnits = s.firmUnits := rfl
@[simp] theorem State.updRas_loads (s : State) (i : Nat) (g : CoreRas → CoreRas) : (s.updRas i g).loads = s.loads := rfl
@[simp] theorem State.updRas_directory (s : State) (i : Nat) (g : CoreRas → CoreRas) : (s.updRas i g).directory = s.directory := rfl
@[simp] theorem State.updRas_epochs (s : State) (i : Nat) (g : CoreRas → CoreRas) : (s.updRas i g).epochs = s.epochs := rfl
@[simp] theorem State.updRas_barriers (s : State) (i : Nat) (g : CoreRas → CoreRas) : (s.updRas i g).barriers = s.barriers := rfl
@[simp] theorem State.updRas_arrivals (s : State) (i : Nat) (g : CoreRas → CoreRas) : (s.updRas i g).arrivals = s.arrivals := rfl
@[simp] theorem State.updRas_rereads (s : State) (i : Nat) (g : CoreRas → CoreRas) : (s.updRas i g).rereads = s.rereads := rfl
@[simp] theorem State.updRas_ports (s : State) (i : Nat) (g : CoreRas → CoreRas) : (s.updRas i g).ports = s.ports := rfl
@[simp] theorem State.updRas_pool (s : State) (i : Nat) (g : CoreRas → CoreRas) : (s.updRas i g).pool = s.pool := rfl
@[simp] theorem State.updRas_cpWrite (s : State) (i : Nat) (g : CoreRas → CoreRas) : (s.updRas i g).cpWrite = s.cpWrite := rfl

@[simp] theorem State.updRas_core (s : State) (i j : Nat) (g : CoreRas → CoreRas) : (s.updRas i g).core j = s.core j := rfl
@[simp] theorem State.updRas_fn (s : State) (i j : Nat) (g : CoreRas → CoreRas) : (s.updRas i g).fn j = s.fn j := rfl
@[simp] theorem State.updRas_queue (s : State) (i j : Nat) (g : CoreRas → CoreRas) : (s.updRas i g).queue j = s.queue j := rfl
@[simp] theorem State.updRas_ctx (s : State) (i j : Nat) (g : CoreRas → CoreRas) : (s.updRas i g).ctx j = s.ctx j := rfl
@[simp] theorem State.updRas_part (s : State) (i j : Nat) (g : CoreRas → CoreRas) : (s.updRas i g).part j = s.part j := rfl
@[simp] theorem State.updRas_slice (s : State) (i j : Nat) (g : CoreRas → CoreRas) : (s.updRas i g).slice j = s.slice j := rfl
@[simp] theorem State.updRas_exch (s : State) (i j : Nat) (g : CoreRas → CoreRas) : (s.updRas i g).exch j = s.exch j := rfl
@[simp] theorem State.updRas_table (s : State) (i j : Nat) (g : CoreRas → CoreRas) : (s.updRas i g).table j = s.table j := rfl
@[simp] theorem State.updRas_port (s : State) (i j : Nat) (g : CoreRas → CoreRas) : (s.updRas i g).port j = s.port j := rfl
@[simp] theorem State.updRas_clusterPower (s : State) (i j : Nat) (g : CoreRas → CoreRas) : (s.updRas i g).clusterPower j = s.clusterPower j := rfl

/-! ### `State.updFn` -/

@[simp] theorem State.updFn_fn_self (s : State) (i : Nat) (g : Fn → Fn) : (s.updFn i g).fn i = g (s.fn i) := by
  simp [State.updFn, State.fn]

theorem State.updFn_fn_ne (s : State) {i j : Nat} (g : Fn → Fn) (h : j ≠ i) : (s.updFn i g).fn j = s.fn j := by
  simp [State.updFn, State.fn, kget_kmod_ne, h]

@[simp] theorem State.updFn_pending (s : State) (i : Nat) (g : Fn → Fn) : (s.updFn i g).pending = s.pending := rfl
@[simp] theorem State.updFn_freeCtr (s : State) (i : Nat) (g : Fn → Fn) : (s.updFn i g).freeCtr = s.freeCtr := rfl
@[simp] theorem State.updFn_refCount (s : State) (i : Nat) (g : Fn → Fn) : (s.updFn i g).refCount = s.refCount := rfl
@[simp] theorem State.updFn_module (s : State) (i : Nat) (g : Fn → Fn) : (s.updFn i g).module = s.module := rfl
@[simp] theorem State.updFn_service (s : State) (i : Nat) (g : Fn → Fn) : (s.updFn i g).service = s.service := rfl
@[simp] theorem State.updFn_power (s : State) (i : Nat) (g : Fn → Fn) : (s.updFn i g).power = s.power := rfl
@[simp] theorem State.updFn_link (s : State) (i : Nat) (g : Fn → Fn) : (s.updFn i g).link = s.link := rfl
@[simp] theorem State.updFn_spdm (s : State) (i : Nat) (g : Fn → Fn) : (s.updFn i g).spdm = s.spdm := rfl
@[simp] theorem State.updFn_mem (s : State) (i : Nat) (g : Fn → Fn) : (s.updFn i g).mem = s.mem := rfl
@[simp] theorem State.updFn_host (s : State) (i : Nat) (g : Fn → Fn) : (s.updFn i g).host = s.host := rfl
@[simp] theorem State.updFn_xlt (s : State) (i : Nat) (g : Fn → Fn) : (s.updFn i g).xlt = s.xlt := rfl
@[simp] theorem State.updFn_ras (s : State) (i : Nat) (g : Fn → Fn) : (s.updFn i g).ras = s.ras := rfl
@[simp] theorem State.updFn_coreRas (s : State) (i : Nat) (g : Fn → Fn) : (s.updFn i g).coreRas = s.coreRas := rfl
@[simp] theorem State.updFn_queues (s : State) (i : Nat) (g : Fn → Fn) : (s.updFn i g).queues = s.queues := rfl
@[simp] theorem State.updFn_cmds (s : State) (i : Nat) (g : Fn → Fn) : (s.updFn i g).cmds = s.cmds := rfl
@[simp] theorem State.updFn_ctxs (s : State) (i : Nat) (g : Fn → Fn) : (s.updFn i g).ctxs = s.ctxs := rfl
@[simp] theorem State.updFn_parts (s : State) (i : Nat) (g : Fn → Fn) : (s.updFn i g).parts = s.parts := rfl
@[simp] theorem State.updFn_serviceShare (s : State) (i : Nat) (g : Fn → Fn) : (s.updFn i g).serviceShare = s.serviceShare := rfl
@[simp] theorem State.updFn_serviceRead (s : State) (i : Nat) (g : Fn → Fn) : (s.updFn i g).serviceRead = s.serviceRead := rfl
@[simp] theorem State.updFn_serviceWrite (s : State) (i : Nat) (g : Fn → Fn) : (s.updFn i g).serviceWrite = s.serviceWrite := rfl
@[simp] theorem State.updFn_nextService (s : State) (i : Nat) (g : Fn → Fn) : (s.updFn i g).nextService = s.nextService := rfl
@[simp] theorem State.updFn_serviceLeft (s : State) (i : Nat) (g : Fn → Fn) : (s.updFn i g).serviceLeft = s.serviceLeft := rfl
@[simp] theorem State.updFn_serviceOps (s : State) (i : Nat) (g : Fn → Fn) : (s.updFn i g).serviceOps = s.serviceOps := rfl
@[simp] theorem State.updFn_moveOps (s : State) (i : Nat) (g : Fn → Fn) : (s.updFn i g).moveOps = s.moveOps := rfl
@[simp] theorem State.updFn_cores (s : State) (i : Nat) (g : Fn → Fn) : (s.updFn i g).cores = s.cores := rfl
@[simp] theorem State.updFn_slices (s : State) (i : Nat) (g : Fn → Fn) : (s.updFn i g).slices = s.slices := rfl
@[simp] theorem State.updFn_exchanges (s : State) (i : Nat) (g : Fn → Fn) : (s.updFn i g).exchanges = s.exchanges := rfl
@[simp] theorem State.updFn_outbox (s : State) (i : Nat) (g : Fn → Fn) : (s.updFn i g).outbox = s.outbox := rfl
@[simp] theorem State.updFn_dram (s : State) (i : Nat) (g : Fn → Fn) : (s.updFn i g).dram = s.dram := rfl
@[simp] theorem State.updFn_flows (s : State) (i : Nat) (g : Fn → Fn) : (s.updFn i g).flows = s.flows := rfl
@[simp] theorem State.updFn_prefetch (s : State) (i : Nat) (g : Fn → Fn) : (s.updFn i g).prefetch = s.prefetch := rfl
@[simp] theorem State.updFn_tables (s : State) (i : Nat) (g : Fn → Fn) : (s.updFn i g).tables = s.tables := rfl
@[simp] theorem State.updFn_firmUnits (s : State) (i : Nat) (g : Fn → Fn) : (s.updFn i g).firmUnits = s.firmUnits := rfl
@[simp] theorem State.updFn_loads (s : State) (i : Nat) (g : Fn → Fn) : (s.updFn i g).loads = s.loads := rfl
@[simp] theorem State.updFn_directory (s : State) (i : Nat) (g : Fn → Fn) : (s.updFn i g).directory = s.directory := rfl
@[simp] theorem State.updFn_epochs (s : State) (i : Nat) (g : Fn → Fn) : (s.updFn i g).epochs = s.epochs := rfl
@[simp] theorem State.updFn_barriers (s : State) (i : Nat) (g : Fn → Fn) : (s.updFn i g).barriers = s.barriers := rfl
@[simp] theorem State.updFn_arrivals (s : State) (i : Nat) (g : Fn → Fn) : (s.updFn i g).arrivals = s.arrivals := rfl
@[simp] theorem State.updFn_rereads (s : State) (i : Nat) (g : Fn → Fn) : (s.updFn i g).rereads = s.rereads := rfl
@[simp] theorem State.updFn_ports (s : State) (i : Nat) (g : Fn → Fn) : (s.updFn i g).ports = s.ports := rfl
@[simp] theorem State.updFn_pool (s : State) (i : Nat) (g : Fn → Fn) : (s.updFn i g).pool = s.pool := rfl
@[simp] theorem State.updFn_cpWrite (s : State) (i : Nat) (g : Fn → Fn) : (s.updFn i g).cpWrite = s.cpWrite := rfl

@[simp] theorem State.updFn_core (s : State) (i j : Nat) (g : Fn → Fn) : (s.updFn i g).core j = s.core j := rfl
@[simp] theorem State.updFn_rasOf (s : State) (i j : Nat) (g : Fn → Fn) : (s.updFn i g).rasOf j = s.rasOf j := rfl
@[simp] theorem State.updFn_queue (s : State) (i j : Nat) (g : Fn → Fn) : (s.updFn i g).queue j = s.queue j := rfl
@[simp] theorem State.updFn_ctx (s : State) (i j : Nat) (g : Fn → Fn) : (s.updFn i g).ctx j = s.ctx j := rfl
@[simp] theorem State.updFn_part (s : State) (i j : Nat) (g : Fn → Fn) : (s.updFn i g).part j = s.part j := rfl
@[simp] theorem State.updFn_slice (s : State) (i j : Nat) (g : Fn → Fn) : (s.updFn i g).slice j = s.slice j := rfl
@[simp] theorem State.updFn_exch (s : State) (i j : Nat) (g : Fn → Fn) : (s.updFn i g).exch j = s.exch j := rfl
@[simp] theorem State.updFn_table (s : State) (i j : Nat) (g : Fn → Fn) : (s.updFn i g).table j = s.table j := rfl
@[simp] theorem State.updFn_port (s : State) (i j : Nat) (g : Fn → Fn) : (s.updFn i g).port j = s.port j := rfl
@[simp] theorem State.updFn_clusterPower (s : State) (i j : Nat) (g : Fn → Fn) : (s.updFn i g).clusterPower j = s.clusterPower j := rfl

/-! ### `State.updQueue` -/

@[simp] theorem State.updQueue_queue_self (s : State) (i : Nat) (g : SQueue → SQueue) : (s.updQueue i g).queue i = g (s.queue i) := by
  simp [State.updQueue, State.queue]

theorem State.updQueue_queue_ne (s : State) {i j : Nat} (g : SQueue → SQueue) (h : j ≠ i) : (s.updQueue i g).queue j = s.queue j := by
  simp [State.updQueue, State.queue, kget_kmod_ne, h]

@[simp] theorem State.updQueue_pending (s : State) (i : Nat) (g : SQueue → SQueue) : (s.updQueue i g).pending = s.pending := rfl
@[simp] theorem State.updQueue_freeCtr (s : State) (i : Nat) (g : SQueue → SQueue) : (s.updQueue i g).freeCtr = s.freeCtr := rfl
@[simp] theorem State.updQueue_refCount (s : State) (i : Nat) (g : SQueue → SQueue) : (s.updQueue i g).refCount = s.refCount := rfl
@[simp] theorem State.updQueue_module (s : State) (i : Nat) (g : SQueue → SQueue) : (s.updQueue i g).module = s.module := rfl
@[simp] theorem State.updQueue_service (s : State) (i : Nat) (g : SQueue → SQueue) : (s.updQueue i g).service = s.service := rfl
@[simp] theorem State.updQueue_power (s : State) (i : Nat) (g : SQueue → SQueue) : (s.updQueue i g).power = s.power := rfl
@[simp] theorem State.updQueue_link (s : State) (i : Nat) (g : SQueue → SQueue) : (s.updQueue i g).link = s.link := rfl
@[simp] theorem State.updQueue_spdm (s : State) (i : Nat) (g : SQueue → SQueue) : (s.updQueue i g).spdm = s.spdm := rfl
@[simp] theorem State.updQueue_mem (s : State) (i : Nat) (g : SQueue → SQueue) : (s.updQueue i g).mem = s.mem := rfl
@[simp] theorem State.updQueue_host (s : State) (i : Nat) (g : SQueue → SQueue) : (s.updQueue i g).host = s.host := rfl
@[simp] theorem State.updQueue_xlt (s : State) (i : Nat) (g : SQueue → SQueue) : (s.updQueue i g).xlt = s.xlt := rfl
@[simp] theorem State.updQueue_ras (s : State) (i : Nat) (g : SQueue → SQueue) : (s.updQueue i g).ras = s.ras := rfl
@[simp] theorem State.updQueue_coreRas (s : State) (i : Nat) (g : SQueue → SQueue) : (s.updQueue i g).coreRas = s.coreRas := rfl
@[simp] theorem State.updQueue_fns (s : State) (i : Nat) (g : SQueue → SQueue) : (s.updQueue i g).fns = s.fns := rfl
@[simp] theorem State.updQueue_cmds (s : State) (i : Nat) (g : SQueue → SQueue) : (s.updQueue i g).cmds = s.cmds := rfl
@[simp] theorem State.updQueue_ctxs (s : State) (i : Nat) (g : SQueue → SQueue) : (s.updQueue i g).ctxs = s.ctxs := rfl
@[simp] theorem State.updQueue_parts (s : State) (i : Nat) (g : SQueue → SQueue) : (s.updQueue i g).parts = s.parts := rfl
@[simp] theorem State.updQueue_serviceShare (s : State) (i : Nat) (g : SQueue → SQueue) : (s.updQueue i g).serviceShare = s.serviceShare := rfl
@[simp] theorem State.updQueue_serviceRead (s : State) (i : Nat) (g : SQueue → SQueue) : (s.updQueue i g).serviceRead = s.serviceRead := rfl
@[simp] theorem State.updQueue_serviceWrite (s : State) (i : Nat) (g : SQueue → SQueue) : (s.updQueue i g).serviceWrite = s.serviceWrite := rfl
@[simp] theorem State.updQueue_nextService (s : State) (i : Nat) (g : SQueue → SQueue) : (s.updQueue i g).nextService = s.nextService := rfl
@[simp] theorem State.updQueue_serviceLeft (s : State) (i : Nat) (g : SQueue → SQueue) : (s.updQueue i g).serviceLeft = s.serviceLeft := rfl
@[simp] theorem State.updQueue_serviceOps (s : State) (i : Nat) (g : SQueue → SQueue) : (s.updQueue i g).serviceOps = s.serviceOps := rfl
@[simp] theorem State.updQueue_moveOps (s : State) (i : Nat) (g : SQueue → SQueue) : (s.updQueue i g).moveOps = s.moveOps := rfl
@[simp] theorem State.updQueue_cores (s : State) (i : Nat) (g : SQueue → SQueue) : (s.updQueue i g).cores = s.cores := rfl
@[simp] theorem State.updQueue_slices (s : State) (i : Nat) (g : SQueue → SQueue) : (s.updQueue i g).slices = s.slices := rfl
@[simp] theorem State.updQueue_exchanges (s : State) (i : Nat) (g : SQueue → SQueue) : (s.updQueue i g).exchanges = s.exchanges := rfl
@[simp] theorem State.updQueue_outbox (s : State) (i : Nat) (g : SQueue → SQueue) : (s.updQueue i g).outbox = s.outbox := rfl
@[simp] theorem State.updQueue_dram (s : State) (i : Nat) (g : SQueue → SQueue) : (s.updQueue i g).dram = s.dram := rfl
@[simp] theorem State.updQueue_flows (s : State) (i : Nat) (g : SQueue → SQueue) : (s.updQueue i g).flows = s.flows := rfl
@[simp] theorem State.updQueue_prefetch (s : State) (i : Nat) (g : SQueue → SQueue) : (s.updQueue i g).prefetch = s.prefetch := rfl
@[simp] theorem State.updQueue_tables (s : State) (i : Nat) (g : SQueue → SQueue) : (s.updQueue i g).tables = s.tables := rfl
@[simp] theorem State.updQueue_firmUnits (s : State) (i : Nat) (g : SQueue → SQueue) : (s.updQueue i g).firmUnits = s.firmUnits := rfl
@[simp] theorem State.updQueue_loads (s : State) (i : Nat) (g : SQueue → SQueue) : (s.updQueue i g).loads = s.loads := rfl
@[simp] theorem State.updQueue_directory (s : State) (i : Nat) (g : SQueue → SQueue) : (s.updQueue i g).directory = s.directory := rfl
@[simp] theorem State.updQueue_epochs (s : State) (i : Nat) (g : SQueue → SQueue) : (s.updQueue i g).epochs = s.epochs := rfl
@[simp] theorem State.updQueue_barriers (s : State) (i : Nat) (g : SQueue → SQueue) : (s.updQueue i g).barriers = s.barriers := rfl
@[simp] theorem State.updQueue_arrivals (s : State) (i : Nat) (g : SQueue → SQueue) : (s.updQueue i g).arrivals = s.arrivals := rfl
@[simp] theorem State.updQueue_rereads (s : State) (i : Nat) (g : SQueue → SQueue) : (s.updQueue i g).rereads = s.rereads := rfl
@[simp] theorem State.updQueue_ports (s : State) (i : Nat) (g : SQueue → SQueue) : (s.updQueue i g).ports = s.ports := rfl
@[simp] theorem State.updQueue_pool (s : State) (i : Nat) (g : SQueue → SQueue) : (s.updQueue i g).pool = s.pool := rfl
@[simp] theorem State.updQueue_cpWrite (s : State) (i : Nat) (g : SQueue → SQueue) : (s.updQueue i g).cpWrite = s.cpWrite := rfl

@[simp] theorem State.updQueue_core (s : State) (i j : Nat) (g : SQueue → SQueue) : (s.updQueue i g).core j = s.core j := rfl
@[simp] theorem State.updQueue_rasOf (s : State) (i j : Nat) (g : SQueue → SQueue) : (s.updQueue i g).rasOf j = s.rasOf j := rfl
@[simp] theorem State.updQueue_fn (s : State) (i j : Nat) (g : SQueue → SQueue) : (s.updQueue i g).fn j = s.fn j := rfl
@[simp] theorem State.updQueue_ctx (s : State) (i j : Nat) (g : SQueue → SQueue) : (s.updQueue i g).ctx j = s.ctx j := rfl
@[simp] theorem State.updQueue_part (s : State) (i j : Nat) (g : SQueue → SQueue) : (s.updQueue i g).part j = s.part j := rfl
@[simp] theorem State.updQueue_slice (s : State) (i j : Nat) (g : SQueue → SQueue) : (s.updQueue i g).slice j = s.slice j := rfl
@[simp] theorem State.updQueue_exch (s : State) (i j : Nat) (g : SQueue → SQueue) : (s.updQueue i g).exch j = s.exch j := rfl
@[simp] theorem State.updQueue_table (s : State) (i j : Nat) (g : SQueue → SQueue) : (s.updQueue i g).table j = s.table j := rfl
@[simp] theorem State.updQueue_port (s : State) (i j : Nat) (g : SQueue → SQueue) : (s.updQueue i g).port j = s.port j := rfl
@[simp] theorem State.updQueue_clusterPower (s : State) (i j : Nat) (g : SQueue → SQueue) : (s.updQueue i g).clusterPower j = s.clusterPower j := rfl

/-! ### `State.updCtx` -/

@[simp] theorem State.updCtx_ctx_self (s : State) (i : Nat) (g : Ctx → Ctx) : (s.updCtx i g).ctx i = g (s.ctx i) := by
  simp [State.updCtx, State.ctx]

theorem State.updCtx_ctx_ne (s : State) {i j : Nat} (g : Ctx → Ctx) (h : j ≠ i) : (s.updCtx i g).ctx j = s.ctx j := by
  simp [State.updCtx, State.ctx, kget_kmod_ne, h]

@[simp] theorem State.updCtx_pending (s : State) (i : Nat) (g : Ctx → Ctx) : (s.updCtx i g).pending = s.pending := rfl
@[simp] theorem State.updCtx_freeCtr (s : State) (i : Nat) (g : Ctx → Ctx) : (s.updCtx i g).freeCtr = s.freeCtr := rfl
@[simp] theorem State.updCtx_refCount (s : State) (i : Nat) (g : Ctx → Ctx) : (s.updCtx i g).refCount = s.refCount := rfl
@[simp] theorem State.updCtx_module (s : State) (i : Nat) (g : Ctx → Ctx) : (s.updCtx i g).module = s.module := rfl
@[simp] theorem State.updCtx_service (s : State) (i : Nat) (g : Ctx → Ctx) : (s.updCtx i g).service = s.service := rfl
@[simp] theorem State.updCtx_power (s : State) (i : Nat) (g : Ctx → Ctx) : (s.updCtx i g).power = s.power := rfl
@[simp] theorem State.updCtx_link (s : State) (i : Nat) (g : Ctx → Ctx) : (s.updCtx i g).link = s.link := rfl
@[simp] theorem State.updCtx_spdm (s : State) (i : Nat) (g : Ctx → Ctx) : (s.updCtx i g).spdm = s.spdm := rfl
@[simp] theorem State.updCtx_mem (s : State) (i : Nat) (g : Ctx → Ctx) : (s.updCtx i g).mem = s.mem := rfl
@[simp] theorem State.updCtx_host (s : State) (i : Nat) (g : Ctx → Ctx) : (s.updCtx i g).host = s.host := rfl
@[simp] theorem State.updCtx_xlt (s : State) (i : Nat) (g : Ctx → Ctx) : (s.updCtx i g).xlt = s.xlt := rfl
@[simp] theorem State.updCtx_ras (s : State) (i : Nat) (g : Ctx → Ctx) : (s.updCtx i g).ras = s.ras := rfl
@[simp] theorem State.updCtx_coreRas (s : State) (i : Nat) (g : Ctx → Ctx) : (s.updCtx i g).coreRas = s.coreRas := rfl
@[simp] theorem State.updCtx_fns (s : State) (i : Nat) (g : Ctx → Ctx) : (s.updCtx i g).fns = s.fns := rfl
@[simp] theorem State.updCtx_queues (s : State) (i : Nat) (g : Ctx → Ctx) : (s.updCtx i g).queues = s.queues := rfl
@[simp] theorem State.updCtx_cmds (s : State) (i : Nat) (g : Ctx → Ctx) : (s.updCtx i g).cmds = s.cmds := rfl
@[simp] theorem State.updCtx_parts (s : State) (i : Nat) (g : Ctx → Ctx) : (s.updCtx i g).parts = s.parts := rfl
@[simp] theorem State.updCtx_serviceShare (s : State) (i : Nat) (g : Ctx → Ctx) : (s.updCtx i g).serviceShare = s.serviceShare := rfl
@[simp] theorem State.updCtx_serviceRead (s : State) (i : Nat) (g : Ctx → Ctx) : (s.updCtx i g).serviceRead = s.serviceRead := rfl
@[simp] theorem State.updCtx_serviceWrite (s : State) (i : Nat) (g : Ctx → Ctx) : (s.updCtx i g).serviceWrite = s.serviceWrite := rfl
@[simp] theorem State.updCtx_nextService (s : State) (i : Nat) (g : Ctx → Ctx) : (s.updCtx i g).nextService = s.nextService := rfl
@[simp] theorem State.updCtx_serviceLeft (s : State) (i : Nat) (g : Ctx → Ctx) : (s.updCtx i g).serviceLeft = s.serviceLeft := rfl
@[simp] theorem State.updCtx_serviceOps (s : State) (i : Nat) (g : Ctx → Ctx) : (s.updCtx i g).serviceOps = s.serviceOps := rfl
@[simp] theorem State.updCtx_moveOps (s : State) (i : Nat) (g : Ctx → Ctx) : (s.updCtx i g).moveOps = s.moveOps := rfl
@[simp] theorem State.updCtx_cores (s : State) (i : Nat) (g : Ctx → Ctx) : (s.updCtx i g).cores = s.cores := rfl
@[simp] theorem State.updCtx_slices (s : State) (i : Nat) (g : Ctx → Ctx) : (s.updCtx i g).slices = s.slices := rfl
@[simp] theorem State.updCtx_exchanges (s : State) (i : Nat) (g : Ctx → Ctx) : (s.updCtx i g).exchanges = s.exchanges := rfl
@[simp] theorem State.updCtx_outbox (s : State) (i : Nat) (g : Ctx → Ctx) : (s.updCtx i g).outbox = s.outbox := rfl
@[simp] theorem State.updCtx_dram (s : State) (i : Nat) (g : Ctx → Ctx) : (s.updCtx i g).dram = s.dram := rfl
@[simp] theorem State.updCtx_flows (s : State) (i : Nat) (g : Ctx → Ctx) : (s.updCtx i g).flows = s.flows := rfl
@[simp] theorem State.updCtx_prefetch (s : State) (i : Nat) (g : Ctx → Ctx) : (s.updCtx i g).prefetch = s.prefetch := rfl
@[simp] theorem State.updCtx_tables (s : State) (i : Nat) (g : Ctx → Ctx) : (s.updCtx i g).tables = s.tables := rfl
@[simp] theorem State.updCtx_firmUnits (s : State) (i : Nat) (g : Ctx → Ctx) : (s.updCtx i g).firmUnits = s.firmUnits := rfl
@[simp] theorem State.updCtx_loads (s : State) (i : Nat) (g : Ctx → Ctx) : (s.updCtx i g).loads = s.loads := rfl
@[simp] theorem State.updCtx_directory (s : State) (i : Nat) (g : Ctx → Ctx) : (s.updCtx i g).directory = s.directory := rfl
@[simp] theorem State.updCtx_epochs (s : State) (i : Nat) (g : Ctx → Ctx) : (s.updCtx i g).epochs = s.epochs := rfl
@[simp] theorem State.updCtx_barriers (s : State) (i : Nat) (g : Ctx → Ctx) : (s.updCtx i g).barriers = s.barriers := rfl
@[simp] theorem State.updCtx_arrivals (s : State) (i : Nat) (g : Ctx → Ctx) : (s.updCtx i g).arrivals = s.arrivals := rfl
@[simp] theorem State.updCtx_rereads (s : State) (i : Nat) (g : Ctx → Ctx) : (s.updCtx i g).rereads = s.rereads := rfl
@[simp] theorem State.updCtx_ports (s : State) (i : Nat) (g : Ctx → Ctx) : (s.updCtx i g).ports = s.ports := rfl
@[simp] theorem State.updCtx_pool (s : State) (i : Nat) (g : Ctx → Ctx) : (s.updCtx i g).pool = s.pool := rfl
@[simp] theorem State.updCtx_cpWrite (s : State) (i : Nat) (g : Ctx → Ctx) : (s.updCtx i g).cpWrite = s.cpWrite := rfl

@[simp] theorem State.updCtx_core (s : State) (i j : Nat) (g : Ctx → Ctx) : (s.updCtx i g).core j = s.core j := rfl
@[simp] theorem State.updCtx_rasOf (s : State) (i j : Nat) (g : Ctx → Ctx) : (s.updCtx i g).rasOf j = s.rasOf j := rfl
@[simp] theorem State.updCtx_fn (s : State) (i j : Nat) (g : Ctx → Ctx) : (s.updCtx i g).fn j = s.fn j := rfl
@[simp] theorem State.updCtx_queue (s : State) (i j : Nat) (g : Ctx → Ctx) : (s.updCtx i g).queue j = s.queue j := rfl
@[simp] theorem State.updCtx_part (s : State) (i j : Nat) (g : Ctx → Ctx) : (s.updCtx i g).part j = s.part j := rfl
@[simp] theorem State.updCtx_slice (s : State) (i j : Nat) (g : Ctx → Ctx) : (s.updCtx i g).slice j = s.slice j := rfl
@[simp] theorem State.updCtx_exch (s : State) (i j : Nat) (g : Ctx → Ctx) : (s.updCtx i g).exch j = s.exch j := rfl
@[simp] theorem State.updCtx_table (s : State) (i j : Nat) (g : Ctx → Ctx) : (s.updCtx i g).table j = s.table j := rfl
@[simp] theorem State.updCtx_port (s : State) (i j : Nat) (g : Ctx → Ctx) : (s.updCtx i g).port j = s.port j := rfl
@[simp] theorem State.updCtx_clusterPower (s : State) (i j : Nat) (g : Ctx → Ctx) : (s.updCtx i g).clusterPower j = s.clusterPower j := rfl

/-! ### `State.updPart` -/

@[simp] theorem State.updPart_part_self (s : State) (i : Nat) (g : Partition → Partition) : (s.updPart i g).part i = g (s.part i) := by
  simp [State.updPart, State.part]

theorem State.updPart_part_ne (s : State) {i j : Nat} (g : Partition → Partition) (h : j ≠ i) : (s.updPart i g).part j = s.part j := by
  simp [State.updPart, State.part, kget_kmod_ne, h]

@[simp] theorem State.updPart_pending (s : State) (i : Nat) (g : Partition → Partition) : (s.updPart i g).pending = s.pending := rfl
@[simp] theorem State.updPart_freeCtr (s : State) (i : Nat) (g : Partition → Partition) : (s.updPart i g).freeCtr = s.freeCtr := rfl
@[simp] theorem State.updPart_refCount (s : State) (i : Nat) (g : Partition → Partition) : (s.updPart i g).refCount = s.refCount := rfl
@[simp] theorem State.updPart_module (s : State) (i : Nat) (g : Partition → Partition) : (s.updPart i g).module = s.module := rfl
@[simp] theorem State.updPart_service (s : State) (i : Nat) (g : Partition → Partition) : (s.updPart i g).service = s.service := rfl
@[simp] theorem State.updPart_power (s : State) (i : Nat) (g : Partition → Partition) : (s.updPart i g).power = s.power := rfl
@[simp] theorem State.updPart_link (s : State) (i : Nat) (g : Partition → Partition) : (s.updPart i g).link = s.link := rfl
@[simp] theorem State.updPart_spdm (s : State) (i : Nat) (g : Partition → Partition) : (s.updPart i g).spdm = s.spdm := rfl
@[simp] theorem State.updPart_mem (s : State) (i : Nat) (g : Partition → Partition) : (s.updPart i g).mem = s.mem := rfl
@[simp] theorem State.updPart_host (s : State) (i : Nat) (g : Partition → Partition) : (s.updPart i g).host = s.host := rfl
@[simp] theorem State.updPart_xlt (s : State) (i : Nat) (g : Partition → Partition) : (s.updPart i g).xlt = s.xlt := rfl
@[simp] theorem State.updPart_ras (s : State) (i : Nat) (g : Partition → Partition) : (s.updPart i g).ras = s.ras := rfl
@[simp] theorem State.updPart_coreRas (s : State) (i : Nat) (g : Partition → Partition) : (s.updPart i g).coreRas = s.coreRas := rfl
@[simp] theorem State.updPart_fns (s : State) (i : Nat) (g : Partition → Partition) : (s.updPart i g).fns = s.fns := rfl
@[simp] theorem State.updPart_queues (s : State) (i : Nat) (g : Partition → Partition) : (s.updPart i g).queues = s.queues := rfl
@[simp] theorem State.updPart_cmds (s : State) (i : Nat) (g : Partition → Partition) : (s.updPart i g).cmds = s.cmds := rfl
@[simp] theorem State.updPart_ctxs (s : State) (i : Nat) (g : Partition → Partition) : (s.updPart i g).ctxs = s.ctxs := rfl
@[simp] theorem State.updPart_serviceShare (s : State) (i : Nat) (g : Partition → Partition) : (s.updPart i g).serviceShare = s.serviceShare := rfl
@[simp] theorem State.updPart_serviceRead (s : State) (i : Nat) (g : Partition → Partition) : (s.updPart i g).serviceRead = s.serviceRead := rfl
@[simp] theorem State.updPart_serviceWrite (s : State) (i : Nat) (g : Partition → Partition) : (s.updPart i g).serviceWrite = s.serviceWrite := rfl
@[simp] theorem State.updPart_nextService (s : State) (i : Nat) (g : Partition → Partition) : (s.updPart i g).nextService = s.nextService := rfl
@[simp] theorem State.updPart_serviceLeft (s : State) (i : Nat) (g : Partition → Partition) : (s.updPart i g).serviceLeft = s.serviceLeft := rfl
@[simp] theorem State.updPart_serviceOps (s : State) (i : Nat) (g : Partition → Partition) : (s.updPart i g).serviceOps = s.serviceOps := rfl
@[simp] theorem State.updPart_moveOps (s : State) (i : Nat) (g : Partition → Partition) : (s.updPart i g).moveOps = s.moveOps := rfl
@[simp] theorem State.updPart_cores (s : State) (i : Nat) (g : Partition → Partition) : (s.updPart i g).cores = s.cores := rfl
@[simp] theorem State.updPart_slices (s : State) (i : Nat) (g : Partition → Partition) : (s.updPart i g).slices = s.slices := rfl
@[simp] theorem State.updPart_exchanges (s : State) (i : Nat) (g : Partition → Partition) : (s.updPart i g).exchanges = s.exchanges := rfl
@[simp] theorem State.updPart_outbox (s : State) (i : Nat) (g : Partition → Partition) : (s.updPart i g).outbox = s.outbox := rfl
@[simp] theorem State.updPart_dram (s : State) (i : Nat) (g : Partition → Partition) : (s.updPart i g).dram = s.dram := rfl
@[simp] theorem State.updPart_flows (s : State) (i : Nat) (g : Partition → Partition) : (s.updPart i g).flows = s.flows := rfl
@[simp] theorem State.updPart_prefetch (s : State) (i : Nat) (g : Partition → Partition) : (s.updPart i g).prefetch = s.prefetch := rfl
@[simp] theorem State.updPart_tables (s : State) (i : Nat) (g : Partition → Partition) : (s.updPart i g).tables = s.tables := rfl
@[simp] theorem State.updPart_firmUnits (s : State) (i : Nat) (g : Partition → Partition) : (s.updPart i g).firmUnits = s.firmUnits := rfl
@[simp] theorem State.updPart_loads (s : State) (i : Nat) (g : Partition → Partition) : (s.updPart i g).loads = s.loads := rfl
@[simp] theorem State.updPart_directory (s : State) (i : Nat) (g : Partition → Partition) : (s.updPart i g).directory = s.directory := rfl
@[simp] theorem State.updPart_epochs (s : State) (i : Nat) (g : Partition → Partition) : (s.updPart i g).epochs = s.epochs := rfl
@[simp] theorem State.updPart_barriers (s : State) (i : Nat) (g : Partition → Partition) : (s.updPart i g).barriers = s.barriers := rfl
@[simp] theorem State.updPart_arrivals (s : State) (i : Nat) (g : Partition → Partition) : (s.updPart i g).arrivals = s.arrivals := rfl
@[simp] theorem State.updPart_rereads (s : State) (i : Nat) (g : Partition → Partition) : (s.updPart i g).rereads = s.rereads := rfl
@[simp] theorem State.updPart_ports (s : State) (i : Nat) (g : Partition → Partition) : (s.updPart i g).ports = s.ports := rfl
@[simp] theorem State.updPart_pool (s : State) (i : Nat) (g : Partition → Partition) : (s.updPart i g).pool = s.pool := rfl
@[simp] theorem State.updPart_cpWrite (s : State) (i : Nat) (g : Partition → Partition) : (s.updPart i g).cpWrite = s.cpWrite := rfl

@[simp] theorem State.updPart_core (s : State) (i j : Nat) (g : Partition → Partition) : (s.updPart i g).core j = s.core j := rfl
@[simp] theorem State.updPart_rasOf (s : State) (i j : Nat) (g : Partition → Partition) : (s.updPart i g).rasOf j = s.rasOf j := rfl
@[simp] theorem State.updPart_fn (s : State) (i j : Nat) (g : Partition → Partition) : (s.updPart i g).fn j = s.fn j := rfl
@[simp] theorem State.updPart_queue (s : State) (i j : Nat) (g : Partition → Partition) : (s.updPart i g).queue j = s.queue j := rfl
@[simp] theorem State.updPart_ctx (s : State) (i j : Nat) (g : Partition → Partition) : (s.updPart i g).ctx j = s.ctx j := rfl
@[simp] theorem State.updPart_slice (s : State) (i j : Nat) (g : Partition → Partition) : (s.updPart i g).slice j = s.slice j := rfl
@[simp] theorem State.updPart_exch (s : State) (i j : Nat) (g : Partition → Partition) : (s.updPart i g).exch j = s.exch j := rfl
@[simp] theorem State.updPart_table (s : State) (i j : Nat) (g : Partition → Partition) : (s.updPart i g).table j = s.table j := rfl
@[simp] theorem State.updPart_port (s : State) (i j : Nat) (g : Partition → Partition) : (s.updPart i g).port j = s.port j := rfl
@[simp] theorem State.updPart_clusterPower (s : State) (i j : Nat) (g : Partition → Partition) : (s.updPart i g).clusterPower j = s.clusterPower j := rfl

/-! ### `State.updSlice` -/

@[simp] theorem State.updSlice_slice_self (s : State) (i : Nat) (g : Slice → Slice) : (s.updSlice i g).slice i = g (s.slice i) := by
  simp [State.updSlice, State.slice]

theorem State.updSlice_slice_ne (s : State) {i j : Nat} (g : Slice → Slice) (h : j ≠ i) : (s.updSlice i g).slice j = s.slice j := by
  simp [State.updSlice, State.slice, kget_kmod_ne, h]

@[simp] theorem State.updSlice_pending (s : State) (i : Nat) (g : Slice → Slice) : (s.updSlice i g).pending = s.pending := rfl
@[simp] theorem State.updSlice_freeCtr (s : State) (i : Nat) (g : Slice → Slice) : (s.updSlice i g).freeCtr = s.freeCtr := rfl
@[simp] theorem State.updSlice_refCount (s : State) (i : Nat) (g : Slice → Slice) : (s.updSlice i g).refCount = s.refCount := rfl
@[simp] theorem State.updSlice_module (s : State) (i : Nat) (g : Slice → Slice) : (s.updSlice i g).module = s.module := rfl
@[simp] theorem State.updSlice_service (s : State) (i : Nat) (g : Slice → Slice) : (s.updSlice i g).service = s.service := rfl
@[simp] theorem State.updSlice_power (s : State) (i : Nat) (g : Slice → Slice) : (s.updSlice i g).power = s.power := rfl
@[simp] theorem State.updSlice_link (s : State) (i : Nat) (g : Slice → Slice) : (s.updSlice i g).link = s.link := rfl
@[simp] theorem State.updSlice_spdm (s : State) (i : Nat) (g : Slice → Slice) : (s.updSlice i g).spdm = s.spdm := rfl
@[simp] theorem State.updSlice_mem (s : State) (i : Nat) (g : Slice → Slice) : (s.updSlice i g).mem = s.mem := rfl
@[simp] theorem State.updSlice_host (s : State) (i : Nat) (g : Slice → Slice) : (s.updSlice i g).host = s.host := rfl
@[simp] theorem State.updSlice_xlt (s : State) (i : Nat) (g : Slice → Slice) : (s.updSlice i g).xlt = s.xlt := rfl
@[simp] theorem State.updSlice_ras (s : State) (i : Nat) (g : Slice → Slice) : (s.updSlice i g).ras = s.ras := rfl
@[simp] theorem State.updSlice_coreRas (s : State) (i : Nat) (g : Slice → Slice) : (s.updSlice i g).coreRas = s.coreRas := rfl
@[simp] theorem State.updSlice_fns (s : State) (i : Nat) (g : Slice → Slice) : (s.updSlice i g).fns = s.fns := rfl
@[simp] theorem State.updSlice_queues (s : State) (i : Nat) (g : Slice → Slice) : (s.updSlice i g).queues = s.queues := rfl
@[simp] theorem State.updSlice_cmds (s : State) (i : Nat) (g : Slice → Slice) : (s.updSlice i g).cmds = s.cmds := rfl
@[simp] theorem State.updSlice_ctxs (s : State) (i : Nat) (g : Slice → Slice) : (s.updSlice i g).ctxs = s.ctxs := rfl
@[simp] theorem State.updSlice_parts (s : State) (i : Nat) (g : Slice → Slice) : (s.updSlice i g).parts = s.parts := rfl
@[simp] theorem State.updSlice_serviceShare (s : State) (i : Nat) (g : Slice → Slice) : (s.updSlice i g).serviceShare = s.serviceShare := rfl
@[simp] theorem State.updSlice_serviceRead (s : State) (i : Nat) (g : Slice → Slice) : (s.updSlice i g).serviceRead = s.serviceRead := rfl
@[simp] theorem State.updSlice_serviceWrite (s : State) (i : Nat) (g : Slice → Slice) : (s.updSlice i g).serviceWrite = s.serviceWrite := rfl
@[simp] theorem State.updSlice_nextService (s : State) (i : Nat) (g : Slice → Slice) : (s.updSlice i g).nextService = s.nextService := rfl
@[simp] theorem State.updSlice_serviceLeft (s : State) (i : Nat) (g : Slice → Slice) : (s.updSlice i g).serviceLeft = s.serviceLeft := rfl
@[simp] theorem State.updSlice_serviceOps (s : State) (i : Nat) (g : Slice → Slice) : (s.updSlice i g).serviceOps = s.serviceOps := rfl
@[simp] theorem State.updSlice_moveOps (s : State) (i : Nat) (g : Slice → Slice) : (s.updSlice i g).moveOps = s.moveOps := rfl
@[simp] theorem State.updSlice_cores (s : State) (i : Nat) (g : Slice → Slice) : (s.updSlice i g).cores = s.cores := rfl
@[simp] theorem State.updSlice_exchanges (s : State) (i : Nat) (g : Slice → Slice) : (s.updSlice i g).exchanges = s.exchanges := rfl
@[simp] theorem State.updSlice_outbox (s : State) (i : Nat) (g : Slice → Slice) : (s.updSlice i g).outbox = s.outbox := rfl
@[simp] theorem State.updSlice_dram (s : State) (i : Nat) (g : Slice → Slice) : (s.updSlice i g).dram = s.dram := rfl
@[simp] theorem State.updSlice_flows (s : State) (i : Nat) (g : Slice → Slice) : (s.updSlice i g).flows = s.flows := rfl
@[simp] theorem State.updSlice_prefetch (s : State) (i : Nat) (g : Slice → Slice) : (s.updSlice i g).prefetch = s.prefetch := rfl
@[simp] theorem State.updSlice_tables (s : State) (i : Nat) (g : Slice → Slice) : (s.updSlice i g).tables = s.tables := rfl
@[simp] theorem State.updSlice_firmUnits (s : State) (i : Nat) (g : Slice → Slice) : (s.updSlice i g).firmUnits = s.firmUnits := rfl
@[simp] theorem State.updSlice_loads (s : State) (i : Nat) (g : Slice → Slice) : (s.updSlice i g).loads = s.loads := rfl
@[simp] theorem State.updSlice_directory (s : State) (i : Nat) (g : Slice → Slice) : (s.updSlice i g).directory = s.directory := rfl
@[simp] theorem State.updSlice_epochs (s : State) (i : Nat) (g : Slice → Slice) : (s.updSlice i g).epochs = s.epochs := rfl
@[simp] theorem State.updSlice_barriers (s : State) (i : Nat) (g : Slice → Slice) : (s.updSlice i g).barriers = s.barriers := rfl
@[simp] theorem State.updSlice_arrivals (s : State) (i : Nat) (g : Slice → Slice) : (s.updSlice i g).arrivals = s.arrivals := rfl
@[simp] theorem State.updSlice_rereads (s : State) (i : Nat) (g : Slice → Slice) : (s.updSlice i g).rereads = s.rereads := rfl
@[simp] theorem State.updSlice_ports (s : State) (i : Nat) (g : Slice → Slice) : (s.updSlice i g).ports = s.ports := rfl
@[simp] theorem State.updSlice_pool (s : State) (i : Nat) (g : Slice → Slice) : (s.updSlice i g).pool = s.pool := rfl
@[simp] theorem State.updSlice_cpWrite (s : State) (i : Nat) (g : Slice → Slice) : (s.updSlice i g).cpWrite = s.cpWrite := rfl

@[simp] theorem State.updSlice_core (s : State) (i j : Nat) (g : Slice → Slice) : (s.updSlice i g).core j = s.core j := rfl
@[simp] theorem State.updSlice_rasOf (s : State) (i j : Nat) (g : Slice → Slice) : (s.updSlice i g).rasOf j = s.rasOf j := rfl
@[simp] theorem State.updSlice_fn (s : State) (i j : Nat) (g : Slice → Slice) : (s.updSlice i g).fn j = s.fn j := rfl
@[simp] theorem State.updSlice_queue (s : State) (i j : Nat) (g : Slice → Slice) : (s.updSlice i g).queue j = s.queue j := rfl
@[simp] theorem State.updSlice_ctx (s : State) (i j : Nat) (g : Slice → Slice) : (s.updSlice i g).ctx j = s.ctx j := rfl
@[simp] theorem State.updSlice_part (s : State) (i j : Nat) (g : Slice → Slice) : (s.updSlice i g).part j = s.part j := rfl
@[simp] theorem State.updSlice_exch (s : State) (i j : Nat) (g : Slice → Slice) : (s.updSlice i g).exch j = s.exch j := rfl
@[simp] theorem State.updSlice_table (s : State) (i j : Nat) (g : Slice → Slice) : (s.updSlice i g).table j = s.table j := rfl
@[simp] theorem State.updSlice_port (s : State) (i j : Nat) (g : Slice → Slice) : (s.updSlice i g).port j = s.port j := rfl
@[simp] theorem State.updSlice_clusterPower (s : State) (i j : Nat) (g : Slice → Slice) : (s.updSlice i g).clusterPower j = s.clusterPower j := rfl

/-! ### `State.updExch` -/

@[simp] theorem State.updExch_exch_self (s : State) (i : Nat) (g : Exchange → Exchange) : (s.updExch i g).exch i = g (s.exch i) := by
  simp [State.updExch, State.exch]

theorem State.updExch_exch_ne (s : State) {i j : Nat} (g : Exchange → Exchange) (h : j ≠ i) : (s.updExch i g).exch j = s.exch j := by
  simp [State.updExch, State.exch, kget_kmod_ne, h]

@[simp] theorem State.updExch_pending (s : State) (i : Nat) (g : Exchange → Exchange) : (s.updExch i g).pending = s.pending := rfl
@[simp] theorem State.updExch_freeCtr (s : State) (i : Nat) (g : Exchange → Exchange) : (s.updExch i g).freeCtr = s.freeCtr := rfl
@[simp] theorem State.updExch_refCount (s : State) (i : Nat) (g : Exchange → Exchange) : (s.updExch i g).refCount = s.refCount := rfl
@[simp] theorem State.updExch_module (s : State) (i : Nat) (g : Exchange → Exchange) : (s.updExch i g).module = s.module := rfl
@[simp] theorem State.updExch_service (s : State) (i : Nat) (g : Exchange → Exchange) : (s.updExch i g).service = s.service := rfl
@[simp] theorem State.updExch_power (s : State) (i : Nat) (g : Exchange → Exchange) : (s.updExch i g).power = s.power := rfl
@[simp] theorem State.updExch_link (s : State) (i : Nat) (g : Exchange → Exchange) : (s.updExch i g).link = s.link := rfl
@[simp] theorem State.updExch_spdm (s : State) (i : Nat) (g : Exchange → Exchange) : (s.updExch i g).spdm = s.spdm := rfl
@[simp] theorem State.updExch_mem (s : State) (i : Nat) (g : Exchange → Exchange) : (s.updExch i g).mem = s.mem := rfl
@[simp] theorem State.updExch_host (s : State) (i : Nat) (g : Exchange → Exchange) : (s.updExch i g).host = s.host := rfl
@[simp] theorem State.updExch_xlt (s : State) (i : Nat) (g : Exchange → Exchange) : (s.updExch i g).xlt = s.xlt := rfl
@[simp] theorem State.updExch_ras (s : State) (i : Nat) (g : Exchange → Exchange) : (s.updExch i g).ras = s.ras := rfl
@[simp] theorem State.updExch_coreRas (s : State) (i : Nat) (g : Exchange → Exchange) : (s.updExch i g).coreRas = s.coreRas := rfl
@[simp] theorem State.updExch_fns (s : State) (i : Nat) (g : Exchange → Exchange) : (s.updExch i g).fns = s.fns := rfl
@[simp] theorem State.updExch_queues (s : State) (i : Nat) (g : Exchange → Exchange) : (s.updExch i g).queues = s.queues := rfl
@[simp] theorem State.updExch_cmds (s : State) (i : Nat) (g : Exchange → Exchange) : (s.updExch i g).cmds = s.cmds := rfl
@[simp] theorem State.updExch_ctxs (s : State) (i : Nat) (g : Exchange → Exchange) : (s.updExch i g).ctxs = s.ctxs := rfl
@[simp] theorem State.updExch_parts (s : State) (i : Nat) (g : Exchange → Exchange) : (s.updExch i g).parts = s.parts := rfl
@[simp] theorem State.updExch_serviceShare (s : State) (i : Nat) (g : Exchange → Exchange) : (s.updExch i g).serviceShare = s.serviceShare := rfl
@[simp] theorem State.updExch_serviceRead (s : State) (i : Nat) (g : Exchange → Exchange) : (s.updExch i g).serviceRead = s.serviceRead := rfl
@[simp] theorem State.updExch_serviceWrite (s : State) (i : Nat) (g : Exchange → Exchange) : (s.updExch i g).serviceWrite = s.serviceWrite := rfl
@[simp] theorem State.updExch_nextService (s : State) (i : Nat) (g : Exchange → Exchange) : (s.updExch i g).nextService = s.nextService := rfl
@[simp] theorem State.updExch_serviceLeft (s : State) (i : Nat) (g : Exchange → Exchange) : (s.updExch i g).serviceLeft = s.serviceLeft := rfl
@[simp] theorem State.updExch_serviceOps (s : State) (i : Nat) (g : Exchange → Exchange) : (s.updExch i g).serviceOps = s.serviceOps := rfl
@[simp] theorem State.updExch_moveOps (s : State) (i : Nat) (g : Exchange → Exchange) : (s.updExch i g).moveOps = s.moveOps := rfl
@[simp] theorem State.updExch_cores (s : State) (i : Nat) (g : Exchange → Exchange) : (s.updExch i g).cores = s.cores := rfl
@[simp] theorem State.updExch_slices (s : State) (i : Nat) (g : Exchange → Exchange) : (s.updExch i g).slices = s.slices := rfl
@[simp] theorem State.updExch_outbox (s : State) (i : Nat) (g : Exchange → Exchange) : (s.updExch i g).outbox = s.outbox := rfl
@[simp] theorem State.updExch_dram (s : State) (i : Nat) (g : Exchange → Exchange) : (s.updExch i g).dram = s.dram := rfl
@[simp] theorem State.updExch_flows (s : State) (i : Nat) (g : Exchange → Exchange) : (s.updExch i g).flows = s.flows := rfl
@[simp] theorem State.updExch_prefetch (s : State) (i : Nat) (g : Exchange → Exchange) : (s.updExch i g).prefetch = s.prefetch := rfl
@[simp] theorem State.updExch_tables (s : State) (i : Nat) (g : Exchange → Exchange) : (s.updExch i g).tables = s.tables := rfl
@[simp] theorem State.updExch_firmUnits (s : State) (i : Nat) (g : Exchange → Exchange) : (s.updExch i g).firmUnits = s.firmUnits := rfl
@[simp] theorem State.updExch_loads (s : State) (i : Nat) (g : Exchange → Exchange) : (s.updExch i g).loads = s.loads := rfl
@[simp] theorem State.updExch_directory (s : State) (i : Nat) (g : Exchange → Exchange) : (s.updExch i g).directory = s.directory := rfl
@[simp] theorem State.updExch_epochs (s : State) (i : Nat) (g : Exchange → Exchange) : (s.updExch i g).epochs = s.epochs := rfl
@[simp] theorem State.updExch_barriers (s : State) (i : Nat) (g : Exchange → Exchange) : (s.updExch i g).barriers = s.barriers := rfl
@[simp] theorem State.updExch_arrivals (s : State) (i : Nat) (g : Exchange → Exchange) : (s.updExch i g).arrivals = s.arrivals := rfl
@[simp] theorem State.updExch_rereads (s : State) (i : Nat) (g : Exchange → Exchange) : (s.updExch i g).rereads = s.rereads := rfl
@[simp] theorem State.updExch_ports (s : State) (i : Nat) (g : Exchange → Exchange) : (s.updExch i g).ports = s.ports := rfl
@[simp] theorem State.updExch_pool (s : State) (i : Nat) (g : Exchange → Exchange) : (s.updExch i g).pool = s.pool := rfl
@[simp] theorem State.updExch_cpWrite (s : State) (i : Nat) (g : Exchange → Exchange) : (s.updExch i g).cpWrite = s.cpWrite := rfl

@[simp] theorem State.updExch_core (s : State) (i j : Nat) (g : Exchange → Exchange) : (s.updExch i g).core j = s.core j := rfl
@[simp] theorem State.updExch_rasOf (s : State) (i j : Nat) (g : Exchange → Exchange) : (s.updExch i g).rasOf j = s.rasOf j := rfl
@[simp] theorem State.updExch_fn (s : State) (i j : Nat) (g : Exchange → Exchange) : (s.updExch i g).fn j = s.fn j := rfl
@[simp] theorem State.updExch_queue (s : State) (i j : Nat) (g : Exchange → Exchange) : (s.updExch i g).queue j = s.queue j := rfl
@[simp] theorem State.updExch_ctx (s : State) (i j : Nat) (g : Exchange → Exchange) : (s.updExch i g).ctx j = s.ctx j := rfl
@[simp] theorem State.updExch_part (s : State) (i j : Nat) (g : Exchange → Exchange) : (s.updExch i g).part j = s.part j := rfl
@[simp] theorem State.updExch_slice (s : State) (i j : Nat) (g : Exchange → Exchange) : (s.updExch i g).slice j = s.slice j := rfl
@[simp] theorem State.updExch_table (s : State) (i j : Nat) (g : Exchange → Exchange) : (s.updExch i g).table j = s.table j := rfl
@[simp] theorem State.updExch_port (s : State) (i j : Nat) (g : Exchange → Exchange) : (s.updExch i g).port j = s.port j := rfl
@[simp] theorem State.updExch_clusterPower (s : State) (i j : Nat) (g : Exchange → Exchange) : (s.updExch i g).clusterPower j = s.clusterPower j := rfl

/-! ### `State.updTable` -/

@[simp] theorem State.updTable_table_self (s : State) (i : Nat) (g : Table → Table) : (s.updTable i g).table i = g (s.table i) := by
  simp [State.updTable, State.table]

theorem State.updTable_table_ne (s : State) {i j : Nat} (g : Table → Table) (h : j ≠ i) : (s.updTable i g).table j = s.table j := by
  simp [State.updTable, State.table, kget_kmod_ne, h]

@[simp] theorem State.updTable_pending (s : State) (i : Nat) (g : Table → Table) : (s.updTable i g).pending = s.pending := rfl
@[simp] theorem State.updTable_freeCtr (s : State) (i : Nat) (g : Table → Table) : (s.updTable i g).freeCtr = s.freeCtr := rfl
@[simp] theorem State.updTable_refCount (s : State) (i : Nat) (g : Table → Table) : (s.updTable i g).refCount = s.refCount := rfl
@[simp] theorem State.updTable_module (s : State) (i : Nat) (g : Table → Table) : (s.updTable i g).module = s.module := rfl
@[simp] theorem State.updTable_service (s : State) (i : Nat) (g : Table → Table) : (s.updTable i g).service = s.service := rfl
@[simp] theorem State.updTable_power (s : State) (i : Nat) (g : Table → Table) : (s.updTable i g).power = s.power := rfl
@[simp] theorem State.updTable_link (s : State) (i : Nat) (g : Table → Table) : (s.updTable i g).link = s.link := rfl
@[simp] theorem State.updTable_spdm (s : State) (i : Nat) (g : Table → Table) : (s.updTable i g).spdm = s.spdm := rfl
@[simp] theorem State.updTable_mem (s : State) (i : Nat) (g : Table → Table) : (s.updTable i g).mem = s.mem := rfl
@[simp] theorem State.updTable_host (s : State) (i : Nat) (g : Table → Table) : (s.updTable i g).host = s.host := rfl
@[simp] theorem State.updTable_xlt (s : State) (i : Nat) (g : Table → Table) : (s.updTable i g).xlt = s.xlt := rfl
@[simp] theorem State.updTable_ras (s : State) (i : Nat) (g : Table → Table) : (s.updTable i g).ras = s.ras := rfl
@[simp] theorem State.updTable_coreRas (s : State) (i : Nat) (g : Table → Table) : (s.updTable i g).coreRas = s.coreRas := rfl
@[simp] theorem State.updTable_fns (s : State) (i : Nat) (g : Table → Table) : (s.updTable i g).fns = s.fns := rfl
@[simp] theorem State.updTable_queues (s : State) (i : Nat) (g : Table → Table) : (s.updTable i g).queues = s.queues := rfl
@[simp] theorem State.updTable_cmds (s : State) (i : Nat) (g : Table → Table) : (s.updTable i g).cmds = s.cmds := rfl
@[simp] theorem State.updTable_ctxs (s : State) (i : Nat) (g : Table → Table) : (s.updTable i g).ctxs = s.ctxs := rfl
@[simp] theorem State.updTable_parts (s : State) (i : Nat) (g : Table → Table) : (s.updTable i g).parts = s.parts := rfl
@[simp] theorem State.updTable_serviceShare (s : State) (i : Nat) (g : Table → Table) : (s.updTable i g).serviceShare = s.serviceShare := rfl
@[simp] theorem State.updTable_serviceRead (s : State) (i : Nat) (g : Table → Table) : (s.updTable i g).serviceRead = s.serviceRead := rfl
@[simp] theorem State.updTable_serviceWrite (s : State) (i : Nat) (g : Table → Table) : (s.updTable i g).serviceWrite = s.serviceWrite := rfl
@[simp] theorem State.updTable_nextService (s : State) (i : Nat) (g : Table → Table) : (s.updTable i g).nextService = s.nextService := rfl
@[simp] theorem State.updTable_serviceLeft (s : State) (i : Nat) (g : Table → Table) : (s.updTable i g).serviceLeft = s.serviceLeft := rfl
@[simp] theorem State.updTable_serviceOps (s : State) (i : Nat) (g : Table → Table) : (s.updTable i g).serviceOps = s.serviceOps := rfl
@[simp] theorem State.updTable_moveOps (s : State) (i : Nat) (g : Table → Table) : (s.updTable i g).moveOps = s.moveOps := rfl
@[simp] theorem State.updTable_cores (s : State) (i : Nat) (g : Table → Table) : (s.updTable i g).cores = s.cores := rfl
@[simp] theorem State.updTable_slices (s : State) (i : Nat) (g : Table → Table) : (s.updTable i g).slices = s.slices := rfl
@[simp] theorem State.updTable_exchanges (s : State) (i : Nat) (g : Table → Table) : (s.updTable i g).exchanges = s.exchanges := rfl
@[simp] theorem State.updTable_outbox (s : State) (i : Nat) (g : Table → Table) : (s.updTable i g).outbox = s.outbox := rfl
@[simp] theorem State.updTable_dram (s : State) (i : Nat) (g : Table → Table) : (s.updTable i g).dram = s.dram := rfl
@[simp] theorem State.updTable_flows (s : State) (i : Nat) (g : Table → Table) : (s.updTable i g).flows = s.flows := rfl
@[simp] theorem State.updTable_prefetch (s : State) (i : Nat) (g : Table → Table) : (s.updTable i g).prefetch = s.prefetch := rfl
@[simp] theorem State.updTable_firmUnits (s : State) (i : Nat) (g : Table → Table) : (s.updTable i g).firmUnits = s.firmUnits := rfl
@[simp] theorem State.updTable_loads (s : State) (i : Nat) (g : Table → Table) : (s.updTable i g).loads = s.loads := rfl
@[simp] theorem State.updTable_directory (s : State) (i : Nat) (g : Table → Table) : (s.updTable i g).directory = s.directory := rfl
@[simp] theorem State.updTable_epochs (s : State) (i : Nat) (g : Table → Table) : (s.updTable i g).epochs = s.epochs := rfl
@[simp] theorem State.updTable_barriers (s : State) (i : Nat) (g : Table → Table) : (s.updTable i g).barriers = s.barriers := rfl
@[simp] theorem State.updTable_arrivals (s : State) (i : Nat) (g : Table → Table) : (s.updTable i g).arrivals = s.arrivals := rfl
@[simp] theorem State.updTable_rereads (s : State) (i : Nat) (g : Table → Table) : (s.updTable i g).rereads = s.rereads := rfl
@[simp] theorem State.updTable_ports (s : State) (i : Nat) (g : Table → Table) : (s.updTable i g).ports = s.ports := rfl
@[simp] theorem State.updTable_pool (s : State) (i : Nat) (g : Table → Table) : (s.updTable i g).pool = s.pool := rfl
@[simp] theorem State.updTable_cpWrite (s : State) (i : Nat) (g : Table → Table) : (s.updTable i g).cpWrite = s.cpWrite := rfl

@[simp] theorem State.updTable_core (s : State) (i j : Nat) (g : Table → Table) : (s.updTable i g).core j = s.core j := rfl
@[simp] theorem State.updTable_rasOf (s : State) (i j : Nat) (g : Table → Table) : (s.updTable i g).rasOf j = s.rasOf j := rfl
@[simp] theorem State.updTable_fn (s : State) (i j : Nat) (g : Table → Table) : (s.updTable i g).fn j = s.fn j := rfl
@[simp] theorem State.updTable_queue (s : State) (i j : Nat) (g : Table → Table) : (s.updTable i g).queue j = s.queue j := rfl
@[simp] theorem State.updTable_ctx (s : State) (i j : Nat) (g : Table → Table) : (s.updTable i g).ctx j = s.ctx j := rfl
@[simp] theorem State.updTable_part (s : State) (i j : Nat) (g : Table → Table) : (s.updTable i g).part j = s.part j := rfl
@[simp] theorem State.updTable_slice (s : State) (i j : Nat) (g : Table → Table) : (s.updTable i g).slice j = s.slice j := rfl
@[simp] theorem State.updTable_exch (s : State) (i j : Nat) (g : Table → Table) : (s.updTable i g).exch j = s.exch j := rfl
@[simp] theorem State.updTable_port (s : State) (i j : Nat) (g : Table → Table) : (s.updTable i g).port j = s.port j := rfl
@[simp] theorem State.updTable_clusterPower (s : State) (i j : Nat) (g : Table → Table) : (s.updTable i g).clusterPower j = s.clusterPower j := rfl

/-! ### `State.updPort` -/

@[simp] theorem State.updPort_port_self (s : State) (i : Nat) (g : Port → Port) : (s.updPort i g).port i = g (s.port i) := by
  simp [State.updPort, State.port]

theorem State.updPort_port_ne (s : State) {i j : Nat} (g : Port → Port) (h : j ≠ i) : (s.updPort i g).port j = s.port j := by
  simp [State.updPort, State.port, kget_kmod_ne, h]

@[simp] theorem State.updPort_pending (s : State) (i : Nat) (g : Port → Port) : (s.updPort i g).pending = s.pending := rfl
@[simp] theorem State.updPort_freeCtr (s : State) (i : Nat) (g : Port → Port) : (s.updPort i g).freeCtr = s.freeCtr := rfl
@[simp] theorem State.updPort_refCount (s : State) (i : Nat) (g : Port → Port) : (s.updPort i g).refCount = s.refCount := rfl
@[simp] theorem State.updPort_module (s : State) (i : Nat) (g : Port → Port) : (s.updPort i g).module = s.module := rfl
@[simp] theorem State.updPort_service (s : State) (i : Nat) (g : Port → Port) : (s.updPort i g).service = s.service := rfl
@[simp] theorem State.updPort_power (s : State) (i : Nat) (g : Port → Port) : (s.updPort i g).power = s.power := rfl
@[simp] theorem State.updPort_link (s : State) (i : Nat) (g : Port → Port) : (s.updPort i g).link = s.link := rfl
@[simp] theorem State.updPort_spdm (s : State) (i : Nat) (g : Port → Port) : (s.updPort i g).spdm = s.spdm := rfl
@[simp] theorem State.updPort_mem (s : State) (i : Nat) (g : Port → Port) : (s.updPort i g).mem = s.mem := rfl
@[simp] theorem State.updPort_host (s : State) (i : Nat) (g : Port → Port) : (s.updPort i g).host = s.host := rfl
@[simp] theorem State.updPort_xlt (s : State) (i : Nat) (g : Port → Port) : (s.updPort i g).xlt = s.xlt := rfl
@[simp] theorem State.updPort_ras (s : State) (i : Nat) (g : Port → Port) : (s.updPort i g).ras = s.ras := rfl
@[simp] theorem State.updPort_coreRas (s : State) (i : Nat) (g : Port → Port) : (s.updPort i g).coreRas = s.coreRas := rfl
@[simp] theorem State.updPort_fns (s : State) (i : Nat) (g : Port → Port) : (s.updPort i g).fns = s.fns := rfl
@[simp] theorem State.updPort_queues (s : State) (i : Nat) (g : Port → Port) : (s.updPort i g).queues = s.queues := rfl
@[simp] theorem State.updPort_cmds (s : State) (i : Nat) (g : Port → Port) : (s.updPort i g).cmds = s.cmds := rfl
@[simp] theorem State.updPort_ctxs (s : State) (i : Nat) (g : Port → Port) : (s.updPort i g).ctxs = s.ctxs := rfl
@[simp] theorem State.updPort_parts (s : State) (i : Nat) (g : Port → Port) : (s.updPort i g).parts = s.parts := rfl
@[simp] theorem State.updPort_serviceShare (s : State) (i : Nat) (g : Port → Port) : (s.updPort i g).serviceShare = s.serviceShare := rfl
@[simp] theorem State.updPort_serviceRead (s : State) (i : Nat) (g : Port → Port) : (s.updPort i g).serviceRead = s.serviceRead := rfl
@[simp] theorem State.updPort_serviceWrite (s : State) (i : Nat) (g : Port → Port) : (s.updPort i g).serviceWrite = s.serviceWrite := rfl
@[simp] theorem State.updPort_nextService (s : State) (i : Nat) (g : Port → Port) : (s.updPort i g).nextService = s.nextService := rfl
@[simp] theorem State.updPort_serviceLeft (s : State) (i : Nat) (g : Port → Port) : (s.updPort i g).serviceLeft = s.serviceLeft := rfl
@[simp] theorem State.updPort_serviceOps (s : State) (i : Nat) (g : Port → Port) : (s.updPort i g).serviceOps = s.serviceOps := rfl
@[simp] theorem State.updPort_moveOps (s : State) (i : Nat) (g : Port → Port) : (s.updPort i g).moveOps = s.moveOps := rfl
@[simp] theorem State.updPort_cores (s : State) (i : Nat) (g : Port → Port) : (s.updPort i g).cores = s.cores := rfl
@[simp] theorem State.updPort_slices (s : State) (i : Nat) (g : Port → Port) : (s.updPort i g).slices = s.slices := rfl
@[simp] theorem State.updPort_exchanges (s : State) (i : Nat) (g : Port → Port) : (s.updPort i g).exchanges = s.exchanges := rfl
@[simp] theorem State.updPort_outbox (s : State) (i : Nat) (g : Port → Port) : (s.updPort i g).outbox = s.outbox := rfl
@[simp] theorem State.updPort_dram (s : State) (i : Nat) (g : Port → Port) : (s.updPort i g).dram = s.dram := rfl
@[simp] theorem State.updPort_flows (s : State) (i : Nat) (g : Port → Port) : (s.updPort i g).flows = s.flows := rfl
@[simp] theorem State.updPort_prefetch (s : State) (i : Nat) (g : Port → Port) : (s.updPort i g).prefetch = s.prefetch := rfl
@[simp] theorem State.updPort_tables (s : State) (i : Nat) (g : Port → Port) : (s.updPort i g).tables = s.tables := rfl
@[simp] theorem State.updPort_firmUnits (s : State) (i : Nat) (g : Port → Port) : (s.updPort i g).firmUnits = s.firmUnits := rfl
@[simp] theorem State.updPort_loads (s : State) (i : Nat) (g : Port → Port) : (s.updPort i g).loads = s.loads := rfl
@[simp] theorem State.updPort_directory (s : State) (i : Nat) (g : Port → Port) : (s.updPort i g).directory = s.directory := rfl
@[simp] theorem State.updPort_epochs (s : State) (i : Nat) (g : Port → Port) : (s.updPort i g).epochs = s.epochs := rfl
@[simp] theorem State.updPort_barriers (s : State) (i : Nat) (g : Port → Port) : (s.updPort i g).barriers = s.barriers := rfl
@[simp] theorem State.updPort_arrivals (s : State) (i : Nat) (g : Port → Port) : (s.updPort i g).arrivals = s.arrivals := rfl
@[simp] theorem State.updPort_rereads (s : State) (i : Nat) (g : Port → Port) : (s.updPort i g).rereads = s.rereads := rfl
@[simp] theorem State.updPort_pool (s : State) (i : Nat) (g : Port → Port) : (s.updPort i g).pool = s.pool := rfl
@[simp] theorem State.updPort_cpWrite (s : State) (i : Nat) (g : Port → Port) : (s.updPort i g).cpWrite = s.cpWrite := rfl

@[simp] theorem State.updPort_core (s : State) (i j : Nat) (g : Port → Port) : (s.updPort i g).core j = s.core j := rfl
@[simp] theorem State.updPort_rasOf (s : State) (i j : Nat) (g : Port → Port) : (s.updPort i g).rasOf j = s.rasOf j := rfl
@[simp] theorem State.updPort_fn (s : State) (i j : Nat) (g : Port → Port) : (s.updPort i g).fn j = s.fn j := rfl
@[simp] theorem State.updPort_queue (s : State) (i j : Nat) (g : Port → Port) : (s.updPort i g).queue j = s.queue j := rfl
@[simp] theorem State.updPort_ctx (s : State) (i j : Nat) (g : Port → Port) : (s.updPort i g).ctx j = s.ctx j := rfl
@[simp] theorem State.updPort_part (s : State) (i j : Nat) (g : Port → Port) : (s.updPort i g).part j = s.part j := rfl
@[simp] theorem State.updPort_slice (s : State) (i j : Nat) (g : Port → Port) : (s.updPort i g).slice j = s.slice j := rfl
@[simp] theorem State.updPort_exch (s : State) (i j : Nat) (g : Port → Port) : (s.updPort i g).exch j = s.exch j := rfl
@[simp] theorem State.updPort_table (s : State) (i j : Nat) (g : Port → Port) : (s.updPort i g).table j = s.table j := rfl
@[simp] theorem State.updPort_clusterPower (s : State) (i j : Nat) (g : Port → Port) : (s.updPort i g).clusterPower j = s.clusterPower j := rfl

/-! ### `State.updClusterPower` -/

@[simp] theorem State.updClusterPower_clusterPower_self (s : State) (i : Nat) (g : ClusterPower → ClusterPower) : (s.updClusterPower i g).clusterPower i = g (s.clusterPower i) := by
  simp [State.updClusterPower, State.clusterPower]

theorem State.updClusterPower_clusterPower_ne (s : State) {i j : Nat} (g : ClusterPower → ClusterPower) (h : j ≠ i) : (s.updClusterPower i g).clusterPower j = s.clusterPower j := by
  simp [State.updClusterPower, State.clusterPower, kget_kmod_ne, h]

@[simp] theorem State.updClusterPower_pending (s : State) (i : Nat) (g : ClusterPower → ClusterPower) : (s.updClusterPower i g).pending = s.pending := rfl
@[simp] theorem State.updClusterPower_freeCtr (s : State) (i : Nat) (g : ClusterPower → ClusterPower) : (s.updClusterPower i g).freeCtr = s.freeCtr := rfl
@[simp] theorem State.updClusterPower_refCount (s : State) (i : Nat) (g : ClusterPower → ClusterPower) : (s.updClusterPower i g).refCount = s.refCount := rfl
@[simp] theorem State.updClusterPower_module (s : State) (i : Nat) (g : ClusterPower → ClusterPower) : (s.updClusterPower i g).module = s.module := rfl
@[simp] theorem State.updClusterPower_service (s : State) (i : Nat) (g : ClusterPower → ClusterPower) : (s.updClusterPower i g).service = s.service := rfl
@[simp] theorem State.updClusterPower_link (s : State) (i : Nat) (g : ClusterPower → ClusterPower) : (s.updClusterPower i g).link = s.link := rfl
@[simp] theorem State.updClusterPower_spdm (s : State) (i : Nat) (g : ClusterPower → ClusterPower) : (s.updClusterPower i g).spdm = s.spdm := rfl
@[simp] theorem State.updClusterPower_mem (s : State) (i : Nat) (g : ClusterPower → ClusterPower) : (s.updClusterPower i g).mem = s.mem := rfl
@[simp] theorem State.updClusterPower_host (s : State) (i : Nat) (g : ClusterPower → ClusterPower) : (s.updClusterPower i g).host = s.host := rfl
@[simp] theorem State.updClusterPower_xlt (s : State) (i : Nat) (g : ClusterPower → ClusterPower) : (s.updClusterPower i g).xlt = s.xlt := rfl
@[simp] theorem State.updClusterPower_ras (s : State) (i : Nat) (g : ClusterPower → ClusterPower) : (s.updClusterPower i g).ras = s.ras := rfl
@[simp] theorem State.updClusterPower_coreRas (s : State) (i : Nat) (g : ClusterPower → ClusterPower) : (s.updClusterPower i g).coreRas = s.coreRas := rfl
@[simp] theorem State.updClusterPower_fns (s : State) (i : Nat) (g : ClusterPower → ClusterPower) : (s.updClusterPower i g).fns = s.fns := rfl
@[simp] theorem State.updClusterPower_queues (s : State) (i : Nat) (g : ClusterPower → ClusterPower) : (s.updClusterPower i g).queues = s.queues := rfl
@[simp] theorem State.updClusterPower_cmds (s : State) (i : Nat) (g : ClusterPower → ClusterPower) : (s.updClusterPower i g).cmds = s.cmds := rfl
@[simp] theorem State.updClusterPower_ctxs (s : State) (i : Nat) (g : ClusterPower → ClusterPower) : (s.updClusterPower i g).ctxs = s.ctxs := rfl
@[simp] theorem State.updClusterPower_parts (s : State) (i : Nat) (g : ClusterPower → ClusterPower) : (s.updClusterPower i g).parts = s.parts := rfl
@[simp] theorem State.updClusterPower_serviceShare (s : State) (i : Nat) (g : ClusterPower → ClusterPower) : (s.updClusterPower i g).serviceShare = s.serviceShare := rfl
@[simp] theorem State.updClusterPower_serviceRead (s : State) (i : Nat) (g : ClusterPower → ClusterPower) : (s.updClusterPower i g).serviceRead = s.serviceRead := rfl
@[simp] theorem State.updClusterPower_serviceWrite (s : State) (i : Nat) (g : ClusterPower → ClusterPower) : (s.updClusterPower i g).serviceWrite = s.serviceWrite := rfl
@[simp] theorem State.updClusterPower_nextService (s : State) (i : Nat) (g : ClusterPower → ClusterPower) : (s.updClusterPower i g).nextService = s.nextService := rfl
@[simp] theorem State.updClusterPower_serviceLeft (s : State) (i : Nat) (g : ClusterPower → ClusterPower) : (s.updClusterPower i g).serviceLeft = s.serviceLeft := rfl
@[simp] theorem State.updClusterPower_serviceOps (s : State) (i : Nat) (g : ClusterPower → ClusterPower) : (s.updClusterPower i g).serviceOps = s.serviceOps := rfl
@[simp] theorem State.updClusterPower_moveOps (s : State) (i : Nat) (g : ClusterPower → ClusterPower) : (s.updClusterPower i g).moveOps = s.moveOps := rfl
@[simp] theorem State.updClusterPower_cores (s : State) (i : Nat) (g : ClusterPower → ClusterPower) : (s.updClusterPower i g).cores = s.cores := rfl
@[simp] theorem State.updClusterPower_slices (s : State) (i : Nat) (g : ClusterPower → ClusterPower) : (s.updClusterPower i g).slices = s.slices := rfl
@[simp] theorem State.updClusterPower_exchanges (s : State) (i : Nat) (g : ClusterPower → ClusterPower) : (s.updClusterPower i g).exchanges = s.exchanges := rfl
@[simp] theorem State.updClusterPower_outbox (s : State) (i : Nat) (g : ClusterPower → ClusterPower) : (s.updClusterPower i g).outbox = s.outbox := rfl
@[simp] theorem State.updClusterPower_dram (s : State) (i : Nat) (g : ClusterPower → ClusterPower) : (s.updClusterPower i g).dram = s.dram := rfl
@[simp] theorem State.updClusterPower_flows (s : State) (i : Nat) (g : ClusterPower → ClusterPower) : (s.updClusterPower i g).flows = s.flows := rfl
@[simp] theorem State.updClusterPower_prefetch (s : State) (i : Nat) (g : ClusterPower → ClusterPower) : (s.updClusterPower i g).prefetch = s.prefetch := rfl
@[simp] theorem State.updClusterPower_tables (s : State) (i : Nat) (g : ClusterPower → ClusterPower) : (s.updClusterPower i g).tables = s.tables := rfl
@[simp] theorem State.updClusterPower_firmUnits (s : State) (i : Nat) (g : ClusterPower → ClusterPower) : (s.updClusterPower i g).firmUnits = s.firmUnits := rfl
@[simp] theorem State.updClusterPower_loads (s : State) (i : Nat) (g : ClusterPower → ClusterPower) : (s.updClusterPower i g).loads = s.loads := rfl
@[simp] theorem State.updClusterPower_directory (s : State) (i : Nat) (g : ClusterPower → ClusterPower) : (s.updClusterPower i g).directory = s.directory := rfl
@[simp] theorem State.updClusterPower_epochs (s : State) (i : Nat) (g : ClusterPower → ClusterPower) : (s.updClusterPower i g).epochs = s.epochs := rfl
@[simp] theorem State.updClusterPower_barriers (s : State) (i : Nat) (g : ClusterPower → ClusterPower) : (s.updClusterPower i g).barriers = s.barriers := rfl
@[simp] theorem State.updClusterPower_arrivals (s : State) (i : Nat) (g : ClusterPower → ClusterPower) : (s.updClusterPower i g).arrivals = s.arrivals := rfl
@[simp] theorem State.updClusterPower_rereads (s : State) (i : Nat) (g : ClusterPower → ClusterPower) : (s.updClusterPower i g).rereads = s.rereads := rfl
@[simp] theorem State.updClusterPower_ports (s : State) (i : Nat) (g : ClusterPower → ClusterPower) : (s.updClusterPower i g).ports = s.ports := rfl
@[simp] theorem State.updClusterPower_pool (s : State) (i : Nat) (g : ClusterPower → ClusterPower) : (s.updClusterPower i g).pool = s.pool := rfl
@[simp] theorem State.updClusterPower_cpWrite (s : State) (i : Nat) (g : ClusterPower → ClusterPower) : (s.updClusterPower i g).cpWrite = s.cpWrite := rfl

@[simp] theorem State.updClusterPower_core (s : State) (i j : Nat) (g : ClusterPower → ClusterPower) : (s.updClusterPower i g).core j = s.core j := rfl
@[simp] theorem State.updClusterPower_rasOf (s : State) (i j : Nat) (g : ClusterPower → ClusterPower) : (s.updClusterPower i g).rasOf j = s.rasOf j := rfl
@[simp] theorem State.updClusterPower_fn (s : State) (i j : Nat) (g : ClusterPower → ClusterPower) : (s.updClusterPower i g).fn j = s.fn j := rfl
@[simp] theorem State.updClusterPower_queue (s : State) (i j : Nat) (g : ClusterPower → ClusterPower) : (s.updClusterPower i g).queue j = s.queue j := rfl
@[simp] theorem State.updClusterPower_ctx (s : State) (i j : Nat) (g : ClusterPower → ClusterPower) : (s.updClusterPower i g).ctx j = s.ctx j := rfl
@[simp] theorem State.updClusterPower_part (s : State) (i j : Nat) (g : ClusterPower → ClusterPower) : (s.updClusterPower i g).part j = s.part j := rfl
@[simp] theorem State.updClusterPower_slice (s : State) (i j : Nat) (g : ClusterPower → ClusterPower) : (s.updClusterPower i g).slice j = s.slice j := rfl
@[simp] theorem State.updClusterPower_exch (s : State) (i j : Nat) (g : ClusterPower → ClusterPower) : (s.updClusterPower i g).exch j = s.exch j := rfl
@[simp] theorem State.updClusterPower_table (s : State) (i j : Nat) (g : ClusterPower → ClusterPower) : (s.updClusterPower i g).table j = s.table j := rfl
@[simp] theorem State.updClusterPower_port (s : State) (i j : Nat) (g : ClusterPower → ClusterPower) : (s.updClusterPower i g).port j = s.port j := rfl

end Sys2Proof.Machine
end

