-- ==== Sys2Proof/Laws/Requests.lean ====
section
/-! SUPPORT. How a posted request is served: the action decides. -/

namespace Sys2Proof.Machine

open Sys2Proof

variable {s t : State} {f slot op status : Nat} {resp : List Byte} {pf : Bool} {act : Req → State → Reply}

/-- RECOVERY does not turn a request away that it answers (R550). -/
theorem State.recovery_ok (h : s.service.state = 4 → inRecovery op = true) : (decide (s.service.state = 4) && !inRecovery op) = false := by
  by_cases hs : s.service.state = 4
  · simp [h hs]
  · simp [hs]

/-- An action that answers at once. -/
theorem State.serve_done (h : s.posted f slot op) (hp : pf = true → f = 0) (ha : act (s.req f slot) s = .done t status resp) :
    s.serve f slot op pf act = t.respond (s.req f slot) status resp false := by
  obtain ⟨h1, h2, h3, h4, h5, h6, h7⟩ := h
  have h8 : (pf && decide (f ≠ 0)) = false := by
    cases pf with
    | false => rfl
    | true => simp [hp rfl]
  simp only [State.serve, h1, h3, h4, h7, ha, Bool.not_true, ne_eq, not_true, decide_false, Bool.or_self, Bool.false_eq_true, if_false,
    State.recovery_ok h2, h8]
  rw [if_neg]
  simp; omega

/-- An action that leaves its request running. -/
theorem State.serve_wait (h : s.posted f slot op) (hp : pf = true → f = 0) (ha : act (s.req f slot) s = .wait t) :
    s.serve f slot op pf act = t := by
  obtain ⟨h1, h2, h3, h4, h5, h6, h7⟩ := h
  have h8 : (pf && decide (f ≠ 0)) = false := by
    cases pf with
    | false => rfl
    | true => simp [hp rfl]
  simp only [State.serve, h1, h3, h4, h7, ha, Bool.not_true, ne_eq, not_true, decide_false, Bool.or_self, Bool.false_eq_true, if_false,
    State.recovery_ok h2, h8]
  rw [if_neg]
  simp; omega

/-- An action that starts an asynchronous operation. -/
theorem State.serve_async {start : State → Nat → State} (h : s.posted f slot op) (hp : pf = true → f = 0)
    (hr : (s.fn f).running < 64) (ha : act (s.req f slot) s = .async start) :
    .next (s.serve f slot op pf act) = s.accepted f slot op start := by
  obtain ⟨h1, h2, h3, h4, h5, h6, h7⟩ := h
  have h8 : (pf && decide (f ≠ 0)) = false := by
    cases pf with
    | false => rfl
    | true => simp [hp rfl]
  have h9 : ¬ (64 ≤ (s.fn f).running) := by omega
  simp only [State.serve, h1, h3, h4, h7, ha, Bool.not_true, ne_eq, not_true, decide_false, Bool.or_self, Bool.false_eq_true, if_false,
    State.recovery_ok h2, h8, h9]
  rw [if_neg]
  · rfl
  · simp; omega

/-- Checks that all hold lead to the action. -/
theorem checks_ok {cs : List (Bool × Nat)} {k : Reply} (h : ∀ c ∈ cs, c.1 = false) : checks s cs k = k := by
  induction cs with
  | nil => rfl
  | cons c cs ih =>
    obtain ⟨b, st⟩ := c
    have hb : b = false := h (b, st) (by simp)
    simp only [checks, hb, Bool.false_eq_true, if_false]
    exact ih (fun c hc => h c (by simp [hc]))

end Sys2Proof.Machine
end

