-- ==== Sys2Proof/Laws/Save.lean ====
section
/-! SUPPORT. What writing and charging a context's save area can change: one lemma for each operation. -/

namespace Sys2Proof.Machine

open Sys2Proof

/-- A block of a save area goes to device memory, or to the lines that wait for the host (R463, R530). -/
theorem State.saveBlock_eq (s : State) (x b : Nat) (bs : List Byte) (flags : List Nat) :
    ∃ m l, s.saveBlock x b bs flags = { s with mem := m, link := l } := by
  unfold State.saveBlock
  split
  · exact ⟨_, _, rfl⟩
  · exact State.writeDev_eq _ _ _ _

theorem State.saveBlock_wf {s : State} (h : Memory.wf s.mem = true) (x b : Nat) (bs : List Byte) (flags : List Nat) :
    Memory.wf (s.saveBlock x b bs flags).mem = true := by
  unfold State.saveBlock
  split
  · exact h
  · exact State.writeDev_wf h _ _ _

/-- Writing a save area changes device memory, the lines that wait for the host, and the free-value counter (R396, R400). -/
theorem State.saveArea_eq (s : State) (x : Nat) (entries : KMap (Option Nat)) :
    ∃ m l n, s.saveArea x entries = { s with mem := m, link := l, freeCtr := n } := by
  unfold State.saveArea
  refine foldl_keeps (p := fun t : State => ∃ m l n, t = { s with mem := m, link := l, freeCtr := n }) (fun t b ht => ?_) _
    ⟨s.mem, s.link, s.freeCtr + 1, rfl⟩
  obtain ⟨m, l, n, rfl⟩ := ht
  dsimp only
  split <;>
  · obtain ⟨m', l', e⟩ := State.saveBlock_eq { s with mem := m, link := l, freeCtr := n } x b _ _
    exact ⟨m', l', n, e⟩

theorem State.saveArea_wf {s : State} (h : Memory.wf s.mem = true) (x : Nat) (entries : KMap (Option Nat)) :
    Memory.wf (s.saveArea x entries).mem = true := by
  unfold State.saveArea
  refine foldl_keeps (p := fun t : State => Memory.wf t.mem = true) (fun t b ht => ?_) _ h
  dsimp only
  split <;> exact State.saveBlock_wf ht _ _ _ _

@[simp] theorem State.saveArea_cores (s : State) (x : Nat) (entries : KMap (Option Nat)) : (s.saveArea x entries).cores = s.cores := by
  obtain ⟨m, l, n, e⟩ := s.saveArea_eq x entries
  rw [e]

@[simp] theorem State.saveArea_ctxs (s : State) (x : Nat) (entries : KMap (Option Nat)) : (s.saveArea x entries).ctxs = s.ctxs := by
  obtain ⟨m, l, n, e⟩ := s.saveArea_eq x entries
  rw [e]

@[simp] theorem State.saveArea_parts (s : State) (x : Nat) (entries : KMap (Option Nat)) : (s.saveArea x entries).parts = s.parts := by
  obtain ⟨m, l, n, e⟩ := s.saveArea_eq x entries
  rw [e]

/-- The traffic of a swap is charged to the DRAM schedulers alone (R400). -/
theorem State.saveTraffic_eq (s : State) (x cls i : Nat) : ∃ d, s.saveTraffic x cls i = { s with dram := d } := by
  unfold State.saveTraffic
  refine foldl_keeps (p := fun t : State => ∃ d, t = { s with dram := d }) (fun t e ht => ?_) _ ⟨s.dram, rfl⟩
  obtain ⟨d, rfl⟩ := ht
  split
  · exact ⟨_, rfl⟩
  · exact ⟨_, rfl⟩

end Sys2Proof.Machine
end

