-- ==== Sys2Proof/Laws/Work.lean ====
section
/-! SUPPORT. How work that may stop runs: one law per way of building it. -/

namespace Sys2Proof.Machine

open Sys2Proof

variable {α β : Type}

@[simp] theorem CM.run_pure (a : α) (s : State) : (pure a : CM α).run s = (.ok a, s) := id rfl

@[simp] theorem CM.run_throw (e : Stop) (s : State) : (throw e : CM α).run s = (.error e, s) := id rfl

@[simp] theorem CM.run_get (s : State) : (get : CM State).run s = (.ok s, s) := id rfl

@[simp] theorem CM.run_set (s t : State) : (set t : CM PUnit).run s = (.ok ⟨⟩, t) := id rfl

@[simp] theorem CM.run_modify (f : State → State) (s : State) : (modify f : CM PUnit).run s = (.ok ⟨⟩, f s) := id rfl

/-- Work that has its result runs on with what follows. -/
theorem CM.run_bind_ok {m : CM α} {s t : State} {a : α} (h : m.run s = (.ok a, t)) (f : α → CM β) : (m >>= f).run s = (f a).run t := by
  change (ExceptT.bindCont f : _ → _) (m.run s).1 (m.run s).2 = _
  rw [h]; rfl

/-- Work that stops stops all that would follow. -/
theorem CM.run_bind_error {m : CM α} {s t : State} {e : Stop} (h : m.run s = (.error e, t)) (f : α → CM β) :
    (m >>= f).run s = (.error e, t) := by
  change (ExceptT.bindCont f : _ → _) (m.run s).1 (m.run s).2 = _
  rw [h]; rfl

@[simp] theorem CM.run_bind_pure (a : α) (f : α → CM β) (s : State) : ((pure a : CM α) >>= f).run s = (f a).run s := id rfl

@[simp] theorem CM.run_bind_throw (e : Stop) (f : α → CM β) (s : State) : ((throw e : CM α) >>= f).run s = (.error e, s) := id rfl

@[simp] theorem CM.run_bind_get (f : State → CM β) (s : State) : ((get : CM State) >>= f).run s = (f s).run s := id rfl

@[simp] theorem CM.run_bind_set (f : PUnit → CM β) (s t : State) : ((set t : CM PUnit) >>= f).run s = (f ⟨⟩).run t := id rfl

@[simp] theorem CM.run_bind_modify (g : State → State) (f : PUnit → CM β) (s : State) :
    ((modify g : CM PUnit) >>= f).run s = (f ⟨⟩).run (g s) := id rfl

theorem State.seqRun_ok {s t : State} {c : Nat} {m : CM Unit} (h : m.run s = (.ok (), t)) : s.seqRun c m = t := by
  simp [State.seqRun, h]

theorem State.seqRun_wait {s t : State} {c : Nat} {m : CM Unit} (h : m.run s = (.error .wait, t)) : s.seqRun c m = t := by
  simp [State.seqRun, h]

theorem State.seqRun_fail {s t : State} {c st : Nat} {m : CM Unit} (h : m.run s = (.error (.fail st), t)) :
    s.seqRun c m = t.seqFail c st 0 0 := by
  simp [State.seqRun, h]

/-- Two changes of one core are one. -/
theorem State.updCore_updCore (s : State) (c : Nat) (f g : Core → Core) :
    (s.updCore c f).updCore c g = s.updCore c (fun k => g (f k)) := by
  simp only [State.updCore, kmod, kget_kput_self, kput_kput]

/-! ### Scratch accesses -/

/-- A scratch address that is aligned and within the window. -/
theorem scratchAddr_ok {s : State} {c a n al : Nat} (h1 : a % 2 ^ 64 % al = 0) (h2 : a % 2 ^ 64 + n ≤ s.winSize (s.core c).ctx) :
    (scratchAddr c a n al).run s = (.ok (a % 2 ^ 64), s) := by
  have : ¬ s.winSize (s.core c).ctx < a % 2 ^ 64 + n := by omega
  simp only [scratchAddr, CM.run_bind_get, h1, this, ne_eq, not_true_eq_false, decide_false, Bool.or_self, Bool.false_eq_true, if_false,
    CM.run_pure]

/-- A scratch address that is not. -/
theorem scratchAddr_bad {s : State} {c a n al : Nat} (h : a % 2 ^ 64 % al ≠ 0 ∨ s.winSize (s.core c).ctx < a % 2 ^ 64 + n) :
    (scratchAddr c a n al).run s = (.error (.fail stBadPattern), s) := by
  simp only [scratchAddr, CM.run_bind_get]
  rw [if_pos (by simpa using h), CM.run_throw]

/-- Reading words none of which is poisoned. -/
theorem readScratch_ok {s : State} {c unit a n : Nat} (h : bitAt (s.scrRangeFlags c (s.core c).ctx a n) 0 = false) :
    (readScratch c unit a n).run s = (.ok (s.scr c (s.core c).ctx a n),
      s.updCore c (fun k => { k with sawTies := k.sawTies || bitAt (s.scrRangeFlags c (s.core c).ctx a n) 1 })) := by
  simp only [readScratch, CM.run_bind_get]
  rw [if_neg (by simpa using h)]
  rw [CM.run_bind_set, CM.run_pure]

end Sys2Proof.Machine
end

