-- ==== Sys2Proof/WellFormed.lean ====
section
/-! DEFINITION. Well-formed commands: what an operand's type leaves open, within the fields and lengths of the rule that gives it. -/

namespace Sys2Proof

open Sys2Proof.Machine

/-- A message header within its fields (R161). -/
def Machine.MsgHdr.wellFormed (h : MsgHdr) : Bool :=
  decide (h.srcPart < 1024) && decide (h.srcCluster < 16) && decide (h.tagSlot < 512) && decide (h.tagSeq < 128) && decide (h.seg < 256) &&
    decide (h.epoch < 2 ^ 40)

/-- A lookup entry within its fields (R162). -/
def Machine.LookupEntry.wellFormed (e : LookupEntry) : Bool :=
  decide (e.table < 65536) && decide (e.row < 2 ^ 40) && decide (e.gen < 2 ^ 32)

/-- A reply entry within its fields (R163): SLOT16 counts the bytes of the slot. -/
def Machine.ReplyEntry.wellFormed (e : ReplyEntry) : Bool :=
  decide (e.holder < 1024) && decide (e.tier < 4) && decide (e.slot16 < 256) && decide (e.estatus < 256) &&
    decide (e.slot.length = 16 * e.slot16)

/-- A codeword on the wire: 64 bytes and its metadata (R461). -/
def Machine.WireWord.wellFormed (w : WireWord) : Bool :=
  decide (w.data.length = 64) && decide (w.kind < 4) && decide (w.pos < 4) && decide (w.frag < 65536)

/-- An update entry within its fields (R193). -/
def Machine.UpdEntry.wellFormed (e : UpdEntry) : Bool :=
  decide (e.table < 65536) && decide (e.row < 2 ^ 40) && decide (e.rule < 8) && decide (e.srcPart < 1024) && decide (e.srcSeq < 2 ^ 48) &&
    decide (e.gen < 2 ^ 32)

/-- A shard change within its fields (R213). -/
def Machine.ShardChange.wellFormed (c : ShardChange) : Bool :=
  decide (c.table < 65536) && decide (c.bucket < 65536) && decide (c.owner < 1024) && decide (c.next < 1024) && c.row.all (· < 2 ^ 40)

/-- A host page: a requester that exists, and a size of whole 4 KiB pages (log entry 9). -/
def Machine.HostPage.wellFormed (p : HostPage) : Bool :=
  decide (p.fn < 17) && p.pasid.all (· < 2 ^ 20) && decide (4096 ≤ p.size) && decide (p.va % 4096 = 0) && decide (p.hpa % 4096 = 0)

/-- A pool shape (R291). -/
def shapeOk (dx dy dz : Nat) : Bool :=
  decide (1 ≤ dx) && decide (dx ≤ 8) && decide (1 ≤ dy) && decide (dy ≤ 8) && decide (1 ≤ dz) && decide (dz ≤ 16)

/-- A flit within its fields (R294). -/
def Machine.Flit.wellFormed (f : Flit) : Bool :=
  decide (f.seq < 1024) && decide (f.ack < 1024) && decide (f.type < 4) && decide (f.vc < 8) && decide (f.units ≤ 25) && decide (f.creditVc < 8) &&
    decide (f.credits < 1024)

/-- A command whose operands lie within the fields of its rule. -/
def Instr.wellFormed : Instr → Bool
  | .mailboxSlotWrite _ off bytes => decide (1 ≤ bytes.length) && decide (bytes.length ≤ 64) && decide (off.val + bytes.length ≤ 8192)
  | .bar2Write _ off bytes => decide (1 ≤ bytes.length) && decide (off.toNat + bytes.length ≤ 2 ^ 28)
  | .rowArrival _ gid entry errs _ => decide (gid < 2 ^ 16) && decide (entry < 65536) && decide (errs ≤ 72)
  | .matrix _ _ sums vals _ _ => sums.all (fun e => e.column < 64 && e.row < 64 && e.slot < 16) &&
    vals.all (fun e => e.column < 64 && e.row < 64 && e.slot < 16 && e.mask < 2 ^ 32)
  | .lookupReq h es _ => h.wellFormed && decide (es.length ≤ 128) && es.all LookupEntry.wellFormed
  | .lookupReply h es => h.wellFormed && decide (h.seg + es.length ≤ 128) && es.all ReplyEntry.wellFormed
  | .readReq h _ addr len => h.wellFormed && decide (addr < 2 ^ 48) && decide (64 ≤ len) && decide (len ≤ 4096)
  | .readReply h status ws => h.wellFormed && Machine.listedStatus status && decide (ws.length ≤ 65) && ws.all WireWord.wellFormed
  | .write h _ addr ws _ => h.wellFormed && decide (addr < 2 ^ 48) && decide (1 ≤ ws.length) && decide (ws.length ≤ 64) && ws.all WireWord.wellFormed
  | .writeAck h status => h.wellFormed && Machine.listedStatus status
  | .arrive h _ addr pid => h.wellFormed && decide (addr < 2 ^ 48) && decide (pid < 2 ^ 32)
  | .arriveAck h status => h.wellFormed && Machine.listedStatus status
  | .delta h es => h.wellFormed && es.all UpdEntry.wellFormed
  | .deltaAck h astatus holder => h.wellFormed && decide (astatus < 256) && decide (holder < 1024)
  | .migrateCopy h table bucket _ row reply _ => h.wellFormed && decide (table < 65536) && decide (bucket < 65536) && decide (row < 2 ^ 40) && reply.wellFormed
  | .migrateLog h table bucket _ row entry => h.wellFormed && decide (table < 65536) && decide (bucket < 65536) && decide (row < 2 ^ 40) && entry.wellFormed
  | .migrateAck h table bucket _ row _ _ => h.wellFormed && decide (table < 65536) && decide (bucket < 65536) && decide (row < 2 ^ 40)
  | .migrationReady table _ index => decide (table < 65536) && decide (index < 2 ^ 40)
  | .fenceClose epoch src => decide (epoch < 2 ^ 40) && decide (src < 1024)
  | .fenceClosed epoch src changes => decide (epoch < 2 ^ 40) && decide (src < 1024) && changes.all ShardChange.wellFormed
  | .fenceApply epoch src changes => decide (epoch < 2 ^ 40) && decide (src < 1024) && changes.all ShardChange.wellFormed
  | .fenceApplied epoch src _ => decide (epoch < 2 ^ 40) && decide (src < 1024)
  | .joinReq poolId dx dy dz _ rings => decide (poolId < 2 ^ 32) && decide (rings < 8) && shapeOk dx dy dz
  | .joinGrant epoch members => decide (epoch < 2 ^ 40) && decide (members < 2 ^ 1024)
  | .joinDeny _ check => decide (check < 256)
  | .linkDown _ _ cause lastSeq => decide (cause < 256) && decide (lastSeq < 1024)
  | .linkUp _ _ cause lastSeq => decide (cause < 256) && decide (lastSeq < 1024)
  | .flitReceive _ fl => fl.wellFormed
  | .identityBlock _ poolId part port dx dy dz _ _ _ => decide (poolId < 2 ^ 32) && decide (part < 1024) && decide (port < 6) && shapeOk dx dy dz
  | .priResponse _ page grant _ => decide (page < 2 ^ 52) && grant.all HostPage.wellFormed
  | .atsInvalidateRequest _ _ va size => decide (va + size ≤ 2 ^ 64) && decide (4096 ≤ size)
  | .cxlMemRead hpa errs _ => decide (hpa % 64 = 0) && decide (hpa < 2 ^ 52) && decide (errs ≤ 72)
  | .cxlMemWrite hpa bytes _ => decide (hpa % 64 = 0) && decide (hpa < 2 ^ 52) && decide (bytes.length = 64)
  | .backInvalidateResponse line dirty => decide (line < 2 ^ 32) && dirty.all (fun bs => bs.length = 64)
  | .hdmDecoderCommit _ base size hpa => decide (base < 2 ^ 52) && decide (size < 2 ^ 52) && decide (hpa < 2 ^ 52)
  | .patrolScrub _ errs => decide (errs ≤ 72)
  | .powerSample _ activity rails => decide (activity.length ≤ 128) && decide (rails.length ≤ 5)
  | .efficiencyUpdate rail input rails => decide (rail ≤ input) && decide (rails.length ≤ 5) && decide (rails.sum ≤ input)
  | .energyAttribution cores _ _ shares => decide (cores.length ≤ 128) &&
      shares.all (fun h => decide (h.halves.length ≤ 2) && decide (h.uncore.length ≤ 16))
  | .telemetryFrame _ millivolts milliamps _ _ => decide (millivolts < 2 ^ 17) && decide (milliamps < 2 ^ 17)
  | .thermalReading _ logic dram sensors layers => decide (sensors.length ≤ 4) && decide (layers.length ≤ 8) &&
      (logic :: dram :: sensors ++ layers).all (fun t => decide (-128 ≤ t) && decide (t ≤ 127))
  | .hostLinkUp _ _ _ _ _ pages _ => pages.all HostPage.wellFormed
  | .powerOn
  | .clusterPairCalibrated _ _
  | .fullServiceEntry _ _
  | .fullReset
  | .perstAssert
  | .selfReset _
  | .selfResetDrainLimit
  | .flrVf _
  | .cpWatchdog
  | .cpRestart
  | .capRead _ _
  | .partIdentity _ _
  | .partQuery _ _
  | .partReset _ _
  | .partitionSet _ _
  | .partitionQuery _ _
  | .contextCreate _ _
  | .contextDestroy _ _
  | .contextQuery _ _
  | .contextSuspend _ _
  | .contextResume _ _ _
  | .contextSet _ _
  | .queueCreate _ _
  | .queueDestroy _ _
  | .queueQuery _ _
  | .queueRemap _ _
  | .almanacConfig _ _
  | .almanacQuery _ _
  | .almanacAck _ _
  | .expressBind _ _
  | .opQuery _ _
  | .xltSet _ _
  | .xltInvalidate _ _
  | .faultResolve _ _
  | .pageMigrate _ _
  | .faultRingSet _ _
  | .xltQuery _ _
  | .tableCreate _ _
  | .tableLoad _ _
  | .tableSeal _ _
  | .tableQuery _ _
  | .tableDelete _ _
  | .tableFreed _
  | .epochFence _ _
  | .epochQuery _ _
  | .epochConfig _ _
  | .bucketMigrate _ _
  | .rowMigrate _ _
  | .migrateQuery _ _
  | .migrateCancel _ _
  | .skewWatch _ _
  | .skewQuery _ _
  | .retierPass _ _
  | .retierQuery _ _
  | .retierCancel _ _
  | .shardQuery _ _
  | .splitSet _ _
  | .splitGet _ _
  | .serviceSet _ _
  | .redirectQuery _ _
  | .fabricConfig _ _
  | .portQuery _ _
  | .portFence _ _
  | .portUnfence _ _
  | .aclSet _ _
  | .aclGet _ _
  | .poolJoin _ _
  | .poolLeave _ _
  | .poolQuery _ _
  | .rasQuery _ _
  | .coreQuery _ _
  | .coreFence _ _
  | .coreUnfence _ _
  | .vigilConfig _ _
  | .vigilWindow _ _
  | .vigilWindowExpiry _
  | .cperRingSet _ _
  | .cperRead _ _
  | .selvageSeal _ _
  | .selvageCheck _ _
  | .powerQuery _ _
  | .powerSet _ _
  | .paceWeightSet _ _
  | .thermalQuery _ _
  | .thermalSet _ _
  | .energyQuery _ _
  | .imageStage _ _
  | .imageActivate _ _
  | .imageCommit _ _
  | .imageQuery _ _
  | .recal _ _
  | .barrierQuery _ _
  | .unimplementedOpcode _ _
  | .asyncOpComplete _ _
  | .noticePosted _
  | .mbExpDoorbellWrite _ _
  | .expressDelivery _ _
  | .expressTimeout _ _
  | .mbExpResultRead _ _
  | .commitWrite _ _ _
  | .feSqDoorbellWrite _ _ _
  | .feCqHeadWrite _ _ _
  | .step _
  | .job _
  | .update _
  | .marker _
  | .fenceCycle _ _
  | .commandTimeout _ _
  | .drainTimeout _ _
  | .commandComplete _ _
  | .stepReplay _ _
  | .contextTeardown _
  | .turnPass _
  | .contextSwap _ _
  | .coreMove _
  | .seqNop _ _ _
  | .seqLi _
  | .seqLui _
  | .seqAdd _ _
  | .seqAddi _ _
  | .seqSub _ _
  | .seqMul _ _
  | .seqAnd _ _
  | .seqOr _ _
  | .seqXor _ _
  | .seqShl _ _
  | .seqShr _ _
  | .seqBeq _
  | .seqBne _
  | .seqBlt _
  | .seqBge _
  | .seqJmp _
  | .seqLds _ _
  | .seqSts _
  | .seqGets _
  | .seqFetch _
  | .seqIssue _
  | .seqIssuex _
  | .seqWaite _
  | .seqSemtake _ _
  | .seqSemgive _ _
  | .seqTadd _ _
  | .seqTwait _ _
  | .seqBarrive _
  | .seqBwait _
  | .seqEnq _
  | .seqEnd _
  | .seqFail _
  | .semTakeServed _ _
  | .tallyWaitSatisfied _
  | .nullDescriptor _
  | .gather _ _ _ _
  | .vector _ _ _
  | .picotPick _
  | .procession _
  | .processionArrival _ _
  | .copy _ _
  | .vxNop _ _
  | .vxMov _ _
  | .vxFadd _ _
  | .vxFsub _ _
  | .vxFmul _ _
  | .vxFfma _ _
  | .vxFmin _ _
  | .vxFmax _ _
  | .vxFabs _ _
  | .vxFneg _ _
  | .vxFdiv _ _
  | .vxFsqrt _ _
  | .vxFrsqrt _ _
  | .vxFexp _ _
  | .vxFlog _ _
  | .vxFtanh _ _
  | .vxFsigm _ _
  | .vxFclt _ _
  | .vxFcle _ _
  | .vxFceq _ _
  | .vxSel _ _
  | .vxCvtif _ _
  | .vxCvtfi _ _
  | .vxFclamp _ _
  | .vxIadd _ _
  | .vxIsub _ _
  | .vxImul _ _
  | .vxImin _ _
  | .vxImax _ _
  | .vxAnd _ _
  | .vxOr _ _
  | .vxXor _ _
  | .vxShl _ _
  | .vxShra _ _
  | .vxShrl _ _
  | .vxIclt _ _
  | .vxIceq _ _
  | .vxScanFadd _ _
  | .vxScanFmax _ _
  | .vxScanFmin _ _
  | .vxScanFfma _ _
  | .vxScanIadd _ _
  | .vxScanImax _ _
  | .vxScanImin _ _
  | .vxSt _ _
  | .bobbinFill _ _ _ _
  | .agingTick _
  | .prefetchIssue _
  | .batchClose _
  | .batchSend _
  | .replySegmentSend _ _
  | .prefetchDropTimeout _
  | .replyTimeout _ _
  | .barrierArrival
  | .barrierHoldTimeout _ _
  | .stageFullResend
  | .closeConditionMet
  | .graceExpiry
  | .fenceApplyDone
  | .fenceLimitExpiry
  | .retierBlockPrepared _
  | .dropped _ _ _ _
  | .joinReqResend
  | .memberUp _
  | .memberDown _
  | .departureTimeout _
  | .ctrlResend
  | .packetForward _ _
  | .trainLock _
  | .equaliseDone _
  | .trainTimeout _
  | .laneLost _
  | .degraded _
  | .portDrainComplete _
  | .portDrainTimeout _
  | .linkDownTimeout _
  | .aclDrainTimeout
  | .faultBatchFlush
  | .xltDrainTimeout
  | .selvageReread
  | .captureDone _
  | .classifyRepeatDone _ _ _ _
  | .neighbourTimeout _
  | .coreFenced _
  | .vigilDue _
  | .vigilTake _
  | .vigilPhaseDone _ _ _ _
  | .vigilTestAbandoned _
  | .vigilOverdue _
  | .shadowCompare _ _
  | .cperRecord
  | .microcodeCoreUpdate _ _
  | .fabPortUpdate _
  | .cpSwapPoint
  | .cpSwapTimeout
  | .recalSlice _
  | .inputLockout _
  | .telemetryLost
  | .droop _
  | .thermalTrip _
  | .presentOpen
  | .feIrqCauseWrite _ _
  | .feDebugLockWrite _ _
  | .xltFaultHeadWrite _ _
  | .rasCperHeadWrite _ _
  | .xltStatRead _ _
  | .cdwCvtFlagsWrite _ _ _
  | .cdwGatherOorRead _ _ _
  | .cdwMxResidueRead _ _ _
  | .cdwMxResidueWrite _ _ _
  | .cdwSeqFaultWrite _ _ _
  | .cdwBobCtlWrite _ _ _
  | .cdwBobTagSelWrite _ _ _
  | .cdwBobTagLoRead _ _ _
  | .cdwExuCtlWrite _ _ _ _
  | .cdwSyncSelWrite _ _ _
  | .cdwSyncValRead _ _ _
  | .registerWrite _ _ _
  | .mgmtIdentity
  | .mgmtPower
  | .mgmtThermal
  | .mgmtCperNext
  | .mgmtCperReset
  | .getVersion
  | .getCapabilities _
  | .negotiateAlgorithms _ _ _
  | .getDigests
  | .getCertificate _ _ _
  | .challenge _ _
  | .getMeasurements _ _ _
  | .mbDoorbellWrite _ _
  | .msixUnmask _ _
  | .perstRelease
  | .heldBatchDiscard _
  | .droopRecovery _
  | .pointVoltageReached _
  | .hotSwapLatchRelease => true

end Sys2Proof
end

