-- ==== Sys2Proof/Tests/Slice0.lean ====
section
/-! SUPPORT. The model's own tests: ill-formed commands are refused; for every statement, states and operands that meet its hypotheses;
single commands on small states, with results taken from the rules and examples of spec/. -/

namespace Sys2Proof.Tests

set_option Elab.async false

open Sys2Proof Sys2Proof.Machine

/-! ### Small states -/

/-- A command that runs on core 0 for context 1. -/
def runCmd : Cmd :=
  { queue := 0, seq := 1, ctx := 1, part := 0, kind := kindStep, entry := List.replicate 64 0, accepted := 0, phase := .running, cores := [0] }

/-- A core that runs that command. -/
def runCore : Core := { cmd := some (cmdKey 0 1), ctx := 1, seq := { active := true, capLevel := 0x0100 } }

/-- A part in full service: the link is up, context 1 of partition 0 runs the command on core 0 of the cores 0 to 7, and maps the
first GiB of its addresses, readable and writable, to device offset 2^30 and the second to host memory. -/
def base : State := { State.reset with
  module := { powered := true, present := true }, service := { State.reset.service with state := 2 }, link := { up := true },
  parts := [(0, { mask := 0xFF, target := 0xFF, turn := some 1 })],
  ctxs := [(1, { phase := 3, window := 4, units := [0, 1, 2, 3], resident := true, ptRoot := 0x8000 })],
  mem := { bytes := writeBytes (writeBytes [] 0x8000 (leBytes 8 0x10001)) 0x10000 (leBytes 8 0x40000035 ++ leBytes 8 0x39) },
  xlt := { ctxRoot := [(1, 0x8000)], fnRoot := [(0, 0x8000)], ctxPasid := [(1, 5)] },
  host := { pages := [⟨1, some 5, 2 ^ 30, 2 ^ 21, 0, true, true⟩, ⟨0, none, 2 ^ 30, 2 ^ 21, 0, true, true⟩] },
  queues := [(0, { state := 1, ctx := 1, commit := 1, seq := 1 })],
  cmds := [(cmdKey 0 1, runCmd)], cores := [(0, runCore)] }

/-- With core 0 changed. -/
def withCore (f : Core → Core) (s : State) : State := s.updCore 0 f

/-- With core 0's sequencer at a word, g1 = 40 and g2 = 2. -/
def atWord (w : Nat) : State := base.updCore 0 (fun k => { k with seq := { k.seq with code := [w], regs := [(1, 40), (2, 2)] } })

/-- With a request RUNNING in slot 0 of the physical function: payload fields as offset, size, value. -/
def mail (op : Nat) (fields : List (Nat × Nat × Nat)) (s : State) : State :=
  s.updFn 0 (fun n => { n with
    mb := fields.foldl (fun m e => writeBytes m (16 + e.1) (leBytes e.2.1 e.2.2)) (writeBytes [] 0 (mbHeader op 1 4 7 0 2)),
    taken := [0] })

/-- What a command's next state shows, if it has one. -/
def after {α : Type} (o : Host.Outcome State Fault Refusal) (f : State → α) : Option α :=
  match o with
  | .next t => some (f t)
  | _ => none

/-- STATUS of the response in slot 0 of the physical function, and whether it stands DONE. -/
def status (s : State) : Nat × Bool := (fieldAt (readBytes (s.fn 0).mb 6 2) 0 2, (s.fn 0).slotState 0 = 3)

/-! ### Core sequencers -/

theorem witness_sequencerInstructions :
    (∀ op ∈ [0x00, 0x01, 0x02, 0x03, 0x04, 0x05, 0x06, 0x07, 0x08, 0x09, 0x0A, 0x0B, 0x10, 0x11, 0x12, 0x13, 0x14],
      (atWord (op * 2 ^ 56)).atIns 0 op (op * 2 ^ 56)) ∧
    (base.core 0).cmd = some (cmdKey 0 1) ∧ base.cmd? (cmdKey 0 1) = some runCmd := by decide +kernel

/-- 40 + 2 into g3, and g0 stays 0. -/
theorem test_add : after (exec (.seqAdd 0 false) (atWord 0x0331200000000000)) (fun t => ((t.core 0).seq.g 3, (t.core 0).seq.pc)) = some (42, 1) ∧
    after (exec (.seqAdd 0 false) (atWord 0x0301200000000000)) (fun t => (t.core 0).seq.g 0) = some 0 := by decide +kernel

/-- LI sign-extends its immediate; a backward branch from instruction 0 leaves the code. -/
theorem test_li : after (exec (.seqLi 0) (atWord 0x01300000FFFFFFFF)) (fun t => (t.core 0).seq.g 3) = some (2 ^ 64 - 1) := by decide +kernel

theorem witness_sequencerLoadsAndStores :
    (∀ op ∈ [0x18, 0x19], let w := op * 2 ^ 56 + 1 * 2 ^ 48
      (atWord w).atIns 0 op w ∧ ((atWord w).g64 0 (insA w) + imm64 w).toNat = 40 ∧ 40 + 8 ≤ (atWord w).winSize 1 ∧
        bitAt ((atWord w).scrRangeFlags 0 1 40 8) 0 = false) ∧
    ((atWord (0x1A * 2 ^ 56 + 12)).atIns 0 0x1A (0x1A * 2 ^ 56 + 12) ∧ (atWord 0).getsValue 0 12 = some 0) := by decide +kernel

theorem witness_sequencerLoadsAndStores_fetch :
    (let w := 0x20 * 2 ^ 56
     let s := (atWord w).updCore 0 (fun k => { k with seq := { k.seq with descVa := 2 ^ 30, descCount := 1 } })
     s.atIns 0 0x20 w ∧ (s.g64 0 (insA w) + BitVec.ofNat 64 (insImm w)).toNat = 0 ∧
       ((readBlock (s.seqWho 0) (2 ^ 30) 2048 (blockIdOf 1 (2 ^ 30)) false).run (s.updSeq 0 (fun q => q.stall 6 0))).1.isOk = true) := by
  decide +kernel

theorem witness_sequencerFaults :
    (∀ w ∈ [0xFF00000000000000, 0x0331200000000001], (atWord w).seqRuns 0 = true ∧ ((atWord w).core 0).seq.ins? = some w) ∧
    (base.seqRuns 0 = true ∧ (base.core 0).seq.ins? = none) ∧ insMask 0xFF = none ∧ insClean 0x0331200000000001 = false ∧
    (let s := withCore (fun k => { k with seq := { k.seq with capLevel := 0xFF } }) (atWord (0x03 * 2 ^ 56))
     s.seqRuns 0 = true ∧ (s.core 0).seq.ins? = some (0x03 * 2 ^ 56) ∧ (s.core 0).seq.capLevel < 0x0100) ∧
    (∀ op ∈ [0x18, 0x19], let w := op * 2 ^ 56 + 1 * 2 ^ 48 + 4
      (atWord w).atIns 0 op w ∧ ((atWord w).g64 0 (insA w) + imm64 w).toNat % 8 ≠ 0) ∧
    ((atWord (0x1A * 2 ^ 56 + 15)).atIns 0 0x1A (0x1A * 2 ^ 56 + 15) ∧ (atWord 0).getsValue 0 15 = none) ∧
    (atWord (0x20 * 2 ^ 56)).atIns 0 0x20 (0x20 * 2 ^ 56) ∧ (atWord (0x23 * 2 ^ 56)).atIns 0 0x23 (0x23 * 2 ^ 56) := by decide +kernel

/-! ### Synchronisation -/

theorem witness_talliesAndPairs : (2 ^ 48 - 2 + 1 : Nat) = 2 ^ 48 - 1 ∧ ({ value := 5 } : Tally).add 3 1 = { value := 8, src := 1 } ∧
    ({ prod := 65535 } : Pair).giveProd 1 = { prod := 65535, sat := true, prodSrc := 1 } := by decide +kernel

theorem witness_sequencerSynchronisation :
    (let w := 0x23 * 2 ^ 56 + 0xF
     (atWord w).atIns 0 0x23 w ∧ ((atWord w).core 0).drained 0xF = true ∧
       ((withCore (fun k => { k with qMove := [{ bytes := [] }] }) (atWord w)).core 0).drained 0xF = false) ∧
    (let w := 0x28 * 2 ^ 56 + 3
     let s := withCore (fun k => k.updSet 1 (fun g => g.updPair 3 (fun p => { p with prod := 1, held := 1 }))) (atWord w)
     s.atIns 0 0x28 w ∧ ((s.core 0).set 1).free 3 0 = true ∧ (((atWord w).core 0).set 1).free 3 0 = false ∧
       (withCore (fun k => k.updSet 1 (fun g => g.updPair 3 (fun p => { p with held := 1 }))) (atWord (0x29 * 2 ^ 56 + 3))).atIns 0 0x29
         (0x29 * 2 ^ 56 + 3)) ∧
    (let w := 0x2A * 2 ^ 56 + 2 ^ 48 + 7
     (atWord w).atIns 0 0x2A w ∧ (atWord (w + 2 ^ 56)).atIns 0 0x2B (w + 2 ^ 56) ∧ ((atWord w).g64 0 (insA w)).toNat = 40) ∧
    (let s := withCore (fun k => k.updSet 1 (fun g => { g.updPair 3 (fun p => { p with prod := 1 }) with waiters := [⟨3, 0, 0⟩] })) base
     let g := (s.core 0).set 1
     g.waiters.find? (fun w => w.pair = 3 && w.side = 0 && (g.pair 3).prod ≠ 0) = some ⟨3, 0, 0⟩) ∧
    (let s := withCore (fun k => k.updSet 1 (fun g => { g.updPair 3 (fun p => { p with prod := 1 }) with waiters := [⟨3, 0, 2⟩] })) base
     let g := (s.core 0).set 1
     g.waiters.find? (fun w => w.pair = 3 && w.side = 0 && (g.pair 3).prod ≠ 0) = some ⟨3, 0, 2⟩) ∧
    (let s := withCore (fun k => { k with seq := { k.seq with wait := 3, waitId := 7, target := 0 } }) base
     s.seqRuns 0 = true ∧ (s.core 0).seq.wait = 3) := by decide +kernel

theorem witness_pairLimits :
    (let s := atWord (0x28 * 2 ^ 56 + 3)
     s.atIns 0 0x28 (0x28 * 2 ^ 56 + 3) ∧ (((s.core 0).set (s.core 0).ctx).pair (insImm (0x28 * 2 ^ 56 + 3))).prod = 0) ∧
    (let s := withCore (fun k => k.updSet 1 (fun g => g.updPair 3 (fun p => { p with cons := 65535, held := 1 }))) (atWord (0x29 * 2 ^ 56 + 3))
     s.atIns 0 0x29 (0x29 * 2 ^ 56 + 3) ∧ (((s.core 0).set (s.core 0).ctx).pair (insImm (0x29 * 2 ^ 56 + 3))).held ≠ 0 ∧
       (((s.core 0).set (s.core 0).ctx).pair (insImm (0x29 * 2 ^ 56 + 3))).cons = 65535) ∧
    (let g : SyncSet := {}
     g.grants.contains (⟨3, 0, 1⟩ : SemWaiter) = false ∧ (g.pair 3).side 0 = 0) := by decide +kernel

/-- A FETCH, and an ISSUE of the buffer it fills, wait while the host resolves the page; a poisoned word of scratch is seen by LDS. -/
theorem witness_waitsAndPoison :
    (let w := 0x20 * 2 ^ 56
     let va := 2 ^ 30 + 2 ^ 21
     let s := (withCore (fun k => { k with seq := { k.seq with descVa := va, descCount := 1 } }) (atWord w)).updCtx 1 (fun v => { v with job := true })
     let sent := (s.updSeq 0 (fun q => q.stall 6 0)).updSeq 0 (fun q => { q.adv with fetch := kput q.fetch 0 (va, q.pc) })
     s.atIns 0 0x20 w ∧ kfind (s.core 0).seq.fetch 0 = none ∧
       (match ((readBlock (s.seqWho 0) va 2048 (blockIdOf 1 va) false).run sent).1 with | .error .wait => true | _ => false) = true ∧
       (let u := sent.updSeq 0 (fun q => { q with code := [0x21 * 2 ^ 56], pc := 0 })
        u.atIns 0 0x21 (0x21 * 2 ^ 56) ∧ (match ((endFetch 0 0).run u).1 with | .error .wait => true | _ => false) = true)) ∧
    (let w := 0x18 * 2 ^ 56 + 1 * 2 ^ 48
     let s := (atWord w).writeScr 0 1 40 (List.replicate 8 0) 1
     s.atIns 0 0x18 w ∧ s.scrRangeFlags 0 1 40 8 % 2 = 1) ∧ (1 : Fin 4) ≠ 3 := by
  refine ⟨?_, ?_, ?_⟩ <;> decide +kernel

/-- A TADD of 40 to tally 7 is seen by a TWAIT for 40. -/
theorem test_tadd : after (exec (.seqTadd 0 0) (atWord (0x2A * 2 ^ 56 + 2 ^ 48 + 7))) (fun t => ((kget {} ((t.core 0).set 1).tallies 7).value)) =
    some 40 := by decide +kernel

/-- Barrier 0 of 2 participants at device offset 2^30, of partition 0. -/
def barrier : Barrier := { addr := 2 ^ 30, part := 0, count := 2, arrived := 0, held := 0, round := 0, lastPid := 0, entries := [] }

/-- A participant of context 1, rank 0, whose arrival is local. -/
def arrival : Arrival := ⟨2 ^ 30, pidOf 0 1 0 0, 0, cmdKey 0 1, 0, true, none⟩

def withBarrier (b : Barrier) (s : State) : State := { s with barriers := [b] }

/-- The place of virtual address 0 of context 1 for core 0. -/
def placed (s : State) : Option Nat :=
  match (barrierPlace (s.seqWho 0) 0).run s with
  | (.ok pa, _) => some pa
  | _ => none

theorem witness_barrierInstructions :
    (let s := withBarrier barrier (atWord (0x2C * 2 ^ 56))
     placed s = some (2 ^ 30) ∧ s.barrierAt (2 ^ 30) = some barrier ∧ barrier.fits (s.roomIn (s.seqWho 0) 0) = true ∧
       s.atIns 0 0x2C (0x2C * 2 ^ 56) ∧ (s.core 0).seq.arrHeld = false ∧ s.visible 0 = true) ∧
    (∀ r ∈ [0, 1], let e : Participant := ⟨pidOf 0 1 0 0, 1, false, none, none⟩
     let s := withBarrier { barrier with round := r, entries := [e] } (atWord (0x2D * 2 ^ 56))
     s.atIns 0 0x2D (0x2D * 2 ^ 56) ∧ placed s = some (2 ^ 30)) ∧
    (∀ b ∈ [barrier, { barrier with arrived := 1, entries := [⟨9, 1, false, none, none⟩] },
        { barrier with entries := [⟨pidOf 0 1 0 0, 1, false, none, none⟩] }], let s := withBarrier b { base with arrivals := [arrival] }
      s.barrierAt arrival.addr = some b ∧ ({ s with arrivals := [] } : State).arrivalRefused arrival (some b) = none) ∧
    (let a : Arrival := { arrival with addr := 2 ^ 30 + 8 }
     ({ base with arrivals := [] } : State).arrivalRefused a (base.barrierAt a.addr) = some stBarrierMisuse) ∧
    (let s := withBarrier { barrier with held := 1, entries := [⟨pidOf 0 1 0 0, 1, true, some arrival, none⟩] } base
     s.barriers.any (fun b => b.entries.any (fun e => e.hold && e.arrival.any (fun a => a.isLocal && a.cmd = cmdKey 0 1))) = true) ∧
    (let s := withBarrier barrier (mail 0x0A01 [(0, 1, 1)] base)
     s.posted 0 0 0x0A01 ∧ s.strangeCtx 0 1 = false ∧ s.barriers.find? (fun b => b.addr = 2 ^ 30 % devSize) = some barrier) := by decide +kernel

theorem test_barrier_query : after (exec (.barrierQuery 0 0) (withBarrier barrier (mail 0x0A01 [(0, 1, 1)] base)))
    (fun t => (status t, fieldAt (readBytes (t.fn 0).mb 18 2) 0 2)) = some ((0, true), 2) := by decide +kernel

/-! ### Descriptors -/

/-- Core 0 with batch buffer 0 loaded. -/
def loaded (w : Nat) (b : List Byte) : State :=
  withCore (fun k => { k with seq := { k.seq with valid0 := true, buf0 := b ++ List.replicate (2048 - b.length) 0 } }) (atWord w)

/-- A COPY descriptor of 64 bytes within scratch, and a COPY of a type code that no descriptor has. -/
def copyDesc : List Byte := leBytes 1 5 ++ leBytes 1 1 ++ leBytes 1 2 ++ List.replicate 61 0

theorem witness_descriptorIssue :
    (let w := 0x21 * 2 ^ 56
     let s := loaded w (leBytes 1 0 ++ leBytes 1 1 ++ List.replicate 62 0)
     s.atIns 0 0x21 w ∧ ((s.core 0).issued? w).isSome = true ∧ s.judge 0 (leBytes 1 0 ++ leBytes 1 1 ++ List.replicate 62 0) (some []) = none ∧
       (s.core 0).room 0 = true ∧ ((atWord w).core 0).issued? w = none ∧
       s.judge 0 (leBytes 1 0xFF ++ List.replicate 63 0) (some []) = some stBadPattern ∧
       ({ qMove := List.replicate 8 { bytes := [] } } : Core).room 5 = false) ∧
    (let w := 0x22 * 2 ^ 56
     let s := atWord w
     s.atIns 0 0x22 w ∧ recordCount (s.scr 0 1 0 64) = 0 ∧ 64 ≤ s.winSize 1 ∧ bitAt (s.scrRangeFlags 0 1 0 64) 0 = false) ∧
    (let w := 0x30 * 2 ^ 56
     let s := atWord w
     s.atIns 0 0x30 w ∧ (s.queue 0).state ≠ 0 ∧ (s.queue 0).ctx = (s.core 0).ctx ∧ s.slotsFree 0 1 = true ∧
       runCmd.key = cmdKey 0 1 ∧ (s.core 0).seq.enqs < 16 ∧
       ((s.updCmd (cmdKey 0 1) (fun c => { c with enqs := [⟨0, 0, [], 1, true, 1⟩] })).slotsFree 0 1 = false)) ∧
    (let w := 0x38 * 2 ^ 56
     (atWord w).atIns 0 0x38 w ∧ ((atWord w).core 0).drained 0xF = true ∧ ((atWord w).core 0).wpend = 0 ∧
       runCmd.endedCores + 1 = runCmd.cores.length ∧ (0 + 1 : Nat) ≠ [0, 1].length) ∧
    (atWord (0x39 * 2 ^ 56 + 5)).atIns 0 0x39 (0x39 * 2 ^ 56 + 5) := by decide +kernel

theorem test_end : after (exec (.seqEnd 0) (atWord (0x38 * 2 ^ 56))) (fun t => ((t.cmd? (cmdKey 0 1)).map (fun c => (decide (c.phase = .ended), c.status)))) =
    some (some (true, 0)) := by decide +kernel

theorem test_fail : after (exec (.seqFail 0) (atWord (0x39 * 2 ^ 56 + 5))) (fun t => ((t.cmd? (cmdKey 0 1)).map (fun c => (c.status, c.detail)))) =
    some (some (stPatternFailed, 5)) := by decide +kernel

/-! ### Vector instructions -/

/-- An element program's instruction: opcode, destination, A, B and C. -/
def vxWord (op d a b c : Nat) : BitVec 32 := BitVec.ofNat 32 (op * 2 ^ 26 + d * 2 ^ 23 + a * 2 ^ 18 + b * 2 ^ 13 + c * 2 ^ 8)

/-- With V0 and V1 of core 0's element. -/
def withV (x y : Nat) (s : State) : State := s.withElem 0 { v := [x, y, 0, 0, 0, 0, 0, 0] }

/-- V2 and the flags after an instruction. -/
def v2 (o : Host.Outcome State Fault Refusal) : Option (Nat × Nat) := after o (fun t => (nthD 0 (t.elem 0).v 2, (t.elem 0).flags))

theorem witness_vectorFloat : (∀ op ∈ List.range 0x18, vxOpc (vxWord op 2 0 1 0).toNat = op) ∧
    (let e := (withV 0x7FC00000 0 base).elem 0
     (fvIsNan (f32 (e.operand 0)) || fvIsNan (f32 (e.operand 1))) = true) ∧
    (let e := (withV 0x3F800000 0x40000000 base).elem 0
     (fvIsNan (f32 (e.operand 0)) || fvIsNan (f32 (e.operand 1))) = false) := by decide +kernel

/-- 1.0 + 2.0 = 3.0, 1.0 < 2.0, and FMIN of 1.0 and 2.0. -/
theorem test_fadd : v2 (exec (.vxFadd 0 (vxWord 0x02 2 0 1 0)) (withV 0x3F800000 0x40000000 base)) = some (0x40400000, 0) ∧
    v2 (exec (.vxFclt 0 (vxWord 0x11 2 0 1 0)) (withV 0x3F800000 0x40000000 base)) = some (1, 0) ∧
    v2 (exec (.vxFmin 0 (vxWord 0x06 2 0 1 0)) (withV 0x3F800000 0x40000000 base)) = some (0x3F800000, 0) := by decide +kernel

/-- R53: the largest FP32 value doubled saturates, with SAT_FLOAT; 1.0 / 4.0 and the square root of 4.0 are exact. -/
theorem test_fmul : v2 (exec (.vxFmul 0 (vxWord 0x04 2 0 1 0)) (withV 0x7F7FFFFF 0x40000000 base)) = some (0x7F7FFFFF, 4) ∧
    v2 (exec (.vxFdiv 0 (vxWord 0x0A 2 0 1 0)) (withV 0x3F800000 0x40800000 base)) = some (0x3E800000, 0) ∧
    v2 (exec (.vxFsqrt 0 (vxWord 0x0B 2 1 1 0)) (withV 0 0x40800000 base)) = some (0x40000000, 0) := by decide +kernel

theorem witness_vectorIntegers :
    (∀ op ∈ [0x18, 0x19, 0x1A, 0x1B, 0x1C, 0x1D, 0x1E, 0x1F, 0x20, 0x21, 0x22, 0x23, 0x24, 0x28, 0x29, 0x2A, 0x2B, 0x2C, 0x2D, 0x2E, 0x30],
      vxOpc (vxWord op 2 0 1 0).toNat = op) ∧
    vxBit4 (vxWord 0x30 0 0 0 0).toNat = false ∧ bitAt (vxWord 0x30 0 0 0 0).toNat 23 = false ∧
    vxBit4 (vxWord 0x30 1 0 0 0 ||| 16).toNat = true ∧ bitAt (vxWord 0x30 1 0 0 0 ||| 16).toNat 23 = true := by decide +kernel

/-- 2^31 − 1 plus 1 clamps and sets SAT_INT; −8 shifted right by 1 is −4. -/
theorem test_iadd : v2 (exec (.vxIadd 0 (vxWord 0x18 2 0 1 0)) (withV 0x7FFFFFFF 1 base)) = some (0x7FFFFFFF, 2) ∧
    v2 (exec (.vxShra 0 (vxWord 0x21 2 0 1 0)) (withV 0xFFFFFFF8 1 base)) = some (0xFFFFFFFC, 0) := by decide +kernel

/-! ### Engine descriptors -/

def vecBytes (builtin : Nat) : List Byte :=
  leBytes 2 0x103 ++ leBytes 3 0 ++ leBytes 1 1 ++ leBytes 3 64 ++ leBytes 1 builtin ++ leBytes 2 1 ++ leBytes 2 1 ++ leBytes 2 0 ++ leBytes 1 builtin ++
    leBytes 2 1 ++ List.replicate 45 0

def vecState (builtin : Nat) : State := withCore (fun k => { k with qVector := [{ bytes := vecBytes builtin }] }) base

/-- A MATRIX descriptor of BF16 operands without row blocks, and a GATHER of no indices. -/
def mxBytes : List Byte := leBytes 2 0x102 ++ leBytes 1 0x11 ++ List.replicate 61 0
def idle : GatherRun := { gid := 3, desc := List.replicate 64 0 }

def mxState (b : List Byte) : State := withCore (fun k => { k with qMatrix := [{ bytes := b }] }) base

/-- An INT8 MATRIX of one chunk, and an error in the check of its first group. -/
def intBytes : List Byte := leBytes 2 0x102 ++ leBytes 1 0x77 ++ leBytes 1 0 ++ leBytes 2 1 ++ leBytes 1 0 ++ leBytes 1 0 ++ leBytes 3 1 ++ List.replicate 53 0
def sumError (delta : Int) : SumError := ⟨0, 0, 0, 0, delta⟩

theorem witness_engineDescriptors :
    (let s := vecState 0
     let d := parseVec (vecBytes 0)
     s.engines 0 = true ∧ d.builtin = 0 ∧ ((vecWork 0 d (streamsOf d [])).run s).1.isOk = true ∧ (s.core 0).wpend = 0 ∧
       (((vecState 0).updCore 0 (fun k => { k with vx := { k.vx with sent := true } })).core 0).vx.sent = true) ∧
    (lostWord [⟨.engine, 3⟩] = true ∧ lostWord [⟨.scratch 0, 1⟩, ⟨.bobbin, 3⟩] = false ∧
      ((mxState mxBytes).core 0).qMatrix = [{ bytes := mxBytes }] ∧ ((vecState 0).core 0).qVector = [{ bytes := vecBytes 0 }]) ∧
    (let s := mxState mxBytes
     let d := parseMx mxBytes
     ∃ xf wf p, fmtOfCode d.xFmt = some xf ∧ fmtOfCode d.wFmt = some wf ∧ mxPair xf wf = some p ∧ (s.core 0).mx.held &&& d.slotMask = 0 ∧
       d.count = 1 ∧ ((mxOwn 0 d p xf wf 0 [] []).run s).1.isOk = true ∧
       ((mxTail 0 d p xf wf).run ((mxOwn 0 d p xf wf 0 [] []).run s).2).1.isOk = true) ∧
    (let s := withCore (fun k => { k with qGather := [{ bytes := [], gid := 3 }], gathers := [idle] }) base
     (s.core 0).run? 3 = some idle ∧ ((gatherLoop 0 3 false (2 * (idle.count + 2 * idle.bags + idle.entries.length) + 8)).run s).1.isOk = true) ∧
    (let s := vecState 1
     let d := parseVec (vecBytes 1)
     d.builtin = 1 ∧ (streamsOf d [List.replicate 44 0 ++ leBytes 2 1]).map (fun e => bitAt (s.scrRangeFlags 0 1 e.2.mag (4 * e.2.pk)) 0) = [false]) := by
  refine ⟨by decide +kernel, by decide +kernel, ⟨.bf16, .bf16, ⟨.float, 32, 1⟩, by decide +kernel⟩, by decide +kernel, by decide +kernel⟩

/-- R247: an error of 1 in a latched sum is found at its check; one of 7 is not. -/
theorem witness_arithmeticFaults :
    ([([1, 2], 3)] : List (List Int × Int)).all (fun e => e.1.length ≤ 64) ∧
    ((mxState intBytes).mxDetected 0 [sumError 1]).map (·.2.2.2.2.2) = some (sumError 1) ∧ (mxState intBytes).mxDetected 0 [sumError 7] = none ∧
    (vecState 0).engines 0 = true ∧
    (let s := withCore (fun k => { k with cmd := none }) base
     (s.core 0).cmd = none ∧ (s.rasOf 0).state = 0 ∧ leastBelow 8 (fun i => (kfind s.ras.captures i).isNone) = some 0) := by
  refine ⟨by decide +kernel, ?_, ?_, ?_, ?_⟩ <;> decide +kernel

def copyOf (dir : Nat) : List Byte := leBytes 2 0x105 ++ leBytes 1 dir ++ List.replicate 61 0

theorem witness_transfers :
    (let s := withCore (fun k => { k with qMove := [{ bytes := copyOf 2 }] }) base
     s.engines 0 = true ∧ fieldAt (copyOf 2) 0 1 = 5 ∧ (parseCopy (copyOf 2)).dir = 2 ∧ (s.core 0).moveSent = false ∧
       bitAt (s.scrRangeFlags 0 1 (parseCopy (copyOf 2)).scr (parseCopy (copyOf 2)).len) 0 = false) ∧
    (let s := withCore (fun k => { k with qMove := [{ bytes := leBytes 2 0x104 ++ List.replicate 62 0 }], procBegun := true, procRoom := [4] }) base
     (s.core 0).procHead?.isSome = true ∧ (s.core 0).procBegun = true ∧ (s.core (successor 1 0)).procRoom = [4]) ∧
    (let f : RingFlow := { dst := 0, src := 0, off := 0, data := [], flags := [], tally := 0, cmd := 0 }
     ({ base with flows := [f] } : State).flows.find? (fun f => f.dst = 0) = some f) := by decide +kernel

/-- The worked examples of R58 and R53: BF16 of FP32 patterns, ties to even and away. -/
theorem test_bf16_rounding :
    [0x3F808000, 0xBF808000, 0x3F818000, 0x3F808001, 0x7F7FFFFF].map (fun x => (floatEncode (floatSpec .bf16) false (f32 x)).1) =
      [0x3F80, 0xBF80, 0x3F82, 0x3F81, 0x7F7F] ∧
    [0x3F808000, 0xBF808000, 0x3F818000, 0x3F808001, 0x7F7FFFFF].map (fun x => (floatEncode (floatSpec .bf16) true (f32 x)).1) =
      [0x3F81, 0xBF81, 0x3F82, 0x3F81, 0x7F7F] := by decide +kernel

/-- The CRC-32C check value of "123456789" (R462). -/
theorem test_crc32c : crc32c ([0x31, 0x32, 0x33, 0x34, 0x35, 0x36, 0x37, 0x38, 0x39] : List Byte) = 0xE3069283 := by decide +kernel

/-! ### Bobbin and the exchange -/

def tag (units : Nat) : BobTag :=
  { isLocal := true, pref := false, tier := 0, units := units, first := 0, freq := 0, age := 7, row := 0, table := 0, epoch := 0, slot := [],
    noticed := false, ties := false }

theorem witness_bobbinSetCapacity : (tag 16).units ≤ 16 ∧
    (let sl : Slice := { tags := [(bobSet 0 0 * 16, tag 16), (bobSet 0 0 * 16 + 1, { tag 16 with row := 5000 })] }
     (sl.ways (bobSet 0 0)).length ≤ 16 ∧ ((sl.ways (bobSet 0 0)).map (·.2.units)).sum = 32) := by decide +kernel

/-- Table 1 serves 64 rows of FP32 from unit 0 at this part, bucket by bucket. -/
def tabled (s : State) : State :=
  { s with tables := [(1, { state := 2, desc := leBytes 8 1 ++ leBytes 8 64 ++ List.replicate 48 0, capacity := 2 ^ 25, units := [0] })],
           pool := { s.pool with members := 1 } }

def missed (s : State) : State :=
  tabled (s.updSlice 0 (fun sl => { sl with misses := [{ table := 1, row := 0, epoch := 0, prefetch := false, waiters := [⟨0, 0, 3, 0⟩] }] }))

theorem witness_bobbinOperation :
    (let s := base.updSlice 0 (fun sl => { sl with agePeriod := 0, lookups := 65536, tags := [(0, tag 1)] })
     (s.slice 0).agePeriod ≤ 10 ∧ 2 ^ (16 + (s.slice 0).agePeriod) ≤ (s.slice 0).lookups) ∧
    (let s := missed base
     ((s.slice 0).misses.find? (fun m => m.table = 1 && m.row = 0 && m.epoch = 0)).isSome = true ∧ (s.lookupTarget 0 1 0 0).1 = s.pool.partId) ∧
    (match (missed base).ownerRow 0 1 0 0 with | (_, .reply e) => decide (e.estatus ≠ 2) | _ => false) = true ∧
    (let s := withCore (fun k => { k with gathers := [{ idle with entries := [{ source := 1 }] }] }) base
     s.halted 0 = false ∧ ((s.core 0).run? 3).isSome = true ∧ (((s.core 0).run? 3).bind (fun g => g.entry? 0)) = some { source := 1 } ∧
       (match (tabled s).ownerRow ((tabled s).readBucket 0) 1 0 0 with | (_, .reply r) => decide (r.estatus ≠ 2) | _ => false) = true) ∧
    (let p : PrefStep := { cmd := cmdKey 0 1, hint := 0, pos := 0, issued := [] }
     let m := { runCmd with phase := .waiting, entry := List.replicate 56 0 ++ leBytes 8 1 }
     let s : State := { base with prefetch := [p], cmds := [(cmdKey 0 1, m)], ctxs := [(1, { (base.ctx 1) with place := 1 })] }
     s.link.up = true ∧ s.cmd? p.cmd = some m ∧ (s.ctx m.ctx).place ≠ 0 ∧ p.hint < m.u 56 1 ∧ ((prefetchOne p m).run (s.forgetPref (fun c => decide (c ≠ p.cmd)))).1.isOk = true) := by
  decide +kernel

def entry1 : XchgEntry := { table := 1, row := 0, gen := 0, core := 0, gid := 3, entry := 0, cmd := cmdKey 0 1 }
def batch1 : Batch := { owner := 0, part := 0, epoch := 0, prefetch := false, redirected := false, entries := [entry1], opened := 0 }

/-- Exchange unit 0 holds the batch, and has tokens in every bucket. -/
def exchanging (f : Exchange → Exchange) (s : State) : State :=
  tabled (s.updExch 0 (fun x => f { x with tokens := [(bucketKey 0 1, 8192), (bucketKey 0 2, 8192), (bucketKey 16 0, 8192)] }))

theorem witness_exchangeBatches :
    (let s := exchanging (fun x => { x with round := [batch1] }) base
     let v := s.flushWrites 0
     let u := v.updExch 0 (fun x => (x.startRound (v.writesWaiting 0) v.pool.partId).offerAgain v.refCount)
     (u.exch 0).nextBatch (u.writesWaiting 0) = some batch1 ∧ ((u.updExch 0 (fun x => { x with round := x.round.erase batch1 })).sendBatch 0 batch1 false).isSome = true ∧
       s.member 0 = true ∧ (s.exch 0).freeSlot = some 0 ∧ batch1.owner = s.pool.partId ∧ (s.exch 0).holds batch1.bucket 32 = true) ∧
    (let b := { batch1 with prefetch := true }
     (({ round := [b] } : Exchange).nextBatch [1] = some b ∧ ({ round := [b] } : Exchange).nextBatch [0] = none) ∧
       ((base.exch 0).nextBatch (base.writesWaiting 0)).isNone = true ∧ (({} : Exchange).holds batch1.bucket 32 = false)) ∧
    (let s := base.updExch 0 (fun x => { x with round := [batch1] })
     let v := s.flushWrites 0
     let u := v.updExch 0 (fun x => (x.startRound (v.writesWaiting 0) v.pool.partId).offerAgain v.refCount)
     (u.exch 0).nextBatch (u.writesWaiting 0) = some batch1 ∧ ((u.updExch 0 (fun x => { x with round := x.round.erase batch1 })).sendBatch 0 batch1 false) = none) ∧
    ({} : Exchange).accepts 1 0 0 false false = true ∧ ({} : Exchange).openCount ≤ 1024 ∧
    (let s := exchanging (fun x => { x with slots := [(5, { kind := 0, batch := batch1, sent := 0 })] }) { base with refCount := 5000 }
     (kfind (s.exch 0).slots 5).isSome = true ∧ s.since 0 batch1.timeout = true) := by decide +kernel

def hdr1 : MsgHdr := { srcPart := 0, srcCluster := 0, tagSlot := 5 }

def serving1 : Serving := { sid := 1, hdr := hdr1, entries := [{ table := 1, row := 0, gen := 0, reply := some { estatus := 1 } }], arrived := 0, held := false }

theorem witness_lookups :
    (base.epochs.epoch < ({ hdr1 with epoch := 1 } : MsgHdr).epoch ∧ hdr1.epoch ≤ base.epochs.epoch ∧ hdr1.prefetch = false ∧
      ({ hdr1 with prefetch := true } : MsgHdr).prefetch = true) ∧
    (let s := exchanging id base
     let late := s.updEp (fun p => { p with epoch := 2 })
     let held := s.updSlice 0 (fun sl => sl.install { tag 1 with table := 1, epoch := 0 })
     let e : LookupEntry := ⟨1, 0, 0⟩
     let x := s.exch 0
     let v : Serving := { sid := x.nextSid, hdr := hdr1, entries := [{ table := 1, row := 0, gen := 0 }], arrived := s.refCount, held := false }
     let s2 := (s.takeMsg (.lookupReq hdr1 [e])).updExch 0 (fun x => { x with serving := x.serving ++ [v], nextSid := x.nextSid + 1 })
     let s3 := s2.updExch 0 (fun x => { x with counters := bump x.counters 0x150 1 })
     let s4 := if s3.ownsRow 1 0 then s3.skewLookup 1 0 else s3
     (x.serving = [] ∧ x.forwarding x.nextSid 0 = false ∧ (s.slice 0).holdsServe x.nextSid 0 = false ∧ s.copyPending 1 0 0 = false) ∧
       hdr1.epoch + 1 < late.epochs.epoch ∧ s.epochs.epoch ≤ hdr1.epoch + 1 ∧ (s.table 2).state ≠ 2 ∧
       ((s.table 1).state = 2 ∧ (s.table 1).gen = e.gen ∧ e.row < (s.table 1).rowCount ∧ ¬ (64 < (s.table 1).rowCount)) ∧
       ((held.slice 0).hit 1 0 0).isSome = true ∧ (held.table 1).state = 2 ∧
       (match s2.ownerRow (bucketKey 16 0) 1 0 0, s4.bobLookup 0 1 0 0 true with
        | (_, .reply r), (s5, none) => (match s5.ownerRow (bucketKey 16 0) 1 0 0 with | (_, .reply q) => decide (r = q) | _ => false)
        | _, _ => false) = true ∧ (s.slice 0).joinable 1 0 0 = false) ∧
    (let s := exchanging (fun x => { x with serving := [serving1] }) base
     let r : ReplyEntry := { estatus := 1 }
     (s.exch 0).serving = [serving1] ∧ serving1.held = false ∧ serving1.sent = 0 ∧ serving1.entries.map (·.reply) = [some r] ∧ r.slot16 ≤ 64 ∧
       kget [] s.outbox 0 = [] ∧ (s.exch 0).holds (bucketKey 16 0) (16 + (Msg.lookupReply { hdr1 with seg := 0 } [r]).bytes) = true) ∧
    (let v := { serving1 with held := true, hdr := { hdr1 with prefetch := true } }
     let s := exchanging (fun x => { x with serving := [v] }) { base with refCount := 9000 }
     v ∈ (s.exch 0).serving ∧ v.held = true ∧ s.since v.arrived 4 = true ∧ s.since v.arrived (s.exch 0).timeout = true) ∧
    base.answered? hdr1 0 = none ∧
    (let o : OutSlot := { kind := 0, batch := batch1, sent := 0 }
     let s := exchanging (fun x => { x with slots := [(5, o)] }) base
     (s.takeMsg (.lookupReply hdr1 [{ estatus := 1 }])).answered? hdr1 0 = some o ∧ o.batch.entries = [entry1] ∧ entry1.answered = false ∧
       hdr1.seg = 0) ∧
    (let s := (missed base).updCore 0 (fun k => { k with gathers := [{ idle with entries := [{ source := 2 }] }] })
     let m : Miss := { table := 1, row := 0, epoch := 0, prefetch := false, waiters := [⟨0, 0, 3, 0⟩] }
     entry1.isOwn = false ∧ 4 ≤ ({ entry1 with hops := 3 } : XchgEntry).hops + 1 ∧ entry1.hops + 1 < 4 ∧ 1 ≠ s.pool.partId ∧ (s.slice 0).missOf 1 0 0 entry1.waiter = some m ∧ s.waits 0 entry1.waiter = true) ∧
    (let s := withCore (fun k => { k with cmd := none }) (missed base)
     s.waits 0 entry1.waiter = false ∧ ([⟨0, 0, 3, 0⟩] : List MissWaiter).find? s.ringWaits = none) := by decide +kernel

/-- R161's worked example: part 58, cluster 5, slot 0x07A with use count 3, 45 entries, epoch 1207. -/
theorem test_lookup_header : (({ srcPart := 58, srcCluster := 5, tagSlot := 0x07A, tagSeq := 3, epoch := 1207 } : MsgHdr).bytes 1 45).map BitVec.toNat =
    [0x01, 0x00, 0x3A, 0x14, 0x7A, 0x06, 0x2D, 0x00, 0xB7, 0x04, 0x00, 0x00, 0x00, 0x00, 0x00, 0x00] := by decide +kernel

/-- R163's worked example: a T2 slot of 16 bytes, and a redirection to part 209. -/
theorem test_reply_header : ({ estatus := 0, slot16 := 1, tier := 2 } : ReplyEntry).header = 0x00020100 ∧
    ({ estatus := 2, holder := 209 } : ReplyEntry).header = 0x06880002 := by decide +kernel

/-! ### Remote accesses and the access list -/

def out (kind : Nat) : OutSlot := { kind := kind, batch := { batch1 with entries := [] }, sent := 0, addr := 0, len := 0, cmd := cmdKey 0 1, core := 0 }

/-- Region 0 admits reads, writes and arrivals of partition 0 from every member. -/
def admitting (s : State) : State := { s with pool := { s.pool with acl := [(0, 2 ^ 48 + 0x1E)], members := 3 } }

theorem witness_remoteAccesses :
    (let s := admitting (exchanging id base)
     (s.accessOk 1 2 0 0 = true ∧ s.accessOk 1 3 0 0 = true ∧ s.accessOk 1 4 0 0 = true) ∧
       (s.accessOk 1 2 1 0 = false ∧ s.accessOk 2 3 0 0 = false ∧ s.accessOk 1 4 0 (2 ^ 30) = false) ∧
       s.pool.partId ≠ 1 ∧ kget [] s.outbox 0 = [] ∧ (s.exch 0).holds (bucketKey 16 0) (16 + (Msg.readReply hdr1 0 []).bytes) = true ∧
       (base.exch 1).holds (bucketKey 16 0) 8192 = false) ∧
    (let s := (exchanging (fun x => { x with slots := [(5, out 1)] }) base).updCore 0 (fun k => { k with rpend := [0] })
     (s.takeMsg (.readReply hdr1 0 [{ data := [] }])).answered? hdr1 1 = some (out 1) ∧ (out 1).core < 128 ∧
       (s.core 0).rpend.contains ((out 1).addr / 64 + 0) = true) ∧
    (let s := exchanging (fun x => { x with slots := [(5, out 2)] }) base
     (s.takeMsg (.writeAck hdr1 0)).answered? hdr1 2 = some (out 2) ∧ (s.core 0).cmd = some (out 2).cmd) ∧
    (let s := (exchanging (fun x => { x with slots := [(5, out 3)] }) base).updCore 0 (fun k => { k with seq := { k.seq with arrHeld := true } })
     (s.takeMsg (.arriveAck hdr1 0)).answered? hdr1 3 = some (out 3) ∧ (s.core 0).cmd = some (out 3).cmd ∧ (out 3).len = 0 ∧
       (s.core 0).seq.arrHeld = true) := by decide +kernel

/-- What a control request's read of memory gives. -/
def reads {α : Type} (m : CM α) (s : State) : Bool := (m.run s).1.isOk

theorem witness_accessList :
    (let s := mail 0x060A [(8, 8, 2 ^ 48 + 0x1E)] base
     let r := s.req 0 0
     s.posted 0 0 0x060A ∧ r.u 0 1 ≤ r.u 1 1 ∧ r.u 8 1 % 4 ≠ 3 ∧ s.pool.aclDrains = [] ∧ s.passedIn (r.u 0 1) (r.u 1 1) = [] ∧
       ksorted s.pool.acl = true ∧ ksorted s.pool.aclMap = true) ∧
    (let s := mail 0x060A [(8, 8, 2 ^ 48 + 0x1D), (16, 8, 4096)] base
     (s.req 0 0).u 8 1 % 4 = 1 ∧ reads (readCp (cpWho 0) 4096 128) s = true) ∧
    (let s := mail 0x060B [(8, 8, 4096)] base
     let b : BackInv := { line := 9, cmd := 0, data := [], mask := [], info := {}, hdr := some hdr1, whole := true }
     let t : State := { base with link := { base.link with pendingInv := [b] } }
     base.link.pendingInv.length ≤ 0 ∧ 0 < t.link.pendingInv.length ∧ (b.whole && b.hdr.any (fun h => decide (h = hdr1))) = true ∧
     s.posted 0 0 0x060B ∧ reads (writeCp (cpWho 0) (0, 0) 4096 (leBytes 128 0)) s = true) := by decide +kernel

/-! ### Queues and mailboxes -/

/-- A waiting command of a queue, at its head since the tick 0, with fence words. -/
def waiting (q seq kind f0 f1 : Nat) : Cmd :=
  { queue := q, seq := seq, ctx := 1, part := 0, kind := kind, accepted := 0, headAt := some 0,
    entry := leBytes 16 kind ++ leBytes 8 f0 ++ leBytes 8 f1 ++ List.replicate 32 0 }

/-- Queue 0 is ACTIVE with 64 entries, a timeout of 10 µs, and only this command. -/
def heading (c : Cmd) (s : State) : State :=
  { s with queues := [(0, { state := 1, ctx := 1, commit := 1, seq := 1, timeout := 10 })], cmds := [(cmdKey 0 1, c)] }

theorem witness_queueIntake :
    (base.intake 0 = true ∧ base.strangeQueue 0 0 = false ∧ base.intake 1 = true ∧ base.strangeQueue 1 7 = true ∧ (base.queue 0).state ≠ 0 ∧
      base.strangeCtx 1 (2 ^ 20 / 2 ^ 20) = false ∧ base.strangeCtx 2 1 = true ∧ base.protectedPage 1 1 = false ∧
      base.commitsIn 1 4096 4 = [] ∧ base.commitsIn 1 0 4 = [0] ∧ (0 : Nat) % 4096 + 4096 ≤ 4096) ∧
    (let u := base.queue 0
     u.commit < 2 ^ 32 ∧ u.state = 1 ∧ u.closing = none ∧ (65 + 2 ^ 32 - u.commit) % 2 ^ 32 = 2 ^ u.sqLog2 - u.reserved ∧
       (66 + 2 ^ 32 - u.commit) % 2 ^ 32 = 2 ^ u.sqLog2 - u.reserved + 1 ∧ base.slotsFree 0 64 = true ∧ base.slotsFree 0 65 = false ∧
       ((base.updCmd (cmdKey 0 1) (fun c => { c with enqs := [⟨0, 0, [], 0, true, 3⟩] })).slotsFree 0 2 = true) ∧
       ((base.updCmd (cmdKey 0 1) (fun c => { c with enqs := [⟨0, 0, [], 0, true, 3⟩] })).slotsFree 0 3 = false) ∧ (base.queue 5).state = 0 ∧ base.strangeCtx 0 u.ctx = false ∧
       base.protectedPage u.ctx (u.sqOff / 4096) = false ∧ u.sqOff + 64 ≤ 2 ^ 20 ∧ u.sqOff % 4096 = 0 ∧ base.commitsIn u.ctx u.sqOff 4 = [0] ∧
       Memory.wf base.mem = true ∧ base.lineHeld ((windowBacking + u.ctx * 2 ^ 20 + u.sqOff) / 64) = false ∧
       ∀ w ∈ codewords (windowBacking + 2 ^ 20 + 4096) 4, base.lineHeld w = false) := by decide +kernel

/-- A write of COMMIT through the window is a wake; a write beside it is stored. -/
theorem test_commitWrite :
    after (exec (.commitWrite 0 0 2) base) (fun t => ((t.queue 0).commit, (t.queue 0).seq)) = some (2, 2) ∧
    after (exec (.bar2Write 0 0x101000 [7]) base) (fun t => ((t.queue 0).commit, kget 0 t.mem.bytes (windowBacking + 0x101000))) =
      some (1, 7) := by decide +kernel

/-- A wake with count 2 accepts one entry, which gets sequence 2; one with count 66 is more than the ring holds. -/
theorem test_doorbell :
    after (exec (.feSqDoorbellWrite 0 0 2) base) (fun t => ((t.queue 0).commit, (t.queue 0).seq)) = some (2, 2) ∧
    after (exec (.feSqDoorbellWrite 0 0 66) base) (fun t => ((t.queue 0).commit, (t.queue 0).seq)) = some (1, 1) := by decide +kernel

theorem witness_commandEnds :
    (let s := base.updQueue 0 (fun u => { u with written := 5, head := 2 })
     let u := s.queue 0
     s.reach 0 = true ∧ s.strangeQueue 0 0 = false ∧ u.state ≠ 0 ∧ (5 + 2 ^ 32 - u.head) % 2 ^ 32 ≤ (u.written % 2 ^ 32 + 2 ^ 32 - u.head) % 2 ^ 32 ∧
       (u.written % 2 ^ 32 + 2 ^ 32 - u.head) % 2 ^ 32 < (6 + 2 ^ 32 - u.head) % 2 ^ 32) ∧
    (let s := heading (waiting 0 1 kindStep 0 0) { base with refCount := 1000 }
     s.cmd? (cmdKey 0 1) = some (waiting 0 1 kindStep 0 0) ∧ s.elapsed (waiting 0 1 kindStep 0 0) = true ∧
       (waiting 0 1 kindStep 0 0).draining = none ∧ ({ s with refCount := 999 } : State).elapsed (waiting 0 1 kindStep 0 0) = false) ∧
    (∀ kill ∈ [true, false], let c := { runCmd with headAt := some 0 }
     let s := (withCore (fun k => { k with qMove := [{ bytes := copyDesc }] }) (heading c { base with refCount := 1000 })).updQueue 0
       (fun u => { u with kill := kill })
     s.cmd? (cmdKey 0 1) = some c ∧ c.phase = .running ∧ s.elapsed c = true ∧ (s.queue 0).kill = kill ∧
       (s.updCmd (cmdKey 0 1) (fun c => { c with drained := true, draining := some s.refCount })).cmdDrained c = false) ∧
    (let c := { runCmd with draining := some 0 }
     ({ heading c base with refCount := 3000 } : State).cmd? (cmdKey 0 1) = some c ∧ (0 : Nat) + 3000 ≤ 3000) ∧
    (let c := { runCmd with phase := .ended }
     (heading c base).cmd? (cmdKey 0 1) = some c ∧ (heading c base).link.pendingInv = []) ∧
    (let h := waiting 0 1 kindMarker (1 * 65536 + 2 ^ 15 + 1) 0
     let g := waiting 1 1 kindMarker (1 * 65536 + 2 ^ 15 + 0) 0
     let s := { heading h base with queues := [(0, { state := 1, ctx := 1, seq := 1 }), (1, { state := 1, ctx := 1, seq := 1 })],
                                    cmds := [(cmdKey 0 1, h), (cmdKey 1 1, g)] }
     s.head? 0 = some h ∧ s.head? 1 = some g ∧ (s.waitsOn h).all (fun w => w.1 ≠ 0) = true ∧ (s.waitsOn g).all (fun w => w.1 ≠ 1) = true ∧
       s.headWaits 0 1 = true ∧ s.headWaits 1 0 = true) := by decide +kernel

theorem test_commandTimeout :
    after (exec (.commandTimeout 0 1) (heading (waiting 0 1 kindStep 0 0) { base with refCount := 1000 }))
      (fun t => (t.cmd? (cmdKey 0 1)).map (fun c => (decide (c.phase = .ended), c.status))) = some (some (true, stTimeout)) := by decide +kernel

/-- With the Almanac of partition 0 placed. -/
def almanac (s : State) : State := s.updPart 0 (fun q => { q with alm := { q.alm with placed := true, writeSeq := 3 } })

/-- A QUEUE_CREATE in slot 0. -/
def creating : State := mail 0x0301 [(0, 1, 1), (2, 1, 6), (3, 1, 16), (4, 4, 10), (8, 4, 4096), (12, 2, 3)] (almanac base)

theorem witness_queueOperations :
    (let s := creating
     let r := s.req 0 0
     s.posted 0 0 0x0301 ∧ s.strangeCtx 0 (r.u 0 1) = false ∧ 6 ≤ r.u 2 1 ∧ r.u 3 1 ≤ 16 ∧ 10 ≤ r.u 4 4 ∧ r.u 8 4 % 4096 = 0 ∧
       r.u 8 4 + 64 * (2 ^ r.u 2 1 + 1) ≤ 2 ^ 20 ∧ queueVector 0 (r.u 12 2) = true ∧ r.u 16 8 + 64 * 2 ^ r.u 3 1 ≤ 2 ^ 52 ∧
       leastBelow 1024 (fun q => (s.queue q).state = 0) = some 1 ∧ (s.ctx (r.u 0 1)).phase = 3 ∧
       (s.part (s.ctx (r.u 0 1)).part).alm.placed = true) ∧
    (let s := { mail 0x0302 [] base with cmds := [] }
     s.posted 0 0 0x0302 ∧ s.strangeQueue 0 0 = false ∧ (s.req 0 0).u 0 2 = 0 ∧ (s.queue 0).state ≠ 0 ∧ (s.queue 0).closing = none ∧
       s.queueCmds 0 = [] ∧ ksorted s.queues = true) ∧
    (let s := mail 0x0303 [(0, 2, 1023)] base
     s.posted 0 0 0x0303 ∧ s.strangeQueue 0 1023 = false ∧ (s.req 0 0).u 0 2 < 1024) ∧
    (let s := (mail 0x0304 [(16, 1, 6)] base).updQueue 0 (fun u => { u with state := 2 })
     s.posted 0 0 0x0304 ∧ 6 ≤ (s.req 0 0).u 16 1 ∧ (s.req 0 0).u 8 8 = 0 ∧ (s.queue 0).state = 2) ∧
    (let o : AsyncOp := { opId := 7, opcode := 0x0901, tag := 4, irq := false, part := none, done := true }
     let s := (mail 0x0309 [(0, 4, 7)] base).updFn 0 (fun n => { n with ops := [o] })
     s.posted 0 0 0x0309 ∧ (s.fn 0).ops.find? (fun o => o.opId = (s.req 0 0).u 0 4) = some o ∧ o.done = true) ∧
    (let s := mail 0x0C01 [] base
     s.firmware = true ∧ (s.fn 0).serving 0 = true ∧ implemented (s.req 0 0).opcode = false ∧ (s.req 0 0).slots = 4 ∧ s.service.state ≠ 4 ∧
       inRecovery 0x0C01 = false ∧ ({ s with service := { s.service with state := 4 } } : State).firmware = true) ∧
    (∀ n ∈ [4, 5], let s := base.updFn 0 (fun m => { m with mb := writeBytes [] 0 (mbHeader 0x0301 2 n 7 0 2), taken := [0] })
     s.firmware = true ∧ (s.fn 0).serving 0 = true ∧ implemented (s.req 0 0).opcode = true ∧ (s.req 0 0).version ≠ 1 ∧ (s.req 0 0).slots = n) := by
  refine ⟨?_, ?_, ?_, ?_, ?_, ?_, ?_⟩ <;> decide +kernel

theorem test_queueCreate :
    after (exec (.queueCreate 0 0) creating)
      (fun t => (status t, fieldAt (readBytes (t.fn 0).mb 16 2) 0 2, (t.queue 1).state)) = some ((0, true), 1, 1) := by decide +kernel

theorem witness_almanacOperations :
    (let s := { mail 0x0305 [(1, 1, 16)] base with queues := [] }
     let r := s.req 0 0
     s.posted 0 0 0x0305 ∧ r.u 0 1 < 16 ∧ 16 ≤ r.u 1 1 ∧ r.u 8 8 % 2 ^ 25 = 0 ∧ s.holdsQueue 0 = false ∧
       (s.ringPages ((64 * 2 ^ r.u 1 1 + (2 ^ 25 - 1)) / 2 ^ 25) (r.u 8 8)).isOk = true ∧ bitAt (r.u 2 1) 0 = false) ∧
    (let s := mail 0x0307 [(8, 8, 2)] (almanac base)
     let r := s.req 0 0
     s.posted 0 0 0x0307 ∧ r.foreign 0 = false ∧ (s.part 0).alm.placed = true ∧ r.u 8 8 < (s.part 0).alm.writeSeq ∧
       (mail 0x0306 [] s).posted 0 0 0x0306) := by decide +kernel

theorem witness_controlMailbox :
    (let s := mail 0x0303 [] base
     let p := s.updFn 0 (fun n => { n with mb := writeBytes n.mb 8 [1] })
     s.reach 0 = true ∧ s.slotRunning 0 5 = false ∧ s.slotRunning 0 1 = true ∧ (0x700 + 0 : Nat) / 64 = (0x700 + 64 - 1) / 64 ∧
       (0x1100 : Nat) / 256 = (0x1100 + 64 - 1) / 256 ∧ p.intake 0 = true ∧ p.firmware = true ∧ (p.fn 0).slotState 0 = 1 ∧
       (p.req 0 0).overruns = false ∧ (base.updFn 0 (fun n => { n with mb := writeBytes n.mb 8 [1] })).slotRunning 0 0 = false ∧ (s.fn 0).slotState 0 ≠ 1) ∧
    (let n : Fn := { noticeHold := [⟨1, 2, 0, [], false⟩], noticeNext := 3 }
     n.noticeHold = [⟨1, 2, 0, [], false⟩] ∧ n.slotState (28 + n.noticeNext) = 0) ∧
    (base.firmware = true ∧ (base.fn 0).noticeHold = [] ∧ (base.fn 0).slotState (28 + (base.fn 0).noticeNext) = 0) ∧
    (let o : AsyncOp := { opId := 7, opcode := 0x0901, tag := 4, irq := false, part := none, ready := true }
     let s := base.updFn 0 (fun n => { n with ops := [o] })
     s.firmware = true ∧ (s.fn 0).ops.find? (fun o => o.opId = 7 && o.ready && !o.done) = some o ∧ s.almOf 0 = none) ∧
    (base.almOf 0 = none ∧ ksorted ((mail 0x0303 [] base).fn 0).mb = true ∧ 24 + max 1 ((16 + 240 + 63) / 64) ≤ 28) := by decide +kernel

/-- A mailbox byte within a slot is stored, and one write across two slots is not. -/
theorem test_mailboxSlotWrite :
    after (exec (.mailboxSlotWrite 0 0x13F [7]) base) (fun t => kget 0 (t.fn 0).mb 0x13F) = some 7 ∧
    after (exec (.mailboxSlotWrite 0 0x13F [7, 8]) base) (fun t => kget 0 (t.fn 0).mb 0x13F) = some 0 := by decide +kernel

/-- Channel 0 is bound to rank 0 of context 1, with one cell at scratch 0, and slot 15 holds one byte for it. -/
def express (s : State) : State :=
  s.updFn 0 (fun n => { n with chans := [(0, ⟨1, 0, 1, 3, 4, 0, 100, 0⟩)], mb := writeBytes n.mb 0x1F00 [0, 0, 1, 0, 0x5A] })

theorem witness_expressMailbox :
    (let s := express base
     s.intake 0 = true ∧ (s.fn 0).expBusy.testBit 15 = false ∧ (kfind (s.fn 0).chans ((s.fn 0).expU 15 0 1)).isSome = true ∧
       (s.fn 0).expU 15 2 2 = 1) ∧
    (let s := (express base).updFn 0 (fun n => { n with expBusy := 2 ^ 15 })
     kfind (s.fn 0).chans ((s.fn 0).expU 15 0 1) = some ⟨1, 0, 1, 3, 4, 0, 100, 0⟩ ∧ s.expressCore 1 0 = some (cmdKey 0 1, 0) ∧
       (s.fn 0).expBusy.testBit 15 = true ∧ 0 - (kget ({} : Tally) ((s.core 0).set 1).tallies 4).value < 1 ∧
       s.since (kget 0 (s.fn 0).expTime 15) 100 = false ∧
       ({ s with refCount := 10000 } : State).since (kget 0 (s.fn 0).expTime 15) 100 = true) ∧ base.reach 0 = true ∧
    (let s := mail 0x0308 [(0, 1, 15), (1, 1, 1), (2, 1, 127), (3, 1, 64)] base
     let r := s.req 0 0
     s.posted 0 0 0x0308 ∧ r.u 0 1 < 16 ∧ r.u 3 1 = 64 ∧ s.strangeCtx 0 (r.u 1 1) = false ∧ (s.ctx (r.u 1 1)).phase = 3 ∧ r.u 2 1 < 128 ∧
       r.u 8 3 + 256 * r.u 3 1 ≤ s.winSize (r.u 1 1) ∧ r.u 12 4 = 0) := by decide +kernel

theorem test_expressDelivery :
    after (exec (.expressDelivery 0 15) ((express base).updFn 0 (fun n => { n with expBusy := 2 ^ 15 })))
      (fun t => (t.scr 0 1 4 1, (kget ({} : Tally) ((t.core 0).set 1).tallies 3).value, (t.fn 0).expBusy)) = some ([0x5A], 1, 0) := by decide +kernel

/-! ### Partitions, contexts and the scheduler -/

/-- The bytes of an image at VA 2^30, in host memory: one core, code of one END at offset 64, a window of 64 bytes. -/
def imageBytes : List Byte :=
  let h : List Byte := leBytes 2 1 ++ leBytes 2 0x0100 ++ leBytes 1 1 ++ leBytes 1 2 ++ leBytes 2 0 ++ leBytes 4 64 ++ leBytes 4 8 ++ leBytes 16 0 ++
    leBytes 4 0 ++ leBytes 4 64 ++ leBytes 20 0
  h ++ leBytes 4 (crc32c h) ++ leBytes 8 (0x38 * 2 ^ 56)

/-- With that image, a SEQ image of level 0x0100, and no command of a core running: the command waits at the head of queue 0. -/
def idleWith (c : Cmd) : State :=
  let s := heading c { base with cores := [] }
  { s with host := { s.host with mem := (List.range imageBytes.length).zip imageBytes }, service := { s.service with capLevel := 0x0100 },
           ctxs := [(1, { (base.ctx 1) with phase := 2 })] }

/-- A command with its image at VA 2^30. -/
def imaged (kind : Nat) : Cmd :=
  { waiting 0 1 kind 0 0 with entry := leBytes 8 kind ++ leBytes 8 (2 ^ 30) ++ leBytes 16 0 ++ List.replicate 32 0 }

theorem witness_turnPassing :
    (let s := (idleWith (imaged kindStep)).updPart 0 (fun q => { q with turn := some 1, charge := 40000 })
     (s.part 0).turn = some 1 ∧ (s.ctx 1).sliceUs * 100 ≤ s.chargeNow 0 ∧ turnAfter 1 (s.turnTakers 0) = [1]) ∧
    (let s := (idleWith (imaged kindStep)).updPart 0 (fun q => { q with turn := some 1, charge := 39999 })
     1 ∈ s.turnTakers 0 ∧ s.chargeNow 0 < (s.ctx 1).sliceUs * 100) ∧ turnAfter 5 [1, 5, 9] = [9, 1, 5] := by decide +kernel

/-- Placement: cores of the last placement, then of its clusters, then clusters with most available cores. -/
theorem test_placement : (base.updCtx 1 (fun v => { v with place := 2 ^ 9 })).choose 1 3 [0, 1, 2, 9, 15, 16] = [0, 9, 15] ∧
    base.choose 1 2 [0, 8, 9, 16] = [8, 9] := by decide +kernel

/-- Core 0's read of a command's header, and then of its image, both pass their checks, and the header asks for one core at least. -/
def readsImage (c : Cmd) (s : State) : Bool :=
  match (readHeader (c.who 0) (c.u 8 8)).run s with
  | (.ok (h, _), t) =>
    decide ((coreRange h).1 ≤ 1) &&
      (match eachCore (fun k => readHeader (c.who k) (c.u 8 8)) [0] t with
       | (.ok _, t) => (eachCore (fun k => readPattern (c.who k) (c.u 8 8)) [0] t).1.isOk
       | _ => false)
  | _ => false

theorem witness_commandDispatch :
    (∀ kind ∈ [kindStep, kindJob], let c := imaged kind
     let s := idleWith c
     let u := s.passTurn c.part
     s.head? 0 = some c ∧ s.fenceBroken c (c.u 16 8) = false ∧ s.fenceBroken c (c.u 24 8) = false ∧ u.nextHead c.part = some c ∧
       u.choose c.ctx 1 (u.oneClass (u.availableCores c.part)) = [0] ∧ readsImage c u = true) ∧
    (let c := waiting 0 1 kindMarker 0 0
     (idleWith c).head? 0 = some c ∧ (idleWith c).ready c = true) ∧
    (let c := waiting 0 1 kindMarker (0 + 2 ^ 14 + 2 ^ 15) 0
     let s := (idleWith c).updQueue 0 (fun u => { u with results := [(0, 5)] })
     s.head? 0 = some c ∧ s.fenceBroken c (c.u 16 8) = true) ∧
    (let c := { imaged kindStep with phase := .running, replayDue := true, badCores := 1, admitted := 0xFF }
     let s := idleWith c
     let avail := s.oneClass ((s.availableCores c.part).filter (fun k => !c.badCores.testBit k && c.admitted.testBit k))
     s.cmd? (cmdKey 0 1) = some c ∧ c.phase = .running ∧ (s.coresWanted c).1 ≤ avail.length ∧ avail = [1, 2, 3, 4, 5, 6, 7]) ∧
    ([0, 3].Nodup ∧ (idleWith (imaged kindStep)).cmd? (imaged kindStep).key = some (imaged kindStep)) := by
  refine ⟨?_, ?_, ?_, ?_, ?_⟩ <;> decide +kernel

theorem test_coresWanted : (idleWith (imaged kindStep)).coresWanted (imaged kindStep) = (1, 2) := by decide +kernel

/-- A root of a table at device offset 0x8000 maps the save area at VA 0. -/
def creatingCtx : State := mail 0x0203 [(2, 1, 64), (4, 4, 50), (8, 8, 0x8000)] base

theorem witness_contextOperations :
    (let r := creatingCtx.req 0 0
     creatingCtx.posted 0 0 0x0203 ∧ r.foreign (r.u 0 1) = false ∧ r.u 0 1 < 16 ∧ r.u 1 1 ≤ 1 ∧ r.u 2 1 = 64 ∧ r.zeros 3 1 = true ∧ r.u 4 4 = 50 ∧
       r.u 8 8 % 32768 = 0 ∧ r.u 16 8 % 2 ^ 25 = 0 ∧ creatingCtx.saveMapped (r.u 8 8) (r.u 16 8) (128 * r.u 2 1 * 32768 + 65536) = true ∧
       creatingCtx.absentCtx = some 0 ∧ creatingCtx.roomFor 0 64 = false ∧ creatingCtx.roomFor 0 60 = true) ∧
    (let s := mail 0x0208 [(0, 1, 1), (4, 4, 10000)] base
     let r := s.req 0 0
     s.posted 0 0 0x0208 ∧ s.strangeCtx 0 (r.u 0 1) = false ∧ r.zeros 1 3 = true ∧ (s.ctx (r.u 0 1)).phase = 3 ∧ r.u 4 4 = 10000) ∧
    (let s := mail 0x0205 [(0, 1, 1)] base
     s.posted 0 0 0x0205 ∧ (s.req 0 0).zeros 1 3 = true) ∧
    (let s := mail 0x0204 [(0, 1, 1)] base
     s.posted 0 0 0x0204 ∧ (s.req 0 0).zeros 1 3 = true ∧ (s.ctx 1).phase ≠ 7 ∧ (s.fn 0).running < 64) := by
  refine ⟨?_, ?_, ?_, ?_⟩ <;> decide +kernel

/-- With the command as a running job, its context in a phase. -/
def jobbing (phase : Nat) (s : State) : State := (s.updCmd (cmdKey 0 1) (fun c => { c with kind := kindJob })).updCtx 1 (fun v => { v with phase := phase })

theorem witness_contextSuspension :
    (let s := mail 0x0206 [(0, 1, 1)] (jobbing 3 base)
     s.posted 0 0 0x0206 ∧ (s.req 0 0).zeros 1 3 = true ∧ (s.ctx 1).phase = 3 ∧ (s.jobOf 1).isSome = true ∧ (s.fn 0).running < 64 ∧
       s.ctxs.all (fun e => !e.2.suspending) = true) ∧
    (let s := mail 0x0207 [(0, 1, 1)] (jobbing 6 base)
     s.posted 0 0 0x0207 ∧ (s.req 0 0).zeros 1 3 = true ∧ (s.ctx 1).phase = 6 ∧ s.ctxs.all (fun e => !e.2.resuming) = true) ∧
    (let s := (jobbing 3 base).updCtx 1 (fun v => { v with suspending := true })
     s.jobOf 1 = some { runCmd with kind := kindJob } ∧ (s.ctx 1).suspending = true ∧ s.cmdDrained { runCmd with kind := kindJob } = true ∧
       s.xlt.faults = [] ∧
       s.coresOn { runCmd with kind := kindJob } = [0]) ∧
    (let s := (idleWith (imaged kindStep)).updCtx 1 (fun v => { v with phase := 5, resident := false, units := [] })
     let v := s.ctx 1
     let waiting := (s.ctxsOf v.part).filter (fun y => (s.ctx y).phase = 5 && s.ctxReady y)
     (sortBy (fun y => (s.ctx y).readySince) waiting).head? = some 1 ∧ (State.makeRoom 64 s v.part v.window).roomFor v.part v.window = true ∧
       s.roomFor v.part v.window = true ∧ v.saved = [] ∧ (s.readSave 1).2 = stOk ∧
       (let t := s.updCtx 1 (fun v => { v with saved := [(0, {})], saveAddr := 2 ^ 34 })
        (t.ctx 1).saved ≠ [] ∧ (t.readSave 1).2 ≠ stOk)) ∧
    (let s := { base with ctxs := [(1, { phase := 7 })], cmds := [] }
     (s.ctx 1).phase = 7 ∧ s.ctxBusy 1 = false) := by
  refine ⟨?_, ?_, ?_, ?_, ?_⟩ <;> decide +kernel

theorem witness_swapRoundTrip : 0 ∈ base.maskCores (base.ctx 1).part ∧ 7 ∈ base.maskCores (base.ctx 1).part := by decide +kernel

theorem witness_partitionMoves :
    (let s := mail 0x0201 [(0, 1, 2), (8, 1, 0), (16, 16, 0x0F), (32, 1, 15), (40, 16, 0xF0)] base
     let r := s.req 0 0
     let es := r.masks
     let target := es.foldl (fun (m : KMap Partition) (e : Nat × Nat) => kmod {} m e.1 (fun (q : Partition) => { q with target := e.2 })) s.parts
     s.posted 0 0 0x0201 ∧ r.u 0 1 = 2 ∧ r.zeros 1 7 = true ∧ es = [(0, 0x0F), (15, 0xF0)] ∧ (es.map (·.1)).Nodup ∧
       (∀ i, i < 2 → r.zeros (9 + 24 * i) 7 = true) ∧ disjoint (target.map (fun (e : Nat × Partition) => e.2.target)) = true ∧
       (s.fn 0).running < 64) ∧
    (let s := mail 0x0202 [(0, 1, 15)] base
     let r := s.req 0 0
     s.posted 0 0 0x0202 ∧ r.foreign 15 = false ∧ r.u 0 1 = 15 ∧ r.zeros 1 3 = true) ∧
    (let s := { base with parts := [(0, { mask := 0xFF, target := 0x7F }), (15, { target := 0x80 })] }
     s.moving? 7 = true ∧ (s.core 7).cmd = none ∧ leastBelow 16 (fun p => (s.part p).mask.testBit 7) = some 0 ∧
       leastBelow 16 (fun p => (s.part p).target.testBit 7) = some 15) := by
  refine ⟨?_, ?_, ?_⟩ <;> decide +kernel

theorem test_coreMove : after (exec (.coreMove 7) { base with parts := [(0, { mask := 0xFF, target := 0x7F }), (15, { target := 0x80 })] })
    (fun t => ((t.part 0).mask, (t.part 15).mask)) = some (0x7F, 0x80) := by decide +kernel

/-! ### Barriers and tables -/

theorem witness_barrierRoundsSettle : 1 ≤ barrier.count ∧ 1 ≤ ({ barrier with count := 1, arrived := 1 } : Barrier).count := by decide +kernel

/-- A descriptor of table 1 with 64 rows of tier 0 in BF16 and a shard map at device offset 2^25. -/
def tableDesc : List Byte :=
  let d : List Byte := leBytes 2 1 ++ leBytes 3 1 ++ leBytes 1 0 ++ leBytes 1 1 ++ leBytes 1 0 ++ leBytes 8 64 ++ leBytes 8 (2 ^ 25) ++ leBytes 4 1 ++
    List.replicate 32 0
  d ++ leBytes 4 (crc32c d)

/-- That descriptor at device offset 2^30 + 4096, and a TABLE_CREATE that names it, with all buckets of this part. -/
def tabling : State :=
  let s := mail 0x0501 [(0, 8, 4096), (8, 8, 2 ^ 25)] { base with pool := { base.pool with members := 1 } }
  { s with mem := { s.mem with bytes := writeBytes s.mem.bytes (2 ^ 30 + 4096) tableDesc } }

def cpReads (va n : Nat) (s : State) : Option (List Byte) :=
  match ((readCp (cpWho 0) va n).run s).1 with
  | .ok b => some b
  | .error _ => none

theorem witness_tableLife_create :
    tabling.posted 0 0 0x0501 ∧ cpReads 4096 64 tabling = some tableDesc ∧ descFault tableDesc = false ∧ fieldAt tableDesc 0 2 = 1 ∧
      (tabling.table 1).state = 0 ∧ (tabling.req 0 0).u 8 8 % 2 ^ 25 = 0 ∧ (tabling.takeUnits 1).isSome = true := by decide +kernel

theorem witness_tableLife :
    (let s := (mail 0x0502 [(0, 2, 1), (2, 1, 1), (4, 4, 16777216)] (tabled base)).updTable 1 (fun t => { t with state := 1, desc := tableDesc })
     let r := s.req 0 0
     s.posted 0 0 0x0502 ∧ s.loads = [] ∧ (s.table 1).state = 1 ∧ (s.table 1).kind = 0 ∧ fmtOfCode (r.u 2 1) = some .bf16 ∧ r.u 3 1 < 2 ∧
       r.u 4 4 = 16777216 ∧ (s.fn 0).running < 64) ∧
    (let s := (mail 0x0503 [(0, 2, 1)] (tabled base)).updTable 1 (fun t => { t with state := 1 })
     s.posted 0 0 0x0503 ∧ (s.table ((s.req 0 0).u 0 2)).state = 1) ∧
    (mail 0x0504 [(0, 2, 65535)] base).posted 0 0 0x0504 ∧
    (let s := mail 0x0505 [(0, 2, 1)] (tabled base)
     s.posted 0 0 0x0505 ∧ (s.table 1).state = 2) ∧
    (let s := (mail 0x0505 [(0, 2, 1)] (tabled base)).updTable 1 (fun t => { t with state := 3, fenced := true, delete := some (0, 0) })
     (s.table 1).state = 3 ∧ (s.table 1).fenced = true ∧ s.namesTable 1 = false ∧ s.posted 0 0 0x0505 ∧ (s.table 1).delete = some (0, 0) ∧
       ksorted s.tables = true) := by
  refine ⟨?_, ?_, ?_, ?_, ?_⟩ <;> decide +kernel

theorem test_tableSeal : after (exec (.tableSeal 0 0) ((mail 0x0503 [(0, 2, 1)] (tabled base)).updTable 1 (fun t => { t with state := 1 })))
    (fun t => (status t, (t.table 1).state)) = some ((0, true), 2) := by decide +kernel

theorem witness_shareAndShardOperations :
    (let s := mail 0x0601 [(0, 2, 1), (2, 2, 4095)] (tabled base)
     s.posted 0 0 0x0601 ∧ (s.req 0 0).u 2 2 = 4095 ∧ (s.table 1).state = 2) ∧
    (let s := mail 0x0603 [(0, 1, 15)] base
     s.posted 0 0 0x0603 ∧ (s.req 0 0).foreign 15 = false ∧ (s.req 0 0).u 0 1 = 15) ∧
    (let s := mail 0x0605 [(0, 2, 1), (8, 8, 5)] (tabled base)
     s.posted 0 0 0x0605 ∧ (s.table 1).state = 2 ∧ s.dirEntry 1 5 = none ∧
       (s.addDir ⟨0, 3, true, 1, 5⟩).bind (fun t => t.dirEntry 1 5) = some ⟨0, 3, true, 1, 5⟩) ∧
    (let s := mail 0x0602 [(1, 1, 98), (2, 1, 1), (3, 1, 1)] base
     let r := s.req 0 0
     s.posted 0 0 0x0602 ∧ r.u 1 1 + r.u 2 1 + r.u 3 1 = 100 ∧ r.u 3 1 = 1 ∧ (0, 0) ∉ (s.part 0).splitOps ∧ s.stepRuns 0 = true ∧
       ({ s with cmds := [] } : State).stepRuns 0 = false) ∧
    (let s := mail 0x0604 [(0, 1, 50), (1, 1, 100), (2, 1, 0)] base
     let r := s.req 0 0
     s.posted 0 0 0x0604 ∧ r.u 0 1 = 50 ∧ r.u 1 1 + r.u 2 1 = 100 ∧ (0, 0) ∉ s.serviceOps ∧ s.stepRuns 0 = true ∧
       ∀ q ∈ List.range 16, ({ s with cmds := [] } : State).stepRuns q = false) := by
  refine ⟨?_, ?_, ?_, ?_, ?_⟩ <;> decide +kernel

/-- An all-zero codeword as a message carries it. -/
def zeroLine : WireWord := { data := List.replicate 64 0 }

/-- Nothing is listed, wrong or waiting in an area of 64 KiB of part 0, a member, that has a free unit. -/
def Blank (s : State) (pa : Nat) : Prop :=
  (s.cpDone.takeUnits 1).isSome = true ∧ s.member 0 = true ∧ s.pool.partId = 0 ∧ s.mem.symErr = [] ∧ s.link.pendingInv = [] ∧ pa % 64 = 0 ∧ pa + 65536 ≤ devSize ∧
    s.mem.bytes.all (fun e => e.1 < pa || pa + 65536 ≤ e.1) = true ∧ s.mem.info.all (fun e => e.1 < pa / 64 || pa / 64 + 1024 ≤ e.1) = true

theorem kget_unlisted {α : Type} (d : α) (m : KMap α) (p : Nat → Bool) (h : m.all (fun e => p e.1) = true) (k : Nat) (hk : p k = false) :
    kget d m k = d := by
  have : kfind m k = none := by
    induction m with
    | nil => rfl
    | cons e m ih =>
      obtain ⟨a, v⟩ := e
      simp only [List.all_cons, Bool.and_eq_true] at h
      rw [kfind, if_neg (fun hc => by subst hc; rw [h.1] at hk; cases hk)]
      exact ih h.2
  simp [kget, this]

theorem poolLine_blank {s : State} {pa : Nat} (h : Blank s pa) (i ahead : Nat) (hi : i < 1024) :
    ∃ t, (poolLine (cpWho 0) (pa + 64 * i) ahead).run s = (.ok zeroLine, t) ∧ Blank t pa := by
  refine ⟨s.dramCharge (bucketKey (s.account (cpWho 0)) 0) (pa + 64 * i) 1, ?_, h⟩
  replace h : Blank (s.dramCharge (bucketKey (s.account (cpWho 0)) 0) (pa + 64 * i) 1) pa := h
  have hpool : s.pool.partId = 0 := h.2.2.1
  generalize hs' : s.dramCharge (bucketKey (s.account (cpWho 0)) 0) (pa + 64 * i) 1 = u at h
  obtain ⟨-, -, hp, hs, hw, ha, hd, hb, hm⟩ := h
  have h0 : (pa + 64 * i) / devSize = 0 := Nat.div_eq_of_lt (by omega)
  have h1 : (pa + 64 * i) % devSize = pa + 64 * i := Nat.mod_eq_of_lt (by omega)
  have hr : u.readCodeword ((pa + 64 * i) / 64) = u := by
    rw [State.readCodeword, hs]; rfl
  have hl : u.devLine (pa + 64 * i) = zeroLine := by
    have hbytes : u.devBytes ((pa + 64 * i) / 64 * 64) 64 = List.replicate 64 0 := by
      apply List.ext_getElem (by simp [State.devBytes])
      intro n h₁ _
      simp only [State.devBytes, List.length_map, List.length_range] at h₁
      simp only [State.devBytes, List.getElem_map, List.getElem_range, List.getElem_replicate, State.devByte, State.waitingOn, hw]
      exact kget_unlisted 0 _ (fun k => decide (k < pa) || decide (pa + 65536 ≤ k)) hb _ (by simp; omega)
    have hmeta : u.cwMeta (pa + 64 * i) = {} := by
      have : kget {} u.mem.info ((pa + 64 * i) / 64) = ({} : CwMeta) :=
        kget_unlisted _ _ (fun k => decide (k < pa / 64) || decide (pa / 64 + 1024 ≤ k)) hm _ (by simp; omega)
      simpa [State.cwMeta, State.lineMeta, State.waitingOn, hw] using this
    simp [State.devLine, hbytes, hmeta, zeroLine]
  simp only [poolLine, CM.run_bind_get, h0, h1, hpool, if_true, CM.run_bind_set, hs', hr]
  simp [hl]

theorem mapM_lines {pa : Nat} {f : Nat → CM WireWord} (l : List Nat)
    (h : ∀ i ∈ l, ∀ s, Blank s pa → ∃ t, (f i).run s = (.ok zeroLine, t) ∧ Blank t pa) :
    ∀ s, Blank s pa → ∃ t, (l.mapM f).run s = (.ok (List.replicate l.length zeroLine), t) ∧ Blank t pa := by
  induction l with
  | nil => exact fun s hs => ⟨s, rfl, hs⟩
  | cons i l ih =>
    intro s hs
    obtain ⟨t, ht, hb⟩ := h i (by simp) s hs
    obtain ⟨u, hu, hc⟩ := ih (fun j hj => h j (by simp [hj])) t hb
    refine ⟨u, ?_, hc⟩
    rw [List.mapM_cons, CM.run_bind_ok ht, CM.run_bind_ok hu]
    rfl

theorem fieldAt_zero (n off k : Nat) : fieldAt (List.replicate n 0) off k = 0 := by
  have : ∀ m : Nat, leNat (List.replicate m (0 : Byte)) = 0 := by
    intro m; induction m with
    | zero => rfl
    | succ m ih => rw [List.replicate_succ, leNat, ih]; rfl
  rw [fieldAt, List.drop_replicate, List.take_replicate, this]

/-- A blank shard map gives every bucket to part 0. -/
theorem readShardMap_blank {s : State} {pa : Nat} (h : Blank s pa) :
    ∃ t, (readShardMap pa).run s = (.ok (some (List.replicate 4096 0)), t) ∧ Blank t pa := by
  obtain ⟨t, ht, hb⟩ := mapM_lines (f := fun i => poolLine (cpWho 0) (pa + 64 * i) (65536 - 64 * i)) (List.range 1024)
    (fun i hi s hs => poolLine_blank hs i _ (List.mem_range.mp hi)) s h
  refine ⟨t, ?_, hb⟩
  have h0 := hb.2.1
  rw [readShardMap, CM.run_bind_ok ht]
  have hb : ∀ n : Nat, (List.replicate n zeroLine).flatMap (·.data) = List.replicate (n * 64) (0 : Byte) := by
    intro n
    induction n with
    | zero => rfl
    | succ n ih =>
      rw [List.replicate_succ, List.flatMap_cons, ih, show zeroLine.data = List.replicate 64 0 from rfl, List.replicate_append_replicate,
        show 64 + n * 64 = (n + 1) * 64 by omega]
  have he : ∀ n : Nat, ((List.range 4096).map (fun i => fieldAt (List.replicate n (0 : Byte)) (16 * i) 16)) = List.replicate 4096 0 := by
    intro n
    simp only [fieldAt_zero]
    rw [List.map_const', List.length_range]
  simp only [CM.run_bind_get, hb, he]
  rw [if_neg, CM.run_pure]
  simp only [Bool.or_eq_true, List.any_eq_true, List.mem_replicate]
  rintro (⟨w, ⟨-, rfl⟩, h1⟩ | ⟨e, ⟨-, rfl⟩, h1⟩)
  · cases h1
  · rw [h0] at h1; simp at h1

theorem tryShardMap_ok {s t : State} {pa : Nat} {m : Option (List Nat)} (h : (readShardMap pa).run s = (.ok m, t)) :
    (tryShardMap pa).run s = (.ok m, t) := by
  have hc : ∀ (x : CM (Option (List Nat))) (k : Stop → CM (Option (List Nat))), x.run s = (.ok m, t) → (tryCatch x k).run s = (.ok m, t) := by
    intro x k hx
    simp only [tryCatch, tryCatchThe, MonadExceptOf.tryCatch, ExceptT.tryCatch, ExceptT.run, ExceptT.mk, bind, StateT.bind]
    have hx' : x s = (.ok m, t) := hx
    rw [hx']
    rfl
  exact hc _ _ h

theorem witness_tableLife_map : Blank tabling.cpDone (2 ^ 25) ∧
    ∃ t, (tryShardMap (fieldAt tableDesc 16 6)).run tabling.cpDone = (.ok (some (List.replicate 4096 0)), t) ∧
      (t.cpDone.takeUnits 1).isSome = true ∧ ((List.replicate 4096 0).filter (· = (0 : Nat))).length * 8 * ({ desc := tableDesc } : Table).bucketRows ≤ 2 ^ 25 := by
  have hb : Blank tabling.cpDone (2 ^ 25) := ⟨by decide +kernel, by decide +kernel, by decide +kernel, by decide +kernel, by decide +kernel, by decide, by decide, by decide +kernel,
    by decide +kernel⟩
  have hf : fieldAt tableDesc 16 6 = 2 ^ 25 := by decide +kernel
  obtain ⟨t, ht, hu⟩ := readShardMap_blank hb
  exact ⟨hb, t, by rw [hf]; exact tryShardMap_ok ht, hu.1, by decide +kernel⟩

/-! ### Updates, epochs, migration and re-tiering -/

/-- An entry for row 5 of table 1, from part 0. -/
def upd1 (seq : Nat) : UpdEntry :=
  { table := 1, row := 5, rule := 0, vfmt := 0, srcPart := 0, srcSeq := seq, gen := 1, param0 := 0, param1 := 0, vals := [] }

/-- Table 1 of 64 rows serves, and this part owns its buckets. -/
def serving (s : State) : State :=
  let s := (tabled s).updTable 1 (fun t => { t with desc := tableDesc })
  { s with exchanges := [(0, { tokens := [(bucketKey 16 0, 8192), (bucketKey 0 1, 8192)] })] }

/-- An update descriptor of one row id, for a set rule, at VA 2^30 of host memory, with the row id and values behind it. -/
def updState : State :=
  let d : List Byte := leBytes 1 7 ++ leBytes 1 1 ++ leBytes 2 1 ++ leBytes 1 0 ++ leBytes 3 0 ++ leBytes 4 1 ++ leBytes 4 0 ++ leBytes 8 (2 ^ 30 + 64) ++
    leBytes 8 (2 ^ 30 + 128) ++ List.replicate 32 0
  let s := serving (idleWith (imaged kindUpdate))
  { s with host := { s.host with mem := (List.range 64).zip d } }

theorem witness_updateCommands :
    (let c := imaged kindUpdate
     updState.epochs.sent = [] ∧ (updState.queueCmds 0).find? (fun c => c.kind = kindUpdate && c.phase = .running && !c.updSent) = none ∧
       updState.head? 0 = some c ∧ updState.fenceBroken c (c.u 16 8) = false ∧ updState.fenceBroken c (c.u 24 8) = false ∧ updState.ready c = true) ∧
    (let s := serving base
     let h : MsgHdr := { hdr1 with epoch := 1 }
     let u := s.takeMsg (.delta h [upd1 1])
     u.deltaWaits h = false ∧ s.epochs.epoch < h.epoch ∧ hdr1.epoch ≤ s.epochs.epoch ∧ (s.table 1).state = 2 ∧ (s.table 1).gen = (upd1 1).gen ∧
       (upd1 1).row < (s.table 1).rowCount ∧ (match u.deltaPlace (upd1 1) 1 with | .ok none => true | _ => false) = true ∧
       s.epochs.migrations = [] ∧
       (({ s.epochs with stageRows := 0 } : Epochs).stageFits (({ s.epochs with stageRows := 0 } : Epochs).stage 1 |>.add
         [upd1 1, { upd1 2 with row := 6 }])) = false ∧
       (let v : State := u.updTable 1 (fun t => { t with shard := [(bucketOf 5, 9)] })
        (match v.deltaPlace (upd1 1) 1 with | .error holder => decide (holder = 9) | _ => false) = true) ∧
       (let v : State := (u.updTable 1 (fun t => { t with shard := [(bucketOf 5, 9)] })).updEp (fun p => { p with moved := [(1, bucketOf 5, 8)] })
        (match v.deltaPlace (upd1 1) 1 with | .error holder => decide (holder = 9) | _ => false) = true ∧ v.deltaStray (upd1 1) = false)) ∧
    (let s := exchanging (fun x => { x with slots := [(5, out 4)] }) base
     (s.takeMsg (.deltaAck hdr1 0 0)).answered? hdr1 4 = some (out 4) ∧ hdr1.forward = false) := by
  refine ⟨?_, ?_, ?_⟩ <;> decide +kernel

/-- The staging has room for one range whatever a range takes, where it is made as large. -/
theorem witness_updateCommands_fits : ({ (serving base).epochs with stageMib := Config.rangeBytes + 1 } : Epochs).stageFits
    (({ epoch := 1 } : Staging).add [upd1 1]) = true := by
  have h : (({ epoch := 1 } : Staging).add [upd1 1]) = { epoch := 1, entries := [upd1 1], seen := [(0, 1, 1)] } := by decide +kernel
  have hb : entryBytes [upd1 1] = 64 := by decide +kernel
  have hr : (rowsOf [upd1 1]).length = 1 := by decide +kernel
  have hs : (serving base).epochs.stageRows = 20 := by decide +kernel
  rw [h]
  simp only [Epochs.stageFits, hr, hs, hb, List.length_cons, List.length_nil, Bool.and_eq_true, decide_eq_true_eq]
  omega

/-- Sequences 1 and 2 of part 0 are staged once. -/
theorem test_staging : ((({ epoch := 1 } : Staging).add [upd1 1, upd1 2]).add [upd1 2, upd1 1]).entries.length = 2 ∧
    ((({ epoch := 1 } : Staging).add [upd1 1, upd1 2]).add [upd1 1]).seen = [(0, 1, 2)] := by decide +kernel

theorem witness_updateAcceptance : (serving base).epochs.srcSeq < 2 ^ 48 ∧
    ([5, 63, 64].filter (· < ((serving base).table 1).rowCount)) = [5, 63] := by decide +kernel

/-- This part leads a pool of itself. -/
def leading (s : State) : State := ({ s with pool := { s.pool with members := 1 } } : State).updEp (fun p => { p with leader := 0 })

def fence1 (phase : Nat) : Fence := { epoch := 1, phase := phase, phaseStart := 0, ops := [(0, 7, 0)] }

theorem witness_fences_leader :
    (let s := mail 0x0506 [(0, 5, 1)] (leading base)
     s.posted 0 0 0x0506 ∧ s.epochs.leader = s.pool.partId ∧ s.epochs.fence = none ∧ (s.req 0 0).u 0 5 = s.epochs.epoch + 1 ∧ (s.fn 0).running < 64) ∧
    (mail 0x0507 [] base).posted 0 0 0x0507 ∧
    (let s := mail 0x0508 [(4, 4, 1000000), (8, 1, 24), (12, 4, 8192), (16, 4, 60000)]
      { base with pool := { base.pool with configured := true, dx := 1, dy := 1, dz := 1 } }
     let r := s.req 0 0
     s.posted 0 0 0x0508 ∧ r.u 0 2 < poolSize s.pool ∧ r.u 4 4 = 1000000 ∧ r.u 8 1 = 24 ∧ r.u 12 4 = 8192 ∧ r.u 16 4 = 60000) ∧
    (let s := (leading base).updEp (fun p => { p with fence := some (fence1 1) })
     s.epochs.fence = some (fence1 1) ∧ (fence1 1).phase = 1 ∧ 0 ∉ (fence1 1).closed ∧ 0 ∈ s.memberList) ∧
    (let s := (leading base).updEp (fun p => { p with fence := some { fence1 2 with applied := [0] } })
     s.memberList = [0] ∧ s.pool.leaveAsked = [] ∧ (fence1 2).phase = 2 ∧ 0 ∉ (fence1 2).applied) := by
  refine ⟨?_, ?_, ?_, ?_, ?_⟩ <;> decide +kernel

theorem test_epochFence : after (exec (.fenceLimitExpiry) { (leading base).updEp (fun p => { p with fence := some (fence1 1) }) with refCount := 9999999 })
    (fun t => (t.epochs.fence.map (·.ops))) = some (some [(0, 7, 0)]) := by decide +kernel

theorem witness_fences_member :
    (base.epochs.phase = 0 ∧ base.epochs.sent = []) ∧
    (let s := base.updEp (fun p => { p with phase := 1 })
     s.epochs.sent = [] ∧ s.epochs.phase = 1 ∧ s.deltasStaged = true ∧ s.oldStepsDone = true ∧
       s.epochs.closeAt + s.epochs.graceUs * 100 ≤ ({ s with refCount := 200000 } : State).refCount) ∧
    (base.updEp (fun p => { p with phase := 2 })).epochs.phase = 2 ∧ (0 : Nat) ≤ base.epochs.epoch ∧
    (let e := (base.updEp (fun p => { p with phase := 3 })).epochs
     e.phase = 3 ∧ e.migrations = [] ∧ e.passes = [] ∧ e.copies = [] ∧ e.snaps = [] ∧ e.overflow = [] ∧ e.applying = [] ∧ e.held = [] ∧ e.nextRows = e.stageRows ∧
       base.exchanges.all (fun x => x.2.serving.isEmpty) = true) := by
  refine ⟨?_, ?_, ?_, ?_, ?_⟩ <;> decide +kernel

theorem test_fenceClose : after (exec (.fenceClose 1 0) base) (fun t => (t.epochs.phase, t.epochs.openEpoch)) = some (1, 2) := by decide +kernel

/-- A migration of bucket 3 of table 1 to part 1. -/
def mig (state : Nat) : Migration := { table := 1, isRow := false, bucket := 3, row := 0, target := 1, state := state }

/-- With it, in a pool of the parts 0 and 1. -/
def migrating (m : List Migration) (s : State) : State :=
  let s := serving s
  { s with pool := { s.pool with members := 3 }, epochs := { s.epochs with migrations := m } }

/-- Row 63 of table 1 has moved to part 2 of a pool of parts 0, 1 and 2. -/
def leaving (s : State) : State :=
  let s := s.setRowEntry 1 63 (rmEntry 0 false true false false 0)
  let s := { s with pool := { s.pool with members := 7 } }
  (s.addDir ⟨1, 2, true, 1, 63⟩).getD s

theorem witness_migrations_requests :
    (let s := mail 0x0509 [(0, 2, 1), (2, 2, 4095), (4, 2, 1)] (migrating [] base)
     let r := s.req 0 0
     s.posted 0 0 0x0509 ∧ (s.table 1).state = 2 ∧ r.u 2 2 = 4095 ∧ s.migConflict 1 4095 1 false 0 = false) ∧
    (let s := mail 0x050A [(0, 2, 1), (2, 2, 1), (4, 1, 1), (8, 8, 63)] (migrating [] base)
     let r := s.req 0 0
     s.posted 0 0 0x050A ∧ r.u 4 1 < 2 ∧ r.u 8 8 < (s.table 1).rowCount ∧ s.migConflict 1 (bucketOf 63) 1 true 63 = false ∧
       s.cancelling { mig 2 with isRow := true, bucket := bucketOf 63, row := 63 } = false ∧
       rmMoved (s.rowEntry 1 63) = false ∧ (s.addDir ⟨0, 1, true, 1, 63⟩).isSome = true) ∧
    (let s := leaving (mail 0x050A [(0, 2, 1), (2, 2, 1), (4, 1, 1), (8, 8, 63)] (migrating [] base))
     s.posted 0 0 0x050A ∧ s.migConflict 1 (bucketOf 63) 1 true 63 = false ∧ rmMoved (s.rowEntry 1 63) = true ∧ s.epochs.changes = [] ∧
       s.dirEntry 1 63 = some ⟨1, 2, true, 1, 63⟩ ∧ (s.req 0 0).u 2 2 = 1) ∧
    (let s := mail 0x050B [(0, 2, 1), (4, 2, 3)] (migrating [mig 2] base)
     s.posted 0 0 0x050B ∧ s.migReqBad (s.req 0 0) = false ∧ s.reqMig (s.req 0 0) = some (mig 2) ∧ (migrating [] s).reqMig (s.req 0 0) = none) ∧
    (let s := mail 0x050C [(0, 2, 1), (4, 2, 3)] (migrating [mig 3] base)
     s.posted 0 0 0x050C ∧ s.migReqBad (s.req 0 0) = false ∧ s.reqMig (s.req 0 0) = some (mig 3) ∧ s.cutSent (mig 3) = false ∧ s.epochs.logs = []) := by
  refine ⟨?_, ?_, ?_, ?_, ?_⟩ <;> decide +kernel

/-- A copy of a row of table 1, its tag over zeros true or wrong. -/
def copyReply (s : State) (row : Nat) (good : Bool) : ReplyEntry :=
  let t := s.table 1
  let d : List Byte := List.replicate (t.tagOff 0) 0
  { estatus := 0, slot := d ++ leBytes 4 (selvage d (rowBlockId 1 t.gen row) + if good then 0 else 1) ++
      List.replicate (t.slotSize 0 - t.tagOff 0 - 4) 0 }

/-- Whether T has room is open: a state takes the next free value, so the statement's two requests meet it where that value is true. -/
theorem witness_migrations_copies :
    (let c : CopyIn := { table := 1, isRow := false, bucket := 3, row := 0, source := 1 }
     let s := (migrating [] base).updEp (fun p => { p with copies := [c] })
     let row := rowOf 3 0
     let r := copyReply s row
     let u := s.takeMsg (.migrateCopy hdr1 1 3 false row (r true) false)
     u.earlyChange 1 false 3 row hdr1.epoch = none ∧ u.copy? 1 false 3 row = some c ∧ row ∉ c.rows ∧ row ∉ c.asked ∧
       (s.table 1).tagOk 1 row 0 (r true).slot = true ∧ (s.table 1).tagOk 1 row 0 (r false).slot = false ∧ (r true).badMeta = false ∧
       (u.storeCopy 1 false row (r true)).isSome = true ∧ (u.storeCopy 1 false row { r false with poison := true }).isSome = true ∧
       (s.takeMsg (.migrateLog hdr1 1 3 false 3 (upd1 1))).copy? 1 false 3 3 = some c ∧ c.log = []) ∧
    (let m := { mig 2 with out := [(7, hdr1.num)] }
     let s := migrating [m] base
     s.epochs.migrations.find? (fun x => x.table = m.table && x.isRow = m.isRow && x.bucket = m.bucket && x.out.contains (7, hdr1.num)) = some m) ∧
    (let m := { mig 2 with ended := true, next := 2 ^ 40 }
     let s := migrating [m] base
     s.pumpMigs = s ∧ s.mig? 1 false 3 0 = some m ∧ m.out = [] ∧ s.epochs.logs = []) := by
  refine ⟨?_, ?_, ?_⟩ <;> decide +kernel

/-- A pass over buckets 0 to 1 of table 1. -/
def pass1 (state : Nat) : RetierPass := { passId := 9, fn := 0, table := 1, first := 0, last := 1, map := 0, state := state, bucket := 0 }

theorem witness_retieringAndSkew :
    (let s := mail 0x050F [(0, 2, 1), (2, 2, 0), (4, 2, 4095)] (serving base)
     let r := s.req 0 0
     s.posted 0 0 0x050F ∧ r.u 4 2 = 4095 ∧ r.u 2 2 ≤ r.u 4 2 ∧ r.u 8 8 < 2 ^ 52 ∧ (s.table (r.u 0 2)).state = 2 ∧ s.epochs.passes = [] ∧
       (s.fn 0).running < 64) ∧
    (let s := (mail 0x0510 [(0, 4, 9)] (serving base)).updEp (fun p => { p with passes := [pass1 1] })
     s.pass? ((s.req 0 0).u 0 4) = some (pass1 1) ∧ s.posted 0 0 0x0510 ∧ (mail 0x0511 [(0, 4, 9)] s).posted 0 0 0x0511) ∧
    (let s := mail 0x050D [(0, 2, 1), (2, 1, 15), (3, 1, 1)] (serving base)
     s.posted 0 0 0x050D ∧ (s.req 0 0).u 2 1 = 15 ∧ (s.table 1).state = 2 ∧ (s.req 0 0).u 3 1 = 1) ∧
    (let s := { (mail 0x050E [(0, 1, 15)] (serving base)).updEp (fun p => { p with watches := [(15, { table := 1 })] }) with cpWrite := some (0, 0) }
     s.posted 0 0 0x050E ∧ (s.req 0 0).u 0 1 = 15 ∧ (s.req 0 0).u 1 1 = 0 ∧ (kfind s.epochs.watches 15).isSome = true ∧
       (s.core 128).wpend = 0 ∧ (s.core 128).rfail = 0) := by
  refine ⟨?_, ?_, ?_, ?_⟩ <;> decide +kernel

/-- The counts of SKEW_QUERY, sent to another part's memory, have all been acknowledged. -/
theorem witness_skewQuery_written (s : State) (bs : List Byte) (hw : s.cpWrite = some (0, 0)) (h1 : (s.core 128).wpend = 0)
    (h2 : (s.core 128).rfail = 0) (hb : bs.length ≤ 2 ^ 52) :
    (writeCp (cpWho 0) (0, 0) 0 bs).run s = (.ok (), { s with cpWrite := none }) := by
  rw [writeCp, if_neg (by omega), CM.run_bind_get]
  simp only [hw]
  rw [if_neg (by simp [h1]), CM.run_bind_set, if_neg (by simpa using h2), CM.run_pure]

/-! ### Membership and the fabric -/

/-- Part 0 of a configured line of three parts in X, which is a ring, leading itself. -/
def pooled (s : State) : State :=
  leading { s with pool := { s.pool with configured := true, dx := 3, dy := 1, dz := 1, rings := 1, poolId := 77, members := 1 } }

/-- Its migration from part 2 to part 1. -/
def leavingMig : Migration :=
  { table := 1, isRow := true, bucket := bucketOf 63, row := 63, target := 1, state := 2, via := some 2, askFrom := 0 }

/-- Both ports in X are up. -/
def ported (s : State) : State := { s with ports := [(0, { state := 4 }), (1, { state := 4 })] }

/-- R558: the owner asks the present holder, and copies what it gives to the target. -/
theorem test_rowMigrate_asks :
    (match (leaving (migrating [leavingMig] (ported (pooled base)))).pumpMigs.epochs.migrations with
      | [m] => m.asked && m.out = [] | _ => false) = true ∧
    (match (leaving (migrating [{ leavingMig with asked := true, got := some (0, { estatus := 0, slot := [0] }) }] (ported (pooled base)))).pumpMigs.epochs.migrations
      with | [m] => decide (m.out.map (·.1) = [63, endMark]) | _ => false) = true := by decide +kernel

theorem witness_membership_requests :
    (let s := mail 0x0606 [(0, 1, 8), (1, 1, 8), (2, 1, 16), (3, 1, 7), (4, 2, 1023), (8, 4, 9)] base
     let r := s.req 0 0
     s.posted 0 0 0x0606 ∧ r.u 0 1 = 8 ∧ r.u 1 1 = 8 ∧ r.u 2 1 = 16 ∧ r.u 3 1 = 7 ∧ r.u 4 2 < r.u 0 1 * r.u 1 1 * r.u 2 1 ∧
       popCount 1024 s.pool.members < 2) ∧
    (let s := mail 0x060C [(0, 2, 2)] (pooled base)
     s.posted 0 0 0x060C ∧ (s.req 0 0).u 0 2 < poolSize s.pool ∧ s.pool.join = none ∧ (s.fn 0).running < 64) ∧
    (let s := { (pooled base) with pool := { (pooled base).pool with join := some (0, 7) }, refCount := 10000 }
     s.pool.join.isSome = true ∧ s.pool.joinAt + 10000 ≤ s.refCount) ∧
    (let s := mail 0x060D [(0, 1, 1)] (pooled base)
     s.posted 0 0 0x060D ∧ (s.req 0 0).u 0 1 = 1 ∧ s.pool.join = none ∧ s.epochs.leader = s.pool.partId ∧ s.epochs.fence = none ∧
       (s.updEp (fun p => { p with leader := 1 })).epochs.leader ≠ s.pool.partId) ∧
    (mail 0x060E [] base).posted 0 0 0x060E := by
  refine ⟨?_, ?_, ?_, ?_, ?_⟩ <;> decide +kernel

theorem witness_membership_messages :
    (let s := pooled base
     s.epochs.leader = s.pool.partId ∧ (76 : Nat) ≠ s.pool.poolId ∧ (77 : Nat) = s.pool.poolId ∧ (2 : Nat) ≠ s.pool.dx ∧ (1 : Nat) = s.pool.rings ∧ (3 : Nat) = s.pool.dx ∧
       1 = s.pool.dy ∧ 1 = s.pool.dz ∧ s.member 0 = true ∧ s.member 2 = false ∧ s.epochs.fence = none ∧ s.pool.leftIds = [] ∧
       kfind s.pool.grants 0 = none ∧
       (let t : State := { s with pool := { s.pool with members := 7, grants := [(2, 0, 7)] } }
        t.member 2 = true ∧ kfind t.pool.grants 2 = some (0, 7))) ∧
    (let s := { (pooled base) with pool := { (pooled base).pool with join := some (0, 7) } }
     s.pool.join = some (0, 7) ∧ 0 = s.pool.partId) ∧
    (let x := { fence1 1 with closed := [0] }
     let s := { ((pooled base).updEp (fun p => { p with fence := some x })) with refCount := 1000000 }
     let t : State := { s with pool := { s.pool with members := 7 } }
     t.epochs.fence = some x ∧ (2 : Nat) ≠ t.pool.partId ∧ t.member 2 = true ∧ 2 ∉ x.closed ∧ x.phaseStart + 1000000 ≤ t.refCount) := by
  refine ⟨?_, ?_, ?_⟩ <;> decide +kernel

theorem test_joinReq : after (exec (.joinReq 77 3 1 1 2 1) (ported (pooled base)))
    (fun t => t.pool.members) = some 5 := by decide +kernel

/-- Port 0 in a state. -/
def porting (state : Nat) (s : State) : State := (pooled s).updPort 0 (fun p => { p with state := state })

theorem witness_portStates :
    (((porting 1 base).port 0).state = 1 ∧ ((porting 2 base).port 0).state = 2 ∧
      (let s := { porting 1 base with refCount := 2000000 }
       (s.port 0).trainAt + 2000000 ≤ s.refCount)) ∧
    (let s := porting 3 base
     let o := s.pool
     (s.port 0).state = 3 ∧ neighbour o o.partId 0 true = some 1 ∧ (s.port 0).fenceOps = [] ∧ (s.port 0).upOps = [] ∧
       ((s.dropLeft 0).pool.partId, 0) ∉ (s.dropLeft 0).pool.fenced ∧ (s.dropLeft 0).service.retrain = [] ∧ (s.dropLeft 0).service.rollouts = [] ∧ oppositePort 0 = 1 ∧ neighbour o o.partId 0 true ≠ some 2) ∧
    (let s := { (porting 4 base).updPort 0 (fun t => { t with ceOver := 10 }) with pool := { (porting 4 base).pool with ceLimit := 1 } }
     s.portUp 0 = true ∧ s.pool.ceLimit ≠ 0 ∧ 10 ≤ (((s.updPort 0 (fun t => t.ceRoll s.refCount s.pool.ceLimit)).port 0).ceOver)) ∧
    (let s := { porting 5 base with refCount := 3000 }
     (s.port 0).state = 5 ∧ (s.port 0).queue = [] ∧ (s.port 0).cur = [] ∧ (s.port 0).retry = [] ∧ (s.port 0).stompDue = [] ∧ (s.port 0).drainAt + 3000 ≤ s.refCount) ∧
    (let s := { (porting 6 base).updPort 0 (fun p => { p with awaitDown := true }) with refCount := 2000 }
     (s.port 0).runs = false ∧ (porting 4 base).service.retrain = [] ∧ (s.port 0).awaitDown = true ∧ (s.port 0).fencedAt + 2000 ≤ s.refCount) ∧
    ((mail 0x0607 [(0, 1, 5)] base).posted 0 0 0x0607 ∧ ((mail 0x0607 [(0, 1, 5)] base).req 0 0).u 0 1 = 5 ∧
      (let s := mail 0x0608 [] (porting 4 base)
       s.posted 0 0 0x0608 ∧ (s.port ((s.req 0 0).u 0 1)).state = 4 ∧ (s.fn 0).running < 64) ∧
      (let s := mail 0x0609 [] (porting 6 base)
       s.posted 0 0 0x0609 ∧ s.cabled 0 = true ∧ (s.port 0).state = 6 ∧ (s.fn 0).running < 64)) := by
  refine ⟨?_, ?_, ?_, ?_, ?_, ?_⟩ <;> decide +kernel

theorem test_trainTimeout : after (exec (.trainTimeout 0) { porting 1 base with refCount := 2000000 }) (fun t => ((t.port 0).state, (t.port 0).cause)) =
    some (6, 4) := by decide +kernel

/-- Three symbols of codeword 0. -/
def badSymbols : List (Fin 448) := ((List.range 448).filterMap (fun j => if h : j < 448 then
  if wireCodeword j = 0 then some ⟨j, h⟩ else none else none)).take 3

/-- A flit of a packet's body, with three wrong symbols in the first codeword or none; a packet of one unit from part 2. -/
def flit1 (type seq : Nat) (bad : Bool) : Flit := { seq := seq, ack := 0, type := type, errs := if bad then badSymbols else [] }
def packet1 (dest : Nat) : Packet := { dest := dest, src := 2, length := 1, cls := 0, dirX := true, msg := .memberUp 1 }

theorem witness_flitsAndPackets :
    (let s := porting 4 base
     let t := ((s.decodeFlit (flit1 1 1 true)).1).port 0
     s.portUp 0 = true ∧ (s.decodeFlit (flit1 1 1 true)).2 = true ∧ (flit1 1 1 true).seq = (t.rxSeq + 1) % 1024 ∧
       (flit1 1 5 true).seq ≠ (t.rxSeq + 1) % 1024 ∧ t.discards < 7 ∧ t.discardAt.length < 4096 ∧ 7 ≤ ({ t with discards := 7 } : Port).discards ∧
       (s.decodeFlit (flit1 1 1 false)).2 = false ∧ (flit1 1 1 false).type < 3 ∧ (flit1 1 1 false).nak = false ∧ (flit1 1 1 false).stomp = false ∧
       t.queue = [] ∧ t.cur = []) ∧
    (∀ dest ∈ [0, 1], let r : RxPacket := { packet := packet1 dest, units := 1 }
     let s := (porting 4 base).updPort 1 (fun p => { p with state := 4, rx := [(7, [r])] })
     kget [] (s.port 1).rx 7 = [r] ∧ r.out = none ∧ r.drop = false ∧ r.packet.dest < poolSize s.pool ∧ r.packet.hops < 64 ∧ r.packet.length ≤ r.units ∧
       routeDim s.pool s.pool.partId dest = if dest = 0 then none else some 0) ∧
    (let s := ((porting 4 base).updPort 1 (fun p => { p with state := 4, rx := [(7, [{ packet := packet1 1, units := 1 }])] })).updPort 0
       (fun p => p.activate true)
     (match s.route (packet1 1) 0 (decide (0 ≠ 1 / 2)) with | some (o, k) => (s.port o).canBegin k | none => false) = true) ∧
    ((pooled base).module.powered = true ∧ (pooled base).portAcross 0 0 = none ∧ ((pooled base).updEp (fun p => { p with leader := 1 })).epochs.leader ≠ (pooled base).pool.partId) ∧
    (let s := exchanging (fun x => { x with slots := [(5, out 2)] }) base
     let head := dropHead 0 0x05 (BitVec.ofNat 120 (leNat ((hdr1.bytes 0x05 1).drop 1)))
     headKind head = 0x05 ∧ (s.takeMsg (.dropped true head)).answered? (headHdr head) 2 = some (out 2) ∧ (out 2).core < 128) := by
  refine ⟨?_, ?_, ?_, ?_, ?_⟩ <;> decide +kernel

/-- A flit out of sequence is discarded and a NAK sent; the eighth that cannot be corrected fences the port. -/
theorem test_flitReceive :
    after (exec (.flitReceive 0 (flit1 1 5 false)) (porting 4 base)) (fun t => ((t.port 0).rxSeq, (t.port 0).sent.map (·.nak))) =
      some (0, [true]) ∧
    after (exec (.flitReceive 0 (flit1 1 1 true)) ((porting 4 base).updPort 0 (fun p => { p with discards := 7 })))
      (fun t => ((t.port 0).state, (t.port 0).cause)) = some (6, 2) := by
  refine ⟨?_, ?_⟩ <;> decide +kernel

/-! ### Translation -/

/-- With a drain of context 1's first GiB in progress, and a write under it that waits for the host. -/
def draining (s : State) : State :=
  { s with refCount := 3000, xlt := { s.xlt with drains := [{ fn := 0, slot := 3, isFn := false, ctx := 1, first := 0, last := 2 ^ 30 - 1, start := 0 }] },
           link := { s.link with pendingInv := [{ line := 0, cmd := 0, data := List.replicate 64 0, mask := List.replicate 64 true, info := {},
                                                  via := some (false, 1, 0) }] } }

theorem witness_translations_withdraw :
    (let s := mail 0x0401 [(1, 1, 1), (2, 1, 1), (8, 8, 0x8000)] base
     let r := s.req 0 0
     s.drainOf 0 0 = none ∧ s.link.pendingInv = [] ∧ s.exchanges.all (fun e => e.2.slots.isEmpty) = true ∧
       s.cores.all (fun e => e.2.wqueue.isEmpty) = true ∧ s.posted 0 0 0x0401 ∧ r.u 0 1 = 0 ∧
       (s.ctx (r.u 1 1)).phase ≠ 0 ∧ bitAt (r.u 2 1) 0 = true ∧ bitAt (r.u 2 1) 1 = false ∧ r.u 8 8 % 32768 = 0) ∧
    (let s := mail 0x0401 [(0, 1, 1), (1, 1, 16), (2, 1, 1), (8, 8, 2 ^ 38 - 2 ^ 15)] base
     let r := s.req 0 0
     s.posted 0 0 0x0401 ∧ r.u 0 1 = 1 ∧ r.u 1 1 = 16 ∧ r.u 8 8 < 2 ^ 38 ∧ ksorted s.xlt.fnRoot = true) ∧
    (let s := mail 0x0402 [(1, 1, 1), (8, 8, 5), (16, 8, 2 ^ 52 - 1)] base
     let r := s.req 0 0
     s.posted 0 0 0x0402 ∧ r.u 0 1 = 0 ∧ (s.ctx (r.u 1 1)).phase ≠ 0 ∧ r.u 8 8 ≤ r.u 16 8 ∧ r.u 16 8 = 2 ^ 52 - 1) ∧
    (let s := draining base
     s.xlt.moves = [] ∧ s.xlt.drains.map (fun d => decide (d.start + 3000 ≤ s.refCount)) = [true] ∧
       s.drained false 1 0 (2 ^ 30 - 1) 0 = false ∧ (s.ctx 1).phase = 3) := by
  refine ⟨?_, ?_, ?_, ?_⟩ <;> decide +kernel

def fault1 : XFault :=
  { id := 5, ctx := 1, va := 0, page := 0, size := 2 ^ 25, cause := 1, level := 0, rd := true, wr := false, pri := false, host := false, merged := false,
    units := 0, cores := 0, queue := 0, seq := 1, time := 0, written := true, accesses := [] }

theorem witness_translations_faults :
    (let s := mail 0x0405 [(0, 1, 16), (8, 8, 4096)] base
     let r := s.req 0 0
     let t := mail 0x0405 [(0, 1, 8), (8, 8, 2 ^ 31)] base
     s.posted 0 0 0x0405 ∧ r.u 0 1 = 16 ∧ r.u 8 8 % 4096 = 0 ∧ r.u 8 8 < 2 ^ 52 ∧ (s.namedThere 0 4096 (64 * 2 ^ 16)).2 = stOk ∧
       t.posted 0 0 0x0405 ∧ (t.req 0 0).u 0 1 = 8 ∧ (t.req 0 0).u 8 8 = 2 ^ 31 ∧ (t.namedThere 0 (2 ^ 31) (64 * 2 ^ 8)).2 ≠ stOk) ∧
    (let s := { (mail 0x0403 [(0, 4, 5), (4, 1, 1)] base) with xlt := { base.xlt with faults := [fault1] } }
     s.posted 0 0 0x0403 ∧ s.xlt.faults.any (fun g => g.id = (s.req 0 0).u 0 4) = true ∧ (s.req 0 0).u 4 1 = 1) ∧
    (let s := { base with xlt := { base.xlt with priGroups := [(1, 2 ^ 30)] } }
     (1, 2 ^ 30) ∈ s.xlt.priGroups) ∧
    (let s := { base with xlt := { base.xlt with rings := [(0, { log2 := 8, written := 7, head := 5 })] } }
     let g := s.faultRing 0
     s.reach 0 = true ∧ (7 + 2 ^ 32 - g.head) % 2 ^ 32 ≤ g.unread ∧ g.unread < (8 + 2 ^ 32 - g.head) % 2 ^ 32) ∧
    (∀ ring ∈ [({ log2 := 0 }, false), ({ log2 := 8, addr := 2 ^ 30 }, true)], let r : FaultRec := { kind := 1, parts := [], faultId := 9, bytes := [] }
     let s := { base.updFn 0 (fun n => { n with busMaster := true }) with refCount := 2000, xlt := { base.xlt with batch := [r], rings := [(0, ring.1)] } }
     let rs := (s.xlt.batch.take 256).map (fun r => (r, s.faultRecBytes r))
     let t := s.batchTo 0 rs
     s.xlt.batch ≠ [] ∧ s.xlt.batchStart + 2000 ≤ s.refCount ∧ ((s.faultRing 0).log2 = 0 ∨ (s.faultRing 0).room rs.length = true) ∧
       (∀ p, p < 16 → (s.faultRing (1 + p)).log2 = 0) ∧ t.2 = ring.2 ∧
       ∀ p, p < 16 → ((rs.foldl (fun t r => t.loseFault r.1.faultId) t.1).faultRing (1 + p)).log2 = 0 ∧ (t.1.faultRing (1 + p)).log2 = 0) := by
  refine ⟨?_, ?_, ?_, ?_, ?_⟩ <;> decide +kernel

/-- The state in which PAGE_MIGRATE and XLT_QUERY look at VA 0 of context 1, a job's, saved elsewhere. -/
def paged (op : Nat) (fields : List (Nat × Nat × Nat)) : State := mail op fields (base.updCtx 1 (fun v => { v with job := true, saveAddr := 2 ^ 40 }))

theorem witness_translations_pages :
    (let s := paged 0x0406 [(0, 1, 1), (8, 8, apertureBase)]
     let r := s.req 0 0
     s.posted 0 0 0x0406 ∧ s.strangeCtx 0 (r.u 0 1) = false ∧ (s.ctx (r.u 0 1)).phase ≠ 0 ∧ r.u 8 8 < 2 ^ 52 ∧ apertureBase ≤ r.u 8 8) ∧
    (let s := paged 0x0406 [(0, 1, 1), (8, 8, 64)]
     (s.req 0 0).u 8 8 < apertureBase ∧ (match s.walk false 1 64 with | (_, .ok e) => decide (e.host = none) | _ => false) = true) ∧
    (let s := paged 0x0404 [(0, 1, 1), (1, 1, 1), (8, 8, 64)]
     let r := s.req 0 0
     let l := s.lastEntry (r.u 8 8) 2 ((s.rootOf false 1).getD 0)
     let size := 2 ^ levelShift l.2.2
     s.posted 0 0 0x0404 ∧ s.xlt.moves = [] ∧ r.u 0 1 = 1 ∧ r.u 1 1 = 1 ∧ r.u 8 8 < 2 ^ 52 ∧ r.u 4 4 = 0 ∧ (s.ctx 1).phase ≠ 0 ∧
       s.migratable 1 l.1 l.2.2 = true ∧ (match s.walkFrom (r.u 8 8) 2 ((s.rootOf false 1).getD 0) with | .poison _ => false | _ => true) = true ∧
       s.pinned 1 (r.u 8 8 / size * size) size l.1 = false ∧ s.moving 1 (r.u 8 8) = none ∧ (s.fn 0).running < 64) := by
  refine ⟨?_, ?_, ?_⟩ <;> decide +kernel

theorem test_xltQuery : after (exec (.xltQuery 0 0) (paged 0x0406 [(0, 1, 1), (8, 8, 64)]))
    (fun t => (status t, fieldAt (readBytes (t.fn 0).mb 32 8) 0 8)) = some ((0, true), 2 ^ 30 + 64) := by decide +kernel

/-! ### Integrity, error records and Vigil -/

/-- An event of unit 9 that waits for its record. -/
def rased (supp : KMap RasSupp) (s : State) : State := { s with ras := { s.ras with events := [{ event := 0x0010, unit := 9 }], supp := supp } }

theorem witness_errorRecords_log :
    (let e : RasEvent := { event := 0x0010, unit := 9 }
     (rased [] base).ras.events = [e] ∧ base.firmware = true ∧ kfind (rased [] base).ras.supp (0x0010 * 256 + 9) = none ∧
       kfind (rased [(0x1009, ⟨0, 3, 0⟩)] base).ras.supp (0x0010 * 256 + 9) = some ⟨0, 3, 0⟩ ∧ (99999999 : Nat) < 0 + 100000000 ∧ e.event ≠ 0x0030) ∧
    (let s := mail 0x0707 [(0, 1, 12), (8, 8, 4096)] base
     s.posted 0 0 0x0707 ∧ (s.req 0 0).u 0 1 = 12 ∧ (s.req 0 0).u 8 8 % 4096 = 0) ∧
    (let s := { mail 0x0708 [(0, 8, 1), (8, 8, 4096)] base with ras := { base.ras with nextSeq := 2 } }
     s.posted 0 0 0x0708 ∧ s.ras.oldest ≤ (s.req 0 0).u 0 8 ∧ (s.req 0 0).u 0 8 < s.ras.nextSeq ∧
       reads (writeCp (cpWho 0) (0, 0) 4096 (s.cperAt 1)) s = true) ∧
    ((mail 0x0701 [] base).posted 0 0 0x0701 ∧ (mail 0x0702 [(0, 1, 127)] base).posted 0 0 0x0702 ∧
      ((mail 0x0702 [(0, 1, 127)] base).req 0 0).u 0 1 = 127) ∧
    (let s := { base with ras := { base.ras with copied := 7, head := 5, ringLog2 := 8 } }
     s.link.up = true ∧ (7 + 2 ^ 32 - s.ras.head) % 2 ^ 32 ≤ s.ras.unread) := by
  refine ⟨?_, ?_, ?_, ?_, ?_⟩ <;> decide +kernel

theorem witness_errorRecords_blocks :
    (let r : Reread := { addr := 2 ^ 30, size := 64, blockId := 9, isRow := false, tier := 0, queue := 0, seq := 1 }
     let s := { base with rereads := [r] }
     s.rereads = [r] ∧ r.isRow = false ∧ r.asked = false ∧ r.far = false ∧ { r with far := true }.far = true ∧
       reads (rereadFar { r with far := true, addr := 2 ^ 30 }) s = true ∧ (s.touch r.addr r.size).checkBlock r.addr r.size r.blockId ≠ 0 ∧
       (let t := s.storeDev (2 ^ 30) (List.replicate 64 7) (fun _ _ => blockMeta 1 0 (selvage (List.replicate 64 7) 9) false false)
        t.rereads = [r] ∧ (t.touch r.addr r.size).checkBlock r.addr r.size r.blockId = 0)) ∧
    (let s := mail 0x0709 [(0, 1, 1), (1, 1, 16), (16, 8, 65536)] base
     let r := s.req 0 0
     s.posted 0 0 0x0709 ∧ s.strangeCtx 0 (r.u 0 1) = false ∧ (s.ctx (r.u 0 1)).phase ≠ 0 ∧ r.u 1 1 = 16 ∧ r.u 16 8 % 2 ^ r.u 1 1 = 0 ∧
       s.ras.seals = [] ∧ s.sealPages 1 (r.u 8 8) (r.u 16 8) = 0 ∧ (s.fn 0).running < 64) ∧
    (let s := mail 0x070A [(0, 1, 1), (1, 1, 6), (16, 8, 128)] base
     s.posted 0 0 0x070A ∧ (s.req 0 0).u 1 1 = 6 ∧ reads (checkRange { ctx := 1 } 0 64 0 0 2) s = true) := by
  refine ⟨?_, ?_, ?_⟩ <;> decide +kernel

/-- A block that carries its tag passes; the same bytes under another block id do not. -/
theorem test_checkBlock :
    let s := (base.storeDev (2 ^ 30) (List.replicate 64 7) (fun _ _ => blockMeta 1 0 (selvage (List.replicate 64 7) 9) false false))
    s.checkBlock (2 ^ 30) 64 9 = 0 ∧ s.checkBlock (2 ^ 30) 64 10 = 1 := by decide +kernel

theorem witness_errorLog : base.ras.ringLog2 = 0 ∧ base.link.snoop = [] ∧ base.link.pendingInv = [] ∧ ksorted base.mem.bytes = true := by decide +kernel

def classifying (copied : Bool) (capture neighbour : Option Nat) : Classify :=
  { core := 3, capture := capture, neighbour := neighbour, second := false, start := 0, queue := 0, seq := 1, lockstep := false, copied := copied }

/-- Core 3 is under classification. -/
def classified (g : Classify) : State := { base with ras := { base.ras with classify := [g] }, refCount := 1000000 }

theorem witness_coreFencing :
    (∀ mode ∈ [0, 1], let s := mail 0x0703 [(0, 1, 127), (1, 1, mode)] base
     let r := s.req 0 0
     s.posted 0 0 0x0703 ∧ r.u 0 1 = 127 ∧ r.u 1 1 = mode ∧ s.fenced 127 = false ∧ (s.fn 0).running < 64) ∧
    (let s := (mail 0x0704 [(0, 1, 5)] base).updRas 5 (fun r => { r with state := 4 })
     s.posted 0 0 0x0704 ∧ s.fenced ((s.req 0 0).u 0 1) = true ∧ (s.rasOf 5).unfence = none ∧ (s.fn 0).running < 64) ∧
    (let s := base.updRas 5 (fun r => { r with fenceStart := some 0 })
     (s.rasOf 5).state ≠ 4 ∧ (s.rasOf 5).fenceStart.isSome = true) ∧
    (∀ g ∈ [classifying false (some 0) none, classifying false none none, classifying true (some 0) none, classifying true (some 0) (some 4)],
      (classified g).firmware = true ∧ (classified g).ras.classify = [g] ∧ g.core = 3 ∧ (classified g).ras.waiting = [] ∧
      g.start + 1000000 ≤ (classified g).refCount ∧ ((classified g).rasOf 3).isDue = false) ∧
    (let c : Capture := { core := 3, desc := [], cmd := 9, ties := false, scratch := [], shadow := true }
     let s := { base with ras := { base.ras with shadows := [(3, 0, 4)], captures := [(0, c)] } }
     s.ras.shadows.find? (fun h => h.1 = 3) = some (3, 0, 4) ∧ kfind s.ras.captures 0 = some c ∧ (s.rasOf 3).state = 0 ∧ (s.core 3).cmd = none ∧
       ∀ q ∈ [9, 8], let t := s.updCore 3 (fun k => { k with cmd := some q })
         (t.core 3).cmd = some q ∧ (q = c.cmd ∨ q ≠ c.cmd) ∧ (t.rasOf 3).state = 0) := by
  refine ⟨?_, ?_, ?_, ?_, ?_⟩ <;> decide +kernel

theorem test_coreFenced : after (exec (.coreFenced 5) (base.updRas 5 (fun r => { r with fenceStart := some 0 }))) (fun t => (t.rasOf 5).state) = some 4 := by
  decide +kernel

def vigil1 : VigilTest := { coreA := 3, coreB := 4, seed := 0, start := 0 }

theorem witness_vigilTests :
    (let s := mail 0x0705 [(0, 1, 1), (1, 1, 8), (4, 4, 168), (8, 4, 60), (12, 4, 10000)] base
     let r := s.req 0 0
     s.posted 0 0 0x0705 ∧ r.u 0 1 = 1 ∧ r.u 1 1 = 8 ∧ r.u 4 4 = 168 ∧ r.u 8 4 = 60 ∧ r.u 12 4 = 10000) ∧
    (let s := mail 0x0706 [(0, 1, 15), (1, 1, 16), (4, 4, 86400)] base
     let r := s.req 0 0
     s.posted 0 0 0x0706 ∧ r.u 0 1 = 15 ∧ r.u 1 1 = 16 ∧ r.u 4 4 = 86400) ∧
    (let s := { base with ras := { base.ras with windows := [(2, (4, 100))] }, refCount := 100 }
     kfind s.ras.windows 2 = some (4, 100) ∧ 100 ≤ s.refCount) ∧
    (let s := { base with refCount := 24 * 3600000000 * 100 }
     s.fullService = true ∧ (s.rasOf 3).isDue = false ∧ (s.rasOf 3).state = 0 ∧ s.dueAt 3 ≤ s.refCount) ∧
    (let s := base.updRas 3 (fun r => { r with isDue := true })
     s.fullService = true ∧ s.firmware = true ∧ s.ras.vigilEnable = true ∧ s.nextTaken = some 3) ∧
    (let s := { (base.updRas 3 (fun r => { r with isDue := true })) with refCount := 1800 * 100000000 }
     (s.rasOf 3).state = 0 ∧ (s.rasOf 3).isDue = true ∧ (s.rasOf 3).dueSince + s.ras.deferralS * 100000000 ≤ s.refCount) := by
  refine ⟨?_, ?_, ?_, ?_, ?_, ?_⟩ <;> decide +kernel

theorem witness_vigilPhases :
    (∀ t ∈ [vigil1, { vigil1 with third := some 5 }, { vigil1 with third := some 5, retry := some 3 }],
      let s := { base with ras := { base.ras with tests := [t] }, refCount := 10000001 }
      s.ras.tests.find? (fun t => t.coreA = 3) = some t ∧ t.start + 10000000 < s.refCount ∧ t.coreA ≠ 5) ∧
    (let s := ({ base with ras := { base.ras with tests := [vigil1], waiting := [5] } } : State).updRas 5 (fun r => { r with state := 2 })
     s.thirdCore vigil1 = some 5 ∧ (s.rasOf 5).state = 2) := by
  refine ⟨?_, ?_⟩ <;> decide +kernel

theorem test_vigilPhase :
    after (exec (.vigilPhaseDone 3 7 7 0) { base with ras := { base.ras with tests := [vigil1] } }) (fun t => t.ras.tests.map (·.phase)) = some [2] := by
  decide +kernel

/-! ### Power, images, bring-up and the host link -/

theorem witness_powerAndHeat_requests :
    ((mail 0x0801 [] base).posted 0 0 0x0801 ∧ (mail 0x0804 [] base).posted 0 0 0x0804) ∧
    (let s := mail 0x0802 [(0, 2, 1500), (2, 1, 10), (3, 1, 32), (4, 1, 90)] base
     let r := s.req 0 0
     s.posted 0 0 0x0802 ∧ r.u 0 2 = 1500 ∧ r.u 2 1 = 10 ∧ r.u 3 1 = 32 ∧ r.u 4 1 = 90) ∧
    (let s := mail 0x0803 [(0, 1, 15), (1, 1, 15)] base
     s.posted 0 0 0x0803 ∧ (s.req 0 0).u 0 1 = 15 ∧ (s.req 0 0).u 1 1 = 15) ∧
    (let s := mail 0x0805 [(0, 1, 80), (1, 1, 100)] base
     s.posted 0 0 0x0805 ∧ (s.req 0 0).u 0 1 = 80 ∧ (s.req 0 0).u 1 1 = 100) ∧
    (let s := mail 0x0806 [(0, 1, 1)] base
     s.posted 0 0 0x0806 ∧ s.strangeCtx 0 ((s.req 0 0).u 0 1) = false ∧ (s.ctx 1).phase ≠ 0) := by
  refine ⟨?_, ?_, ?_, ?_, ?_⟩ <;> decide +kernel

theorem witness_powerAndHeat_readings :
    base.module.powered = true ∧ (40000 ≤ 60000 ∧ 35999 < 36000) ∧
    (let s := { base with refCount := 10000, power := { base.power with tlmLost := false, lastFrame := 0 } }
     s.power.tlmLost = false ∧ s.power.lastFrame + 10000 ≤ s.refCount) ∧
    ((base.clusterPower 3).stretchAt = none ∧
      (let s := { base with refCount := 100000, power := { base.power with clusters := kput base.power.clusters 3 { base.clusterPower 3 with
         stretchAt := some 0, overSince := some 0 } } }
       (s.clusterPower 3).stretchAt = some 0 ∧ 3200 ≤ (s.refCount - 0) * s.clockOf 3 ∧ (s.clusterPower 3).overSince = some 0 ∧
         0 + 100000 ≤ s.refCount)) ∧
    ((base.clusterPower 3).row ≤ (base.power.rowOf 0 85).1 ∧ (base.power.rowOf 105 0).1 = 3) ∧
    { base with module := { base.module with latch := true } }.module.latch = true := by
  refine ⟨?_, ?_, ?_, ?_, ?_, ?_⟩ <;> decide +kernel

theorem test_thermalReading : after (exec (.thermalReading 3 0 85) base) (fun t => ((t.clusterPower 3).row, (t.clusterPower 3).dramTemp)) = some (1, 85) := by
  decide +kernel

/-- Slot A of every kind runs and is committed; slot B of a kind holds an image. -/
def imagesB (kind : Nat) (x : Image) (s : State) : State :=
  let run : KMap Nat := [(1, 0), (2, 0), (3, 0), (4, 0)]
  { s with service := { s.service with running := run, committed := run, images := kput s.service.images (kind * 2 + 1) x } }

theorem witness_images_requests :
    (∀ k ∈ [1, 2, 3, 4], let s := mail 0x0901 [(0, 1, k), (8, 8, 4096), (16, 4, 256)] (imagesB k {} base)
     let r := s.req 0 0
     s.posted 0 0 0x0901 ∧ r.u 0 1 = k ∧ s.service.staging = [] ∧ r.zeros 1 7 = true ∧ r.u 16 4 = 256 ∧ r.u 8 8 + r.u 16 4 ≤ 2 ^ 52 ∧
       s.activating k = false ∧ s.stageSlot k = some 1 ∧ (s.fn 0).running < 64) ∧
    (∀ k ∈ [1, 2, 3, 4], let s := mail 0x0902 [(0, 1, k), (1, 1, 2), (2, 1, 8)] (imagesB k (factoryImage 0x05000000 0x0200) base)
     let r := s.req 0 0
     s.posted 0 0 0x0902 ∧ r.u 1 1 < 4 ∧ r.u 2 1 = 8 ∧ s.activating k = false ∧ s.freshSlot k = some 1 ∧ bitAt (r.u 1 1) 1 = true ∧
       s.pairing (s.image k 1) k 1 = none) ∧
    (let s := mail 0x0902 [(0, 1, 1)] (imagesB 1 { state := 1, version := 9 } base)
     (s.pairing (s.image 1 1) 1 1).isSome = true ∧ s.service.debugFuse = false ∧ s.freshSlot 1 = some 1) ∧
    (let s := mail 0x0903 [(0, 1, 4)] (imagesB 4 {} base)
     s.posted 0 0 0x0903 ∧ s.runSlots 4 = [0] ∧ (mail 0x0904 [(0, 1, 4)] s).posted 0 0 0x0904) ∧
    (let s := mail 0x0905 [(0, 1, 15)] base
     s.posted 0 0 0x0905 ∧ s.service.recal = none ∧ (s.req 0 0).u 0 1 = 15 ∧ (s.fn 0).running < 64) := by
  refine ⟨?_, ?_, ?_, ?_, ?_⟩ <;> decide +kernel

theorem witness_images_progress :
    (∀ n ∈ [398, 399], let c : Recal := { group := 15, slices := n, op := some (0, 7) }
     let s := { base with service := { base.service with recal := some c } }
     s.service.recal = some c ∧ c.group = 15 ∧ (s.clusterPower 15).row ≠ 3 ∧ s.firmware = true) ∧
    (∀ at? ∈ [none, some 0], let w : CpSwap := { fn := 0, opId := 7, slot := 1, swapAt := at? }
     let s := { base with service := { base.service with swap := some w }, refCount := 2500 }
     s.service.swap = some w ∧ (at? = none → s.firmware = true) ∧ s.service.state ≠ 3 ∧ 0 + 2500 ≤ s.refCount ∧ (2499 : Nat) < 0 + 2500) ∧
    (∀ l ∈ [([3, 5], []), ([5], [3])], let r : Rollout := { fn := 0, opId := 7, kind := 2, slot := 1, max := 1, left := l.1, taken := l.2 }
     let s := { base with service := { base.service with rollouts := [r] }, parts := [] }
     s.service.rollouts.find? (fun r => r.kind = 2) = some r ∧ s.firmware = true ∧ (s.core 3).cmd = none ∧ (s.rasOf 3).state = 0 ∧ s.partOf 3 = none ∧
       (l.2 = [] → s.borrowed 3 = false ∧ r.left.head? = some 3)) ∧
    (∀ st ∈ [4, 0], let r : Rollout := { fn := 0, opId := 7, kind := 3, slot := 1, max := 1, left := [0, 1] }
     let s := (({ base with service := { base.service with rollouts := [r] } } : State).updPort 0 (fun p => { p with state := st }))
     s.service.rollouts.find? (fun r => r.kind = 3) = some r ∧ s.firmware = true ∧ r.left.head? = some 0 ∧ r.taken = [] ∧ (s.port 0).state = st) := by
  refine ⟨?_, ?_, ?_, ?_⟩ <;> decide +kernel

theorem witness_bringUpAndReset :
    (State.reset.module.powered = false ∧ State.reset.module.latch = false ∧ base.module.powered = true ∧ base.module.perst = false ∧
      base.module.heldAt10 = false ∧ { base with module := { base.module with heldAt10 := true } }.module.heldAt10 = true) ∧
    (base.service.state = 2 ∧ ({ base.service with state := 3, restartOp := none } : Service).state = 3) ∧
    (∀ n ∈ [0, 7, 8], let s := { base with service := { base.service with state := 1, pair := n } }
     s.service.state = 1 ∧ s.service.pair = n ∧ s.service.resumeDue = false ∧
       ({ s with service := { s.service with resumeDue := true } } : State).service.resumeDue = true ∧ ∀ k, k < 16 → (s.clusterPower k).row < 2) ∧
    ((mail 0x0101 [(0, 2, 0xFFFF)] base).posted 0 0 0x0101 ∧ (mail 0x0102 [] base).posted 0 0 0x0102 ∧
      (mail 0x0103 [] base).posted 0 0 0x0103 ∧ base.service.recal = none) ∧
    (∀ n ∈ [0, 1], let s := mail 0x0104 [(0, 1, n)] base
     s.posted 0 0 0x0104 ∧ (s.req 0 0).u 0 1 = n) := by
  refine ⟨?_, ?_, ?_, ?_, ?_⟩ <;> decide +kernel

theorem test_clusterPairCalibrated :
    after (exec (.clusterPairCalibrated 4 2) { base with service := { base.service with state := 1 } })
      (fun t => (t.service.clustersCal, (t.clusterPower 0).best, (t.clusterPower 8).best)) = some (2, 3, 2) := by decide +kernel

/-- Decoder 0 maps the host's 2^40 on to device offset 0. -/
def mapped (s : State) : State := { s with link := { s.link with cxlMem := true, hdm := [(0, ⟨0, 2 ^ 28, 2 ^ 40, true, false⟩)] } }

theorem witness_hostLinkOperations :
    (base.module.powered = true ∧ base.module.perst = false ∧ base.link.resetAt = none ∧ base.link.up = true ∧ kfind base.link.flrs 15 = none) ∧
    (let s := { base with link := { base.link with resetAt := some 0 }, refCount := 100000, cmds := [], queues := [], ctxs := [], cores := [] }
     s.link.resetAt = some 0 ∧ 0 + 100000 ≤ s.refCount ∧ s.link.flrs = [] ∧ s.link.ifReset = false ∧ (s.drainLimit none).link.ifReset = false ∧
       (s.drainLimit none).hostReset.link.flrs = []) ∧
    (base.reach 16 = true ∧ (127 : Nat) < vectors 1 ∧ (0 : Nat) + 2 ^ 28 ≤ hdmEnd ∧ hdmEnd < hdmEnd + 2 ^ 28) ∧
    ((mapped base).link.cxlMem = true ∧ (mapped base).link.pendingInv = [] ∧ (mapped base).hdmAddr (2 ^ 40 + 2 ^ 28 - 64) = some (2 ^ 28 - 64) ∧
      (mapped base).hdmAddr (2 ^ 40 + 2 ^ 28) = none ∧ ksorted base.mem.bytes = true ∧ ksorted base.mem.symErr = true ∧
      ksorted base.mem.info = true) ∧
    (let b : BackInv := { line := 9, cmd := 0, data := [], mask := [], info := {} }
     ({ base with link := { base.link with pendingInv := [b] } } : State).link.pendingInv = [b] ∧ b.line = 9) := by
  refine ⟨?_, ?_, ?_, ?_, ?_⟩ <;> decide +kernel

theorem test_cxlMemRead : after (exec (.cxlMemRead (2 ^ 40 + 0x8000) 0 false) (mapped base)) (fun t => (t.host.lines.map (fun l => (l.1.take 4, l.2)))) =
    some [([1, 0, 1, 0], false)] := by decide +kernel

theorem witness_registerOperations :
    base.link.up = true ∧ base.reach 16 = true ∧ base.ras.debugLock = false ∧
      { base with ras := { base.ras with debugLock := true } }.ras.debugLock = true ∧ ((base.slice 3).enable = true) ∧
      base.windowOf 1 7 = true ∧ (0x800000 : Nat) % 8 = 0 ∧ regListed 0x900000 = false ∧ regListed 0xFFFF8 = false := by decide +kernel

/-- The halves of CDW_EXU_CTL are written each by itself (R570). -/
theorem test_exuCtl : ((base.exch 3).batchMax < 128 ∧ (base.exch 3).batchAge < 256 ∧ (base.exch 3).replyTimeout < 65536) ∧
    after (exec (.cdwExuCtlWrite 0 3 (64 * 2 ^ 16 + 9) 1) base) (fun t => ((t.exch 3).batchMax, (t.exch 3).batchAge, (t.exch 3).replyTimeout)) =
      some (64, 9, 50) ∧
    after (exec (.cdwExuCtlWrite 0 3 (7 * 2 ^ 32) 2) base) (fun t => ((t.exch 3).batchMax, (t.exch 3).batchAge, (t.exch 3).replyTimeout)) =
      some (64, 20, 7) := by decide +kernel

theorem test_irqCause : after (exec (.feIrqCauseWrite 0 0x5) (base.updFn 0 (fun n => { n with irqCause := 7 }))) (fun t => (t.fn 0).irqCause) = some 2 := by
  decide +kernel

theorem witness_managementAndAttestation :
    (base.module.powered = true ∧ base.service.state = 2 ∧ ({ base.service with state := 3 } : Service).state = 3) ∧
    (let s := { base with ras := { base.ras with nextSeq := 2 } }
     max (s.module.mgmtPtr + 1) s.ras.oldest < s.ras.nextSeq) ∧
    (base.link.up = true ∧ base.firmware = true ∧ base.spdm.stage < 3 ∧
      1 ≤ { base with spdm := { base.spdm with stage := 3 } }.spdm.stage) := by
  refine ⟨?_, ?_, ?_⟩ <;> decide +kernel

/-- A certificate chain has bytes where its length is not 0: an open number, so the statement about GET_CERTIFICATE is met from offset 0
on wherever the length is positive. -/
theorem witness_getCertificate (h : 0 < Config.certLength false) : (0 : Nat) < Config.certLength base.service.debugFuse := by
  have : base.service.debugFuse = false := by decide +kernel
  rw [this]; exact h

/-! ### The whole block -/

theorem witness_wholeBlock :
    ({ base with pending := [.fullReset, .droop 3] } : State).pending = .fullReset :: [.droop 3] ∧ base.pending = [] ∧
      base.module.powered = true ∧ State.reset.module.powered = false := by decide +kernel

/-- The state after reset meets what every step keeps, and a step from it exists. -/
theorem witness_everyStepKeeps : after (step State.reset) (fun t => decide (t.pending = [])) = some true ∧
    after (step { State.reset with pending := [.powerOn] }) (fun t => t.module.powered) = some true := by decide +kernel

theorem test_idleTick : after (step { base with exchanges := [(0, { tokens := [(bucketKey 16 0, 8192)] })] }) (fun t => t.refCount) = some 1 := by
  decide +kernel

/-- An access outside both decoders is answered as unsupported, and the part goes on (R529). -/
theorem test_hdmMiss : after (exec (.cxlMemRead 7 0 false) (mapped base)) (fun t => t.host.unsupported) = some [7] := by decide +kernel

/-! ### Ill-formed commands: one for each check -/

def word0 : WireWord := { data := List.replicate 64 0 }
def page0 : HostPage := ⟨0, none, 0, 4096, 0, true, true⟩
def change0 : ShardChange := { table := 1, bucket := 1, owner := 0, next := 1, kind := 1, row := none }
def reply0 : ReplyEntry := { estatus := 0 }

theorem test_illFormed_headers : ([{ hdr1 with srcPart := 1024 }, { hdr1 with srcCluster := 16 }, { hdr1 with tagSlot := 512 }, { hdr1 with tagSeq := 128 },
    { hdr1 with seg := 256 }, { hdr1 with epoch := 2 ^ 40 }] : List MsgHdr).all (fun h =>
      !(Instr.writeAck h 0).wellFormed && !(Instr.lookupReq h [] []).wellFormed && !(Instr.delta h []).wellFormed && !(Instr.deltaAck h 0 0).wellFormed &&
      !(Instr.arriveAck h 0).wellFormed) = true ∧ hdr1.wellFormed = true := by decide +kernel

theorem test_illFormed_entries :
    (!List.any [(Instr.lookupReq hdr1 [{ table := 65536, row := 0, gen := 0 }] []), .lookupReq hdr1 [{ table := 0, row := 2 ^ 40, gen := 0 }] [],
       .lookupReq hdr1 [{ table := 0, row := 0, gen := 2 ^ 32 }] [], .lookupReq hdr1 (List.replicate 129 { table := 0, row := 0, gen := 0 }) [],
       .lookupReply hdr1 [{ reply0 with holder := 1024 }], .lookupReply hdr1 [{ reply0 with tier := 4 }], .lookupReply hdr1 [{ reply0 with slot16 := 256 }],
       .lookupReply hdr1 [{ reply0 with estatus := 256 }], .lookupReply hdr1 [{ reply0 with slot16 := 1 }], .lookupReply hdr1 (List.replicate 129 reply0),
       .delta hdr1 [{ upd1 1 with table := 65536 }], .delta hdr1 [{ upd1 1 with row := 2 ^ 40 }], .delta hdr1 [{ upd1 1 with rule := 8 }],
       .delta hdr1 [{ upd1 1 with srcPart := 1024 }], .delta hdr1 [upd1 (2 ^ 48)], .delta hdr1 [{ upd1 1 with gen := 2 ^ 32 }]] Instr.wellFormed) = true := by
  decide +kernel

theorem test_illFormed_transfers :
    (!List.any [(Instr.readReq hdr1 0 (2 ^ 48) 64), .readReq hdr1 0 0 63, .readReq hdr1 0 0 4097, .readReply hdr1 0x0900 [], .readReply hdr1 0 (List.replicate 66 word0),
       .readReply hdr1 0 [{ word0 with data := [] }], .readReply hdr1 0 [{ word0 with kind := 4 }], .readReply hdr1 0 [{ word0 with pos := 4 }],
       .readReply hdr1 0 [{ word0 with frag := 65536 }], .write hdr1 0 (2 ^ 48) [word0] false, .write hdr1 0 0 [] false, .write hdr1 0 0 (List.replicate 65 word0) false,
       .writeAck hdr1 5, .arrive hdr1 0 (2 ^ 48) 0, .arrive hdr1 0 0 (2 ^ 32), .arriveAck hdr1 0x0900, .deltaAck hdr1 256 0, .deltaAck hdr1 0 1024,
       .migrateCopy hdr1 65536 0 true 0 reply0 false, .migrateCopy hdr1 0 65536 true 0 reply0 false, .migrateCopy hdr1 0 0 true (2 ^ 40) reply0 false,
       .migrateLog hdr1 65536 0 true 0 (upd1 1), .migrateLog hdr1 0 65536 true 0 (upd1 1), .migrateLog hdr1 0 0 true (2 ^ 40) (upd1 1),
       .migrateAck hdr1 65536 0 true 0 false, .migrateAck hdr1 0 65536 true 0 false, .migrateAck hdr1 0 0 true (2 ^ 40) false, .migrationReady 65536 true 0,
       .migrationReady 0 true (2 ^ 40)] Instr.wellFormed) = true := by decide +kernel

theorem test_illFormed_pool :
    (!List.any [(Instr.fenceClose (2 ^ 40) 0), .fenceClose 0 1024, .fenceClosed (2 ^ 40) 0 [], .fenceClosed 0 1024 [], .fenceClosed 0 0 [{ change0 with table := 65536 }],
       .fenceApply (2 ^ 40) 0 [], .fenceApply 0 1024 [], .fenceApply 0 0 [{ change0 with bucket := 65536 }], .fenceApply 0 0 [{ change0 with owner := 1024 }],
       .fenceApply 0 0 [{ change0 with next := 1024 }], .fenceApply 0 0 [{ change0 with row := some (2 ^ 40) }], .fenceApplied (2 ^ 40) 0 {},
       .fenceApplied 0 1024 {}, .joinReq (2 ^ 32) 1 1 1 0 0, .joinReq 0 0 1 1 0 0, .joinReq 0 9 1 1 0 0, .joinReq 0 1 0 1 0 0, .joinReq 0 1 9 1 0 0, .joinReq 0 1 1 0 0 0,
       .joinReq 0 1 1 17 0 0, .joinReq 0 1 1 1 0 8, .joinGrant (2 ^ 40) 0, .joinGrant 0 (2 ^ 1024), .joinDeny 0 256, .linkDown 0 0 256 0, .linkDown 0 0 0 1024, .linkUp 0 0 256 0,
       .linkUp 0 0 0 1024, .flitReceive 0 { flit1 1 1024 false with ack := 0 }, .flitReceive 0 { flit1 1 0 false with ack := 1024 },
       .flitReceive 0 (flit1 4 0 false), .flitReceive 0 { flit1 1 0 false with vc := 8 }, .flitReceive 0 { flit1 1 0 false with units := 26 },
       .flitReceive 0 { flit1 1 0 false with creditVc := 8 }, .flitReceive 0 { flit1 1 0 false with credits := 1024 },
       .identityBlock 0 (2 ^ 32) 0 0 1 1 1 0 true {}, .identityBlock 0 0 1024 0 1 1 1 0 true {}, .identityBlock 0 0 0 6 1 1 1 0 true {},
       .identityBlock 0 0 0 0 0 1 1 0 true {}] Instr.wellFormed) = true := by decide +kernel

theorem test_illFormed_host :
    (!List.any [(Instr.mailboxSlotWrite 0 0 []), .mailboxSlotWrite 0 0 (List.replicate 65 0), .mailboxSlotWrite 0 8191 [0, 0], .bar2Write 0 0 [],
       .bar2Write 0 (BitVec.allOnes 28) [0, 0], .priResponse 0 (2 ^ 52) none,
       .priResponse 0 0 (some { page0 with fn := 17 }), .priResponse 0 0 (some { page0 with pasid := some (2 ^ 20) }),
       .hostLinkUp 1 1 true 0 0 [{ page0 with size := 4095 }], .hostLinkUp 1 1 true 0 0 [{ page0 with va := 1 }], .hostLinkUp 1 1 true 0 0 [{ page0 with hpa := 1 }],
       .atsInvalidateRequest 0 none (2 ^ 64) 4096, .atsInvalidateRequest 0 none 0 4095, .cxlMemRead 1 0 false, .cxlMemRead (2 ^ 52) 0 false,
       .cxlMemRead 0 73 false, .cxlMemWrite 1 word0.data 0, .cxlMemWrite (2 ^ 52) word0.data 0, .cxlMemWrite 0 [] 0, .backInvalidateResponse (2 ^ 32) none,
       .backInvalidateResponse 0 (some []), .hdmDecoderCommit 0 (2 ^ 52) 0 0, .hdmDecoderCommit 0 0 (2 ^ 52) 0, .hdmDecoderCommit 0 0 0 (2 ^ 52)] Instr.wellFormed) = true := by decide +kernel

theorem test_illFormed_units :
    (!List.any [(Instr.rowArrival 0 (2 ^ 16) 0 0 false), .rowArrival 0 0 65536 0 false, .rowArrival 0 0 0 73 false, .matrix 0 false [⟨16, 0, 0, 0, 1⟩] [],
       .matrix 0 false [⟨0, 0, 64, 0, 1⟩] [], .matrix 0 false [⟨0, 0, 0, 64, 1⟩] [], .matrix 0 false [] [⟨16, 0, 0, 1⟩], .matrix 0 false [] [⟨0, 64, 0, 1⟩],
       .matrix 0 false [] [⟨0, 0, 64, 1⟩], .matrix 0 false [] [⟨0, 0, 0, 2 ^ 32⟩], .patrolScrub 0 73, .powerSample 0 (List.replicate 129 0),
       .powerSample 0 [] (List.replicate 6 0), .efficiencyUpdate 2 1, .efficiencyUpdate 0 1 [1, 1], .efficiencyUpdate 0 1 (List.replicate 6 0),
       .energyAttribution (List.replicate 129 0) 0 0, .energyAttribution [] 0 0 (some ⟨0, [0, 0, 0], []⟩),
       .energyAttribution [] 0 0 (some ⟨0, [], List.replicate 17 0⟩), .thermalReading 0 0 0 (List.replicate 5 0),
       .thermalReading 0 0 0 [] (List.replicate 9 0), .thermalReading 0 0 0 [128], .thermalReading 0 0 0 [] [-129], .telemetryFrame true (2 ^ 17) 0 false, .telemetryFrame true 0 (2 ^ 17) false,
       .thermalReading 0 (-129) 0, .thermalReading 0 128 0, .thermalReading 0 0 (-129), .thermalReading 0 0 128] Instr.wellFormed) = true := by decide +kernel

end Sys2Proof.Tests
end

section
/-! The queue operations and OP_QUERY (R358, R359, R377, R378), and the requests that firmware does not implement (R17, R18, R550). -/

namespace Sys2Proof.Machine

open Sys2Proof

/-! ### Requests answered at once -/

/-- A posted request for any function, whose checks hold and whose action then answers at once, has that answer as its outcome. -/
theorem State.serve_answers {s t : State} {f slot op status : Nat} {resp : List Byte} {act : Req → State → Reply}
    {cs : List (Bool × Nat)} {k : Reply} (h : s.posted f slot op) (ha : act (s.req f slot) s = checks s cs k)
    (hc : ∀ c ∈ cs, c.1 = false) (hk : k = .done t status resp) :
    .next (s.serve f slot op false act) = s.answers t f slot status resp := by
  have hdone : act (s.req f slot) s = .done t status resp := by rw [ha, checks_ok hc, hk]
  rw [State.serve_done (pf := false) h Bool.noConfusion hdone]
  rfl

theorem exec_queueCreate (f : FnId) (slot : Fin 28) (s : State) : exec (.queueCreate f slot) s = execQueueCreate f slot s := rfl

theorem exec_queueDestroy (f : FnId) (slot : Fin 28) (s : State) : exec (.queueDestroy f slot) s = execQueueDestroy f slot s := rfl

theorem exec_queueQuery (f : FnId) (slot : Fin 28) (s : State) : exec (.queueQuery f slot) s = execQueueQuery f slot s := rfl

theorem exec_queueRemap (f : FnId) (slot : Fin 28) (s : State) : exec (.queueRemap f slot) s = execQueueRemap f slot s := rfl

theorem exec_opQuery (f : FnId) (slot : Fin 28) (s : State) : exec (.opQuery f slot) s = execOpQuery f slot s := rfl

theorem exec_unimplementedOpcode (f : FnId) (slot : Fin 28) (s : State) :
    exec (.unimplementedOpcode f slot) s = execUnimplementedOpcode f slot s := rfl

/-! ### The end of a queue (R359) -/

/-- What a queue's removal leaves: the fences on it keep its results (R353, R359). -/
def State.dropQueue (s : State) (q : Nat) : State :=
  { s with queues := kdel s.queues q, cmds := s.cmds.map (fun e => (e.1, e.2.keepFences q (s.queue q).results)) }

theorem State.dropQueue_kfind_self {s : State} (hs : ksorted s.queues = true) (q : Nat) : kfind (s.dropQueue q).queues q = none := by
  simp [State.dropQueue, kfind_kdel hs]

theorem State.dropQueue_queue_ne {s : State} (hs : ksorted s.queues = true) {p q : Nat} (h : p ≠ q) :
    (s.dropQueue q).queue p = s.queue p := by
  simp [State.dropQueue, State.queue, kget, kfind_kdel hs, h]

theorem State.updQueue_sorted {s : State} (hs : ksorted s.queues = true) (q : Nat) (g : SQueue → SQueue) :
    ksorted (s.updQueue q g).queues = true := ksorted_kput hs q _

/-- A closing queue with no command left is removed, and its QUEUE_DESTROY is answered. -/
theorem State.closeQueue_answered {s : State} {f slot q : Nat} (hq : (s.queue q).closing = some (f, slot)) (hcmds : s.queueCmds q = [])
    (h : s.posted f slot 0x0302) : .next (s.closeQueue q) = s.answers (s.dropQueue q) f slot stOk [] := by
  obtain ⟨hfw, -, hserving, hop, -⟩ := h
  have hserved : (((s.dropQueue q).fn f).serving slot && ((s.dropQueue q).req f slot).opcode = 0x0302) = true :=
    Bool.and_eq_true_iff.mpr ⟨hserving, decide_eq_true hop⟩
  have hgone : s.closeQueue q = (s.dropQueue q).respond ((s.dropQueue q).req f slot) stOk [] false := by
    simp only [State.closeQueue, hq, hcmds, hfw]
    exact if_pos hserved
  rw [hgone]
  rfl

/-- What QUEUE_DESTROY makes of a queue before it goes: the request that closes it, and whether its records are given up (R359). -/
def SQueue.markClosing (request : Nat × Nat) (abandon : Bool) (u : SQueue) : SQueue :=
  { u with closing := some request, abandon := abandon, held := if abandon then [] else u.held }

/-- QUEUE_DESTROY of an idle queue marks it as closing, and nothing keeps it from going at once. -/
theorem execQueueDestroy_idle {s : State} {f : FnId} {slot : Fin 28} {q : Nat} (hq : (s.req f slot).u 0 2 = q)
    (h : s.posted f slot 0x0302) (hown : s.strangeQueue f q = false) (hlt : q < 1024) (hstate : (s.queue q).state ≠ 0)
    (hopen : (s.queue q).closing = none) (hidle : s.queueCmds q = []) :
    execQueueDestroy f slot s =
      s.answers ((s.updQueue q (SQueue.markClosing (f, slot) (bitAt ((s.req f slot).u 2 1) 0))).dropQueue q) f slot stOk [] := by
  let g := SQueue.markClosing (f, slot) (bitAt ((s.req f slot).u 2 1) 0)
  have hidle' : (s.updQueue q g).queueCmds q = [] := hidle
  have hclosing : ((s.updQueue q g).queue q).closing = some (f.val, slot.val) := by
    rw [State.updQueue_queue_self]
    rfl
  refine Eq.trans ?_ (State.closeQueue_answered hclosing hidle' h)
  refine congrArg Host.Outcome.next (State.serve_wait h Bool.noConfusion ?_)
  simp only [hq, hopen, reduceCtorEq, if_false]
  rw [checks_ok (by simp [hown, hidle, hstate, hlt])]
  change Reply.wait (State.closeQueue (List.foldl _ _ ((s.updQueue q g).queueCmds q)) q) = _
  rw [hidle', List.foldl_nil]
  rfl

/-! ### Requests that firmware does not implement (R17, R18, R550) -/

/-- A served request of an opcode or a version that is not implemented changes nothing but its response. -/
theorem execUnimplementedOpcode_answers {s : State} {f : FnId} {slot : Fin 28} {status : Nat} (hfw : s.firmware = true)
    (hserving : (s.fn f).serving slot = true) (hun : ¬ (implemented (s.req f slot).opcode = true ∧ (s.req f slot).version = 1))
    (hst : (if s.service.state = 4 && !inRecovery (s.req f slot).opcode then stCapabilityMissing
      else if (s.req f slot).slots = 0 || 4 < (s.req f slot).slots then stBadPattern
      else if implemented (s.req f slot).opcode then stVersionRefused else stCapabilityMissing) = status) :
    execUnimplementedOpcode f slot s = s.answers s f slot status [] := by
  subst hst
  unfold execUnimplementedOpcode
  rw [if_neg (by simpa using hun), if_neg (by simp [hfw, hserving])]
  rfl

/-- Settles O21: each operation's checks hold under the premises, and its action then answers as stated; QUEUE_DESTROY goes through the
removal of the closing queue, and a request that is not implemented through the order of its three refusals. Where a ring is looked up,
`hnamed` rewrites the lookup before its result is matched: evaluated instead, its range of 2 MiB pieces recurses too deep for the kernel. -/
theorem queueOperations : Obligations.QueueOperations := by
  unfold Obligations.QueueOperations
  intro s f slot
  dsimp only
  refine ⟨?create, ?destroy, ?query, ?remap, ?opQuery, ?unimplemented⟩
  case create =>
    intro q t h hctx hsq hsq' hcq hcq' ht ht' hoff hwin hvec haddr hend hfree hphase hphase' halm hnamed
    rw [exec_queueCreate]
    refine State.serve_answers h rfl ?_ ?_
    · simp only [List.forall_mem_cons, Bool.or_eq_false_iff, decide_eq_false_iff_not, Bool.not_eq_false', Nat.not_lt, ne_eq, Decidable.not_not]
      exact ⟨hctx, ⟨⟨⟨⟨⟨⟨⟨⟨⟨⟨hsq, hsq'⟩, hcq⟩, hcq'⟩, ht⟩, ht'⟩, hoff⟩, hwin⟩, hvec⟩, haddr⟩, hend⟩,
        ⟨⟨⟨by rw [hfree]; rfl, hphase⟩, hphase'⟩, halm⟩, List.forall_mem_nil _⟩
    · rw [hnamed, hfree]
      exact if_neg (fun hne => hne rfl)
  case destroy =>
    intro h hown hlt hstate hopen hidle hs
    have hs' := State.updQueue_sorted hs ((s.req f slot).u 0 2) (SQueue.markClosing (f, slot) (bitAt ((s.req f slot).u 2 1) 0))
    refine ⟨_, execQueueDestroy_idle rfl h hown hlt hstate hopen hidle, State.dropQueue_kfind_self hs' _, rfl, rfl, fun p hp => ?_⟩
    rw [State.dropQueue_queue_ne hs' hp, State.updQueue_queue_ne s _ hp]
  case query =>
    intro h hown hlt
    rw [exec_queueQuery]
    refine State.serve_answers h rfl ?_ rfl
    simp only [List.forall_mem_cons, decide_eq_false_iff_not, Nat.not_le]
    exact ⟨hown, hlt, List.forall_mem_nil _⟩
  case remap =>
    intro h hown hlt hlog hlog' haddr hend hstate t hnamed
    rw [exec_queueRemap]
    refine State.serve_answers h rfl ?_ ?_
    · simp only [List.forall_mem_cons, Bool.or_eq_false_iff, decide_eq_false_iff_not, Nat.not_lt, Nat.not_le, ne_eq, Decidable.not_not]
      exact ⟨hown, ⟨⟨⟨⟨hlt, hlog⟩, hlog'⟩, haddr⟩, hend⟩, hstate, List.forall_mem_nil _⟩
    · rw [hnamed]
      exact if_neg (fun hne => hne rfl)
  case opQuery =>
    intro o h hfind hdone
    rw [exec_opQuery]
    refine State.serve_answers (cs := []) h rfl (List.forall_mem_nil _) ?_
    simp only [hfind, hdone, if_true]
  case unimplemented =>
    intro hfw hserving hun
    rw [exec_unimplementedOpcode]
    refine ⟨fun h => ?_, fun hlost hlegal himp => ?_, fun hlost hlegal => ?_⟩ <;>
      apply execUnimplementedOpcode_answers hfw hserving hun
    · rcases h with ⟨hrec, hin⟩ | ⟨⟨hmin, hmax⟩, himp⟩
      · simp [hrec, hin]
      · simp [himp, Nat.ne_of_gt hmin, Nat.not_lt.mpr hmax]
    · rw [if_neg (by simpa using hlost), if_neg (by simp only [Bool.or_eq_true, decide_eq_true_eq]; omega), if_pos himp]
    · rw [if_neg (by simpa using hlost), if_pos (by simp only [Bool.or_eq_true, decide_eq_true_eq]; omega)]

end Sys2Proof.Machine
end

section
/-! The life of a table (R84 to R91, R131, R591): creating, loading, sealing, asking, deleting and freeing it. -/

namespace Sys2Proof.Machine

open Sys2Proof

/-! ### Requests of the physical function -/

/-- A posted request that only function 0 may make, and whose action answers at once, has that answer as its outcome. -/
theorem State.serve_pf_answers {s t : State} {f slot op status : Nat} {resp : List Byte} {act : Req → State → Reply}
    (h : s.posted f slot op) (hf : f = 0) (ha : act (s.req f slot) s = .done t status resp) :
    .next (s.serve f slot op true act) = s.answers t f slot status resp :=
  congrArg Host.Outcome.next (State.serve_done h (fun _ => hf) ha)

/-- Work of an operation that has its result goes on with it, and what the CP has read is forgotten (R432). -/
theorem cpRun_ok {α : Type} {s t : State} {m : CM α} {a : α} (h : m.run s = (.ok a, t)) (k : State → α → Reply) :
    cpRun s m k = k t.cpDone a := by
  simp only [cpRun, h]

theorem exec_tableCreate (f : FnId) (slot : Fin 28) (s : State) : exec (.tableCreate f slot) s = execTableCreate f slot s := rfl

theorem exec_tableLoad (f : FnId) (slot : Fin 28) (s : State) : exec (.tableLoad f slot) s = execTableLoad f slot s := rfl

theorem exec_tableSeal (f : FnId) (slot : Fin 28) (s : State) : exec (.tableSeal f slot) s = execTableSeal f slot s := rfl

theorem exec_tableQuery (f : FnId) (slot : Fin 28) (s : State) : exec (.tableQuery f slot) s = execTableQuery f slot s := rfl

theorem exec_tableDelete (f : FnId) (slot : Fin 28) (s : State) : exec (.tableDelete f slot) s = execTableDelete f slot s := rfl

theorem exec_tableFreed (n : BitVec 16) (s : State) : exec (.tableFreed n) s = execTableFreed n s := rfl

/-! ### The end of a table (R84, R131) -/

/-- Fitting a structure of firmware's changes the units that firmware holds alone (R591). -/
theorem State.fitFirm_eq (s : State) (i : Nat) : ∃ m, s.fitFirm i = { s with firmUnits := m } := by
  unfold State.fitFirm
  dsimp only
  split
  · exact ⟨_, rfl⟩
  · split
    · exact ⟨s.firmUnits, rfl⟩
    · exact ⟨_, rfl⟩

/-- A table goes: every slice drops its rows, and the directory, the update state and the list of tables drop what they keep of it. -/
def State.freeTable (s : State) (id : Nat) : State :=
  { s with slices := s.slices.map (fun (e : Nat × Slice) => (e.1, e.2.dropTags (fun g => g.2.table = id))),
           directory := (s.directory.map (fun (e : Nat × List DirEntry) => (e.1, e.2.filter (fun d => d.table ≠ id)))).filter
             (fun e => !e.2.isEmpty),
           tables := kdel s.tables id, epochs := s.epochs.dropTable id }

theorem State.freeTable_table_self {s : State} (hs : ksorted s.tables = true) (id : Nat) : ((s.freeTable id).table id).state = 0 := by
  simp [State.freeTable, State.table, kget, kfind_kdel hs]

theorem State.freeTable_table_ne {s : State} (hs : ksorted s.tables = true) {id m : Nat} (h : m ≠ id) :
    (s.freeTable id).table m = s.table m := by
  simp [State.freeTable, State.table, kget, kfind_kdel hs, h]

/-- No slice holds a row of a freed table (R131). -/
theorem State.freeTable_slices (s : State) (id : Nat) : ∀ e ∈ (s.freeTable id).slices, ∀ g ∈ e.2.tags, g.2.table ≠ id := by
  intro e he g hg
  obtain ⟨e', -, rfl⟩ := List.mem_map.mp he
  simpa using (List.mem_filter.mp hg).2

/-- The redirect directory names a freed table nowhere. -/
theorem State.freeTable_directory (s : State) (id : Nat) : ∀ e ∈ (s.freeTable id).directory, ∀ d ∈ e.2, d.table ≠ id := by
  intro e he d hd
  obtain ⟨e', -, rfl⟩ := List.mem_map.mp (List.mem_filter.mp he).1
  simpa using (List.mem_filter.mp hd).2

/-- A DELETING table goes once a fence has passed and no step names it, and its TABLE_DELETE is answered. -/
theorem execTableFreed_answers {s : State} {f slot : Nat} {n : BitVec 16} (hstate : (s.table n.toNat).state = 3)
    (hfenced : (s.table n.toNat).fenced = true) (hnames : s.namesTable n.toNat = false) (h : s.posted f slot 0x0505)
    (hdelete : (s.table n.toNat).delete = some (f, slot)) :
    execTableFreed n s = s.answers ((s.freeTable n.toNat).fitFirm 3) f slot stOk [] := by
  obtain ⟨hfw, -, hserving, hop, -⟩ := h
  obtain ⟨m, hm⟩ := (s.freeTable n.toNat).fitFirm_eq 3
  have hreq : ((s.freeTable n.toNat).fitFirm 3).req f slot = s.req f slot := by rw [hm]; rfl
  have hserved : ((((s.freeTable n.toNat).fitFirm 3).fn f).serving slot &&
      (((s.freeTable n.toNat).fitFirm 3).req f slot).opcode = 0x0505) = true := by
    rw [hreq, hm]
    exact Bool.and_eq_true_iff.mpr ⟨hserving, decide_eq_true hop⟩
  unfold execTableFreed
  dsimp only
  rw [if_neg (by simp [hstate, hfenced, hnames, hfw]), hdelete]
  refine (congrArg Host.Outcome.next (if_pos hserved)).trans ?_
  rw [State.answers, ← hreq]
  rfl

/-- Settles O33: the checks of each request hold under the premises, and its action then answers, is accepted or waits as stated; a
freed table's clause rests on what `State.freeTable` drops, since the units that firmware then gives back change nothing else. -/
theorem tableLife : Obligations.TableLife := by
  unfold Obligations.TableLife
  intro s f slot hf r id
  refine ⟨?create, ?load, ?sealed, ?query, ?delete, ?freed⟩
  case create =>
    intro d owners us t u n v e map g h w x hposted hread hdesc habsent hmap hcap hfits hunits
    have htaken : (if decide (r.u 8 8 % 2 ^ 25 ≠ 0) || decide (r.u 8 8 < map) then none else v.takeUnits (r.u 8 8 / 2 ^ 25)) = some us := by
      rw [if_neg (by simpa using ⟨hcap, hfits⟩), hunits]
    rw [exec_tableCreate]
    refine State.serve_pf_answers hposted hf ?_
    rw [cpRun_ok hread, checks_ok (by simpa using ⟨hdesc, habsent⟩), cpRun_ok hmap]
    dsimp only
    rw [htaken]
  case load =>
    intro v r t hposted hstate hfmt hn hn' hrunning
    rw [exec_tableLoad]
    refine State.serve_async hposted (fun _ => hf) hrunning (checks_ok ?_)
    have hfmt' : (if t.kind = 0 then decide (fmtOfCode (r.u 2 1) = some .fp32) || decide (fmtOfCode (r.u 2 1) = some .bf16)
        else decide (r.u 2 1 = t.u 5 1 % 16)) = true := by
      obtain ⟨hk, hc⟩ | ⟨hk, hc⟩ := hfmt <;> simpa [hk] using hc
    simp only [List.forall_mem_cons, Bool.or_eq_false_iff, decide_eq_false_iff_not, Bool.not_eq_false', Nat.not_lt, ne_eq, Decidable.not_not]
    exact ⟨hstate, ⟨⟨hfmt', hn⟩, hn'⟩, List.forall_mem_nil _⟩
  case sealed =>
    intro hposted hstate
    rw [exec_tableSeal]
    exact State.serve_pf_answers hposted hf (checks_ok (by simpa using hstate))
  case query =>
    intro hposted
    rw [exec_tableQuery]
    exact State.serve_pf_answers hposted hf rfl
  case delete =>
    intro hposted hstate
    have hlive : ¬ (decide ((s.table id).state = 3) && decide ((s.table id).delete = some (f.val, slot.val))) = true := by
      obtain h | h := hstate <;> simp [h]
    have hdeletable : (decide ((s.table id).state ≠ 1) && decide ((s.table id).state ≠ 2)) = false := by
      obtain h | h := hstate <;> simp [h]
    rw [exec_tableDelete]
    exact congrArg Host.Outcome.next (State.serve_wait hposted (fun _ => hf)
      ((if_neg hlive).trans (checks_ok (List.forall_mem_cons.mpr ⟨hdeletable, List.forall_mem_nil _⟩))))
  case freed =>
    intro n hstate hfenced hnames hposted hdelete hsorted
    obtain ⟨m, hm⟩ := (s.freeTable n.toNat).fitFirm_eq 3
    rw [exec_tableFreed]
    refine ⟨_, execTableFreed_answers hstate hfenced hnames hposted hdelete, ?_⟩
    rw [hm]
    exact ⟨State.freeTable_table_self hsorted _, fun m hne => State.freeTable_table_ne hsorted hne, s.freeTable_slices _,
      s.freeTable_directory _, rfl, rfl⟩

end Sys2Proof.Machine
end

section
/-! Tallies and semaphore pairs (R411, R412, R415 to R417): what an add, a give and a take do, and SEMTAKE and SEMGIVE at the PC. -/

namespace Sys2Proof.Machine

open Sys2Proof

/-! ### Adds to a tally -/

@[simp] theorem Tally.add_zero (t : Tally) (src : Nat) : t.add 0 src = t := rfl

/-- Below the largest value an add is a plain sum (R411). -/
theorem Tally.add_of_lt {t : Tally} {n : Nat} (src : Nat) (hsat : t.sat = false) (hn : n ≠ 0) (hlt : t.value + n < tallyMax) :
    t.add n src = { t with value := t.value + n, src := src } := by
  simp [Tally.add, hsat, hn, Nat.not_le.mpr hlt]

/-- A sum that reaches the largest value sticks there (R412). -/
theorem Tally.add_of_reaches {t : Tally} {n : Nat} (src : Nat) (hsat : t.sat = false) (hn : n ≠ 0) (hle : tallyMax ≤ t.value + n) :
    t.add n src = { value := tallyMax, sat := true, src := src } := by
  simp [Tally.add, hsat, hn, hle]

/-- A saturated tally keeps its value and its flag (R412). -/
theorem Tally.add_of_sat {t : Tally} (n src : Nat) (hsat : t.sat = true) :
    (t.add n src).value = t.value ∧ (t.add n src).sat = true := by
  by_cases hn : n = 0
  · subst hn
    exact ⟨rfl, hsat⟩
  · simp [Tally.add, hsat, hn]

/-! ### Gives and takes -/

/-- What a give does to the producer side, which holds at most 65,535 (R415). -/
theorem Pair.giveProd_spec {p : Pair} (src : Nat) (hp : p.prod ≤ 65535) :
    (p.giveProd src).prod = min 65535 (p.prod + 1) ∧ (p.giveProd src).cons = p.cons ∧
      (p.giveProd src).sat = (p.sat || p.prod == 65535) := by
  by_cases hfull : p.prod = 65535
  · simp [Pair.giveProd, hfull]
  · have hroom : p.prod + 1 ≤ 65535 := by omega
    simp [Pair.giveProd, hfull, hroom]

/-- What a give does to the consumer side, which holds at most 65,535 (R415). -/
theorem Pair.giveCons_spec {p : Pair} (src : Nat) (hp : p.cons ≤ 65535) :
    (p.giveCons src).cons = min 65535 (p.cons + 1) ∧ (p.giveCons src).prod = p.prod ∧
      (p.giveCons src).sat = (p.sat || p.cons == 65535) := by
  by_cases hfull : p.cons = 65535
  · simp [Pair.giveCons, hfull]
  · have hroom : p.cons + 1 ≤ 65535 := by omega
    simp [Pair.giveCons, hfull, hroom]

@[simp] theorem Pair.take_prod_side (p : Pair) : p.take 0 = { p with prod := p.prod - 1 } := rfl

@[simp] theorem Pair.take_cons_side (p : Pair) : p.take 1 = { p with cons := p.cons - 1 } := rfl

/-! ### Pairs of a set -/

@[simp] theorem SyncSet.updPair_pair_self (g : SyncSet) (i : Nat) (f : Pair → Pair) : (g.updPair i f).pair i = f (g.pair i) := by
  simp [SyncSet.updPair, SyncSet.pair]

/-- No take is served from a side that holds nothing (R415). -/
theorem SyncSet.free_of_empty {g : SyncSet} {i side : Nat} (h : (g.pair i).side side = 0) : g.free i side = false := by
  simp [SyncSet.free, h]

/-- A take by an engine that has no grant waits at a side that holds nothing, and the pairs stay as they were (R415, R416). -/
theorem SyncSet.engineTake_of_empty {g : SyncSet} {u : SemWaiter} (hgrant : g.grants.contains u = false)
    (h : (g.pair u.pair).side u.side = 0) : (g.engineTake u).2 = false ∧ ∀ i, (g.engineTake u).1.pair i = g.pair i := by
  rw [SyncSet.engineTake, if_neg (Bool.not_eq_true _ ▸ hgrant), if_neg (Bool.not_eq_true _ ▸ SyncSet.free_of_empty h)]
  split <;> exact ⟨rfl, fun _ => rfl⟩

@[simp] theorem Core.updSet_set_self (k : Core) (x : Nat) (f : SyncSet → SyncSet) : (k.updSet x f).set x = f (k.set x) := by
  simp [Core.updSet, Core.set]

@[simp] theorem Core.updSet_seq (k : Core) (x : Nat) (f : SyncSet → SyncSet) : (k.updSet x f).seq = k.seq := rfl

@[simp] theorem Core.set_with_seq (k : Core) (q : Sequencer) (x : Nat) : ({ k with seq := q } : Core).set x = k.set x := rfl

/-! ### The instruction at the PC -/

@[simp] theorem State.updSeq_core_self (s : State) (c : Nat) (f : Sequencer → Sequencer) :
    (s.updSeq c f).core c = { s.core c with seq := f (s.core c).seq } :=
  State.updCore_core_self ..

@[simp] theorem State.updSeq_cmds (s : State) (c : Nat) (f : Sequencer → Sequencer) : (s.updSeq c f).cmds = s.cmds := rfl

@[simp] theorem State.updSeq_ras (s : State) (c : Nat) (f : Sequencer → Sequencer) : (s.updSeq c f).ras = s.ras := rfl

/-- A word whose unused bits are zero has an opcode of the table (R324). -/
theorem insMask_isSome_of_clean {w : Nat} (h : insClean w = true) : (insMask (insOp w)).isSome = true := by
  cases hm : insMask (insOp w) with
  | none => simp [insClean, hm] at h
  | some m => rfl

/-- The row of the instruction at the PC runs its action (R323, R324). -/
theorem State.seqRow_of_atIns {s : State} {c op w : Nat} (h : s.atIns c op w) (act : Nat → State) : s.seqRow c op act = act w := by
  obtain ⟨hruns, hins, hop, hclean, hcap⟩ := h
  have hlisted : (insMask op).isNone = false := Option.isNone_eq_false_iff.mpr (hop ▸ insMask_isSome_of_clean hclean)
  have hlevel : ¬ (s.core c).seq.capLevel < 0x0100 := Nat.not_lt.mpr hcap
  simp only [State.seqRow, hruns, hins, hop, hlisted, hclean, hlevel, Bool.not_true, Bool.false_eq_true, ne_eq, not_true_eq_false,
    decide_false, Bool.or_self, if_false]

/-- The row of an instruction that reads a sync store entry without wrong symbols runs its work (R325, R459). -/
theorem State.seqSync_of_atIns {s : State} {c op w : Nat} (h : s.atIns c op w) (m : Nat → CM Unit) :
    s.seqSync c op 0 m = s.seqRun c (m w) :=
  State.seqRow_of_atIns h _

/-! ### SEMTAKE and SEMGIVE -/

theorem exec_seqSemtake (c : CoreId) (errs : Fin 4) (s : State) : exec (.seqSemtake c errs) s = execSeqSemtake c s errs := rfl

theorem exec_seqSemgive (c : CoreId) (errs : Fin 4) (s : State) : exec (.seqSemgive c errs) s = execSeqSemgive c s errs := rfl

@[simp] theorem seqStall_run (c wait code : Nat) (s : State) :
    (seqStall c wait code).run s = (.error .wait, s.updSeq c (fun q => q.stall wait code)) := id rfl

@[simp] theorem seqAdv_run (c : Nat) (s : State) : (seqAdv c).run s = (.ok (), s.updSeq c Sequencer.adv) := id rfl

section
variable {s : State} {c : CoreId} {w : Nat}

/-- A SEMTAKE that cannot be served joins the takes that wait on the side, and the sequencer waits (R416, R343). -/
theorem execSeqSemtake_queues (h : s.atIns c 0x28 w) (hfree : ((s.core c).set (s.core c).ctx).free (insImm w) 0 = false)
    (hnew : ((s.core c).set (s.core c).ctx).waiters.contains ⟨insImm w, 0, 0⟩ = false) :
    execSeqSemtake c s 0 = .next ((s.updCore c (fun k => k.updSet k.ctx (fun g =>
      { g with waiters := g.waiters ++ [⟨insImm w, 0, 0⟩] }))).updSeq c (fun q => q.stall 2 (insImm w))) := by
  rw [execSeqSemtake, State.seqSync_of_atIns h]
  refine congrArg Host.Outcome.next (State.seqRun_wait ?_)
  simp only [CM.run_bind_get, hfree, hnew, Bool.false_eq_true, if_false, CM.run_bind_set, seqStall_run]

/-- A SEMTAKE that waits already waits on (R416, R343). -/
theorem execSeqSemtake_waits_on (h : s.atIns c 0x28 w) (hfree : ((s.core c).set (s.core c).ctx).free (insImm w) 0 = false)
    (hold : ((s.core c).set (s.core c).ctx).waiters.contains ⟨insImm w, 0, 0⟩ = true) :
    execSeqSemtake c s 0 = .next (s.updSeq c (fun q => q.stall 2 (insImm w))) := by
  rw [execSeqSemtake, State.seqSync_of_atIns h]
  refine congrArg Host.Outcome.next (State.seqRun_wait ?_)
  simp only [CM.run_bind_get, hfree, hold, Bool.false_eq_true, if_false, if_true, seqStall_run]

/-- A SEMGIVE with a unit held gives it back to the consumer side and goes on (R417). -/
theorem execSeqSemgive_gives (h : s.atIns c 0x29 w) (hheld : (((s.core c).set (s.core c).ctx).pair (insImm w)).held ≠ 0) :
    execSeqSemgive c s 0 = .next ((s.updCore c (fun k => k.updSet k.ctx (fun g =>
      g.updPair (insImm w) (fun p => { p.giveCons 1 with held := p.held - 1 })))).updSeq c Sequencer.adv) := by
  rw [execSeqSemgive, State.seqSync_of_atIns h]
  refine congrArg Host.Outcome.next (State.seqRun_ok ?_)
  simp only [CM.run_bind_get, hheld, if_false, CM.run_bind_modify, seqAdv_run]

/-- A SEMTAKE at a side that holds nothing waits, with the pair, the PC and the commands as they were (R415). -/
theorem execSeqSemtake_of_empty (h : s.atIns c 0x28 w) (hprod : (((s.core c).set (s.core c).ctx).pair (insImm w)).prod = 0) :
    ∃ t, execSeqSemtake c s 0 = .next t ∧
      ((t.core c).set (s.core c).ctx).pair (insImm w) = ((s.core c).set (s.core c).ctx).pair (insImm w) ∧
      (t.core c).seq.pc = (s.core c).seq.pc ∧ t.cmds = s.cmds := by
  have hfree := SyncSet.free_of_empty (side := 0) hprod
  cases hwaits : ((s.core c).set (s.core c).ctx).waiters.contains ⟨insImm w, 0, 0⟩ with
  | false =>
    refine ⟨_, execSeqSemtake_queues h hfree hwaits, ?_, ?_, ?_⟩
    · simp [SyncSet.pair]
    · simp [Sequencer.stall]
    · simp
  | true =>
    refine ⟨_, execSeqSemtake_waits_on h hfree hwaits, ?_, ?_, ?_⟩
    · simp
    · simp [Sequencer.stall]
    · simp

/-- A SEMGIVE to a full consumer side loses its unit and sets SAT, without a status (R415). -/
theorem execSeqSemgive_of_full (h : s.atIns c 0x29 w) (hheld : (((s.core c).set (s.core c).ctx).pair (insImm w)).held ≠ 0)
    (hcons : (((s.core c).set (s.core c).ctx).pair (insImm w)).cons = 65535) :
    ∃ t, execSeqSemgive c s 0 = .next t ∧ (((t.core c).set (s.core c).ctx).pair (insImm w)).cons = 65535 ∧
      (((t.core c).set (s.core c).ctx).pair (insImm w)).sat = true ∧ t.cmds = s.cmds ∧ t.ras = s.ras := by
  obtain ⟨hstays, -, hsat⟩ := Pair.giveCons_spec 1 (Nat.le_of_eq hcons)
  refine ⟨_, execSeqSemgive_gives h hheld, ?_, ?_, ?_, ?_⟩
  · simp [hstays, hcons]
  · simp [hsat, hcons]
  · simp
  · simp

end

/-- Settles O4: the laws of `Tally.add`, of the gives and takes, and of a take at a side that holds nothing, one for each clause. -/
theorem talliesAndPairs : Obligations.TalliesAndPairs := by
  unfold Obligations.TalliesAndPairs
  refine ⟨?sum, ?reaches, ?sticks, ?zero, ?giveProd, ?giveCons, ?take, ?sequencer, ?engine⟩
  case sum => exact fun t n src hsat hn hlt => Tally.add_of_lt src hsat hn hlt
  case reaches => exact fun t n src hsat hn hle => Tally.add_of_reaches src hsat hn hle
  case sticks => exact fun t n src hsat => Tally.add_of_sat n src hsat
  case zero => exact fun t src => t.add_zero src
  case giveProd => exact fun p src hp => Pair.giveProd_spec src hp
  case giveCons => exact fun p src hp => Pair.giveCons_spec src hp
  case take =>
    intro p
    rw [p.take_prod_side, p.take_cons_side]
    exact ⟨rfl, rfl, rfl, rfl⟩
  case sequencer =>
    intro s c w
    rw [exec_seqSemtake, exec_seqSemgive]
    exact ⟨execSeqSemtake_of_empty, execSeqSemgive_of_full⟩
  case engine =>
    intro g u hgrant hempty
    obtain ⟨hwaits, hpairs⟩ := SyncSet.engineTake_of_empty hgrant hempty
    exact ⟨hwaits, hpairs u.pair⟩

end Sys2Proof.Machine
end
